-- ==== Sys2Proof/Word.lean ====
section
/-! DEFINITION. The plainest number types of the SX48: bytes of the control port and the rack line, and ADC codes. -/

namespace Sys2Proof

/-- One byte of a command, a reply or a frame body (chapter 12). -/
abbrev Byte := BitVec 8

/-- A code of the receiver's 12-bit ADC, 0..4095; 4095 marks overrange (terms of 00_scope.md). -/
abbrev Adc := Fin 4096

end Sys2Proof
end

