-- ==== Sys2Proof/Config.lean ====
section
/-! DEFINITION. What the manual fixes as figures, and the free values it leaves open (constants with no body:
nothing in Lean can evaluate them). -/

namespace Sys2Proof

/-! ## Figures -/

/-- Spans of one station, numbered 1..48 (R1). -/
def Config.spans : Nat := 48
/-- Levels of one fingerprint page (R5). -/
def Config.pageLevels : Nat := 4096
/-- Pages of the fingerprint store (R5). -/
def Config.pages : Nat := 128
/-- Pages of one retention bank (R5). -/
def Config.bankPages : Nat := 16
/-- The largest trace level (conventions, "Levels"). -/
def Config.maxLevel : Nat := 1806
/-- The level that marks a bin without data (conventions, "Levels"). -/
def Config.noData : Nat := 2047
/-- The ADC code that marks overrange. -/
def Config.overrange : Nat := 4095
/-- Milliseconds of a day (conventions, "Time"). -/
def Config.msPerDay : Nat := 86400000
/-- Clock lock time, 2 ms (R24). -/
def Config.lockTime : Nat := 2
/-- Doze delay, 10 s (R34). -/
def Config.dozeDelay : Nat := 10000
/-- Switch settle time, 25 ms (R68). -/
def Config.settleTime : Nat := 25
/-- Initial dark shots of a sweep (R74). -/
def Config.darkShots : Nat := 16
/-- Lit shots of a quick look (R75). -/
def Config.quickShots : Nat := 64
/-- log2 of the lit shots of a quick look (R99). -/
def Config.quickLog : Nat := 6
/-- Lit shots between interleaved dark shots (R77). -/
def Config.darkEvery : Nat := 64
/-- Lit shots of a block (R58). -/
def Config.blockShots : Nat := 256
/-- Most saturated entries a comparable trace may have (R105). -/
def Config.overloadLimit : Nat := 256
/-- Bins of a confirm window (R180). -/
def Config.windowBins : Nat := 1024
/-- Frames the inbox holds (R142). -/
def Config.inboxSize : Nat := 8
/-- Notices the FIFO holds (R197). -/
def Config.fifoSize : Nat := 32
/-- Presence period, 1 s (R147). -/
def Config.presencePeriod : Nat := 1000
/-- Peer lifetime, 3.5 s (R148). -/
def Config.peerLifetime : Nat := 3500
/-- Learning period, 3 s (R153). -/
def Config.learningTime : Nat := 3000
/-- Events an event list holds (R122). -/
def Config.maxEvents : Nat := 8
/-- The largest distance a FINDING may carry (R175, R203). -/
def Config.maxDistance : Nat := 350821

/-! ## Free values -/

/-- Which of several timer events that are due together is taken first (R34, R61, R151, R165, R185 leave the order
open). Applied to the model's counter `State.free`; log 2. -/
opaque Config.dueChoice : Nat → Nat

/-- What a cell of the fingerprint store holds whose contents are undefined (R5, R20), from the model's counter and
the cell's address; log 7. -/
opaque Config.undefinedLevel : Nat → Nat → Nat

/-- How many bins a baseline write had copied when it was stopped (R10, R12 leave it open), from the model's counter;
log 8. -/
opaque Config.binsCopied : Nat → Nat

/-- Whether the last lit shot of a full acquisition has just ended when a conflict is taken during it (R81, R166 allow
both), from the model's counter; log 31. -/
opaque Config.lastShotEnded : Nat → Bool

/-- The samples of a last lit shot that ended so, from the model's counter and the bin; log 31. -/
opaque Config.endedSample : Nat → Nat → Adc

end Sys2Proof
end

