-- ==== Sys2Proof/Syntax.lean ====
section
/-! DEFINITION. The commands of the SX48: one constructor for each row of spec/opcode_table.json, with the operands
that chapter 12 and the row's rule give it. Host parameters are numbers as the host sends them (R190: "stored as
given"); a rule, not the type, refuses a wrong one. -/

namespace Sys2Proof

/-- A span configuration record as CONFIG-WRITE carries it (R1, 12.2 code 0x10). -/
structure SpanRecord where
  enabled     : Bool
  /-- L, the span length in bins -/
  len         : Nat
  lightGroup  : Nat
  sheathGroup : Nat
  /-- sheath offset in dm -/
  offset      : Nat
  firstPage   : Nat
  /-- A, the anchor start -/
  anchor      : Nat
  /-- τ, the bend threshold -/
  tau         : Nat
  /-- k, log2 of the lit shots of a full acquisition -/
  shots       : Nat
  /-- N, the routine cycle -/
  cycle       : Nat
  /-- 0 OFF, 1 EDGE, 2 LEVEL; another code stands for no allowed value (R204) -/
  alertMode   : Nat
  alertLevel  : Nat
deriving DecidableEq, Repr

/-- The station-wide configuration block as CONFIG-WRITE carries it (R190, 12.2 code 0x11). -/
structure StationBlock where
  /-- reference frequency in kHz -/
  refKHz        : Nat
  mulM          : Nat
  divP          : Nat
  /-- N_g in ten-thousandths -/
  groupIndex    : Nat
  /-- minute of day -/
  quietStart    : Nat
  /-- minute of day -/
  quietEnd      : Nat
  dayFloor      : Nat
  /-- ms -/
  holdOff       : Nat
  /-- s -/
  claimLifetime : Nat
  /-- s -/
  roundTimeout  : Nat
  /-- s -/
  holdDown      : Nat
  /-- s -/
  resumeLimit   : Nat
  /-- dm -/
  tolerance     : Nat
  /-- ρ, lu -/
  reflection    : Nat
  /-- lu -/
  floorLevel    : Nat
  /-- ADC codes -/
  foreignLight  : Nat
  /-- ADC codes -/
  disturbance   : Nat
  /-- bit b for bank b -/
  retention     : BitVec 8
  dozeEnable    : Bool
  /-- s -/
  alertInterval : Nat
deriving DecidableEq, Repr

/-- The parameters of READ-TRACE (R201, 12.2 code 0x18). -/
structure TraceRequest where
  /-- 0 result trace, 1 fingerprint -/
  source : Nat
  span   : Nat
  first  : Nat
  count  : Nat
  /-- 0 LINEAR, 1 WRAPPED -/
  burst  : Nat
  group  : Nat
deriving DecidableEq, Repr

/-- The codes of a laser fault report (R89). -/
inductive LaserCode where
  | pulseMissing
  | pulseExcess
  | drive
  | temperature
deriving DecidableEq, Repr

/-- The presence state a PRESENCE carries (R146). -/
inductive PresenceState where
  | learning
  | running
  | dozing
  | halted
deriving DecidableEq, Repr

/-- The five kinds of rack-line frame with their bodies (R132, 12.1). A FINDING's kind and distance are the numbers
on the line: 1 BREAK, 2 BEND, 3 CLEAR, 4 OUT_OF_RANGE, 5 OUT_OF_SERVICE. -/
inductive FrameBody where
  | presence (state : PresenceState) (groups : List Nat)
  | claim (group level : Nat)
  | hold (group level : Nat)
  | release (group level : Nat)
  | finding (group kind distance : Nat)
deriving DecidableEq, Repr

/-- A rack-line frame: its arbitration field and its body (R132). -/
structure Frame where
  urgency : Nat
  sender  : Nat
  body    : FrameBody
deriving DecidableEq, Repr

/-- The commands and events of the station: one for each row of the table. -/
inductive Instr where
  /-- COLD_RESET: the straps as sampled -/
  | coldReset (straps : BitVec 5)
  /-- WARM_RESET: the straps as sampled -/
  | warmReset (straps : BitVec 5)
  | configWriteSpan (span : Nat) (record : SpanRecord)
  | configWriteStation (block : StationBlock)
  /-- START: the initial time of day -/
  | start (tod : Nat)
  | run
  | halt
  | readStatus
  | readNotice
  | readResult (span : Nat)
  | readTrace (request : TraceRequest)
  /-- SWEEP: kind 2 HOST, 5 BASELINE (12.2) -/
  | sweep (span kind level : Nat)
  | spanOff (span : Nat)
  | spanOn (span : Nat)
  | clearFault
  | fpBegin (span : Nat)
  | fpData (span : Nat) (levels : List Nat)
  | fpEnd (span : Nat)
  /-- UNKNOWN_COMMAND: the whole command as received, code first -/
  | unknownCommand (bytes : List Byte)
  /-- PARTIAL_COMMAND_DISCARDED: the bytes received before the host deselected -/
  | partialCommandDiscarded (bytes : List Byte)
  | endOfLocking
  | windowStart
  | windowEnd
  | dozeEntry
  | alertLineAsserted (span : Nat)
  | alertLineReleased (span : Nat)
  | reRaiseTimerExpiry (span : Nat)
  | switchSettleExpiry
  /-- DARK_SHOT_COMPLETE: the samples of bins 0..L−1 (R72) -/
  | darkShotComplete (samples : List Adc)
  /-- LIT_SHOT_COMPLETE: the samples of bins 0..L−1 (R72) -/
  | litShotComplete (samples : List Adc)
  /-- INTERLEAVED_DARK_SHOT_CHECK: the samples of bins 0..L−1 (R72) -/
  | interleavedDarkShotCheck (samples : List Adc)
  | reductionComplete
  | comparisonComplete
  | baselineWriteComplete
  | resumeTimerExpiry
  | laserFaultReport (code : LaserCode)
  | laserFaultConditionClears
  | idleGap
  | arbitrationLost
  | frameTransmitted
  | readbackError
  /-- FRAME_RECEIVED: the bits read from the frame's first to the end of activity; true is recessive (12.1) -/
  | frameReceived (bits : List Bool)
  | presenceDelivered
  | claimDelivered
  | holdDelivered
  | releaseDelivered
  | findingDelivered
  | presenceTimerExpiry
  | learningTimerExpiry
  | ageTimerExpiry (id : Nat)
  | holdOffExpiry (group : Nat)
  | holdRepetition (group : Nat)
  | heldExpiry (group : Nat)
  | roundTimerExpiry (group : Nat)
  | holdDownExpiry (group : Nat)
  | frameStartHeard
  | arbitrationWon
deriving DecidableEq, Repr

end Sys2Proof
end

