-- ==== Sys2Proof/WellFormed.lean ====
section
/-! DEFINITION. Which commands can be sent: every host parameter fits the bytes 12.2 gives it, span operands of events
name a port (R1), ids and groups of events lie in their ranges (R148, R155, R173), a shot has at most 16384 samples. -/

namespace Sys2Proof

/-- v fits n bytes (12.2). -/
def fitsBytes (n v : Nat) : Bool := decide (v < 256 ^ n)

/-- Every field of a span record fits its bytes (12.2, code 0x10). -/
def SpanRecord.wellFormed (r : SpanRecord) : Bool :=
  fitsBytes 2 r.len && fitsBytes 1 r.lightGroup && fitsBytes 1 r.sheathGroup && fitsBytes 3 r.offset &&
  fitsBytes 1 r.firstPage && fitsBytes 2 r.anchor && fitsBytes 2 r.tau && fitsBytes 1 r.shots &&
  fitsBytes 1 r.cycle && fitsBytes 1 r.alertMode && fitsBytes 1 r.alertLevel

/-- Every field of a station-wide block fits its bytes (12.2, code 0x11). -/
def StationBlock.wellFormed (b : StationBlock) : Bool :=
  fitsBytes 4 b.refKHz && fitsBytes 1 b.mulM && fitsBytes 1 b.divP && fitsBytes 2 b.groupIndex &&
  fitsBytes 2 b.quietStart && fitsBytes 2 b.quietEnd && fitsBytes 1 b.dayFloor && fitsBytes 2 b.holdOff &&
  fitsBytes 1 b.claimLifetime && fitsBytes 2 b.roundTimeout && fitsBytes 2 b.holdDown &&
  fitsBytes 1 b.resumeLimit && fitsBytes 2 b.tolerance && fitsBytes 2 b.reflection &&
  fitsBytes 2 b.floorLevel && fitsBytes 2 b.foreignLight && fitsBytes 2 b.disturbance &&
  fitsBytes 2 b.alertInterval

/-- Every parameter of a READ-TRACE fits its bytes (12.2, code 0x18). -/
def TraceRequest.wellFormed (q : TraceRequest) : Bool :=
  fitsBytes 1 q.source && fitsBytes 1 q.span && fitsBytes 2 q.first && fitsBytes 2 q.count &&
  fitsBytes 1 q.burst && fitsBytes 2 q.group

/-- v lies in 1..n. -/
def inOneTo (n v : Nat) : Bool := decide (1 ≤ v ∧ v ≤ n)

/-- A frame that 12.1 can carry: urgency 0..3, sender 1..31, body fields in their bytes, declared groups 1..255 in
ascending order and at most eight (R146). -/
def Frame.wellFormed (f : Frame) : Bool :=
  decide (f.urgency ≤ 3) && inOneTo 31 f.sender &&
  match f.body with
  | .presence _ gs =>
    decide (gs.length ≤ 8) && gs.all (inOneTo 255) && decide (gs.Pairwise (· < ·))
  | .claim g l => fitsBytes 1 g && decide (l ≤ 3)
  | .hold g l => fitsBytes 1 g && decide (l ≤ 3)
  | .release g l => fitsBytes 1 g && decide (l ≤ 3)
  | .finding g k d => fitsBytes 1 g && fitsBytes 1 k && fitsBytes 3 d

/-- The samples of one shot: at most one for each bin of the longest span (R72, R1). -/
def samplesFit (xs : List Adc) : Bool := decide (xs.length ≤ 16384)

/-- A command that the outside can send. -/
def Instr.wellFormed : Instr → Bool
  | .coldReset _ => true
  | .warmReset _ => true
  | .configWriteSpan s r => fitsBytes 1 s && r.wellFormed
  | .configWriteStation b => b.wellFormed
  | .start t => fitsBytes 4 t
  | .run => true
  | .halt => true
  | .readStatus => true
  | .readNotice => true
  | .readResult s => fitsBytes 1 s
  | .readTrace q => q.wellFormed
  | .sweep s k l => fitsBytes 1 s && fitsBytes 1 k && fitsBytes 1 l
  | .spanOff s => fitsBytes 1 s
  | .spanOn s => fitsBytes 1 s
  | .clearFault => true
  | .fpBegin s => fitsBytes 1 s
  | .fpData s ls => fitsBytes 1 s && fitsBytes 2 ls.length && ls.all (fitsBytes 2)
  | .fpEnd s => fitsBytes 1 s
  | .unknownCommand bs => !bs.isEmpty
  | .partialCommandDiscarded _ => true
  | .endOfLocking => true
  | .windowStart => true
  | .windowEnd => true
  | .dozeEntry => true
  | .alertLineAsserted s => inOneTo 48 s
  | .alertLineReleased s => inOneTo 48 s
  | .reRaiseTimerExpiry s => inOneTo 48 s
  | .switchSettleExpiry => true
  | .darkShotComplete xs => samplesFit xs
  | .litShotComplete xs => samplesFit xs
  | .interleavedDarkShotCheck xs => samplesFit xs
  | .reductionComplete => true
  | .comparisonComplete => true
  | .baselineWriteComplete => true
  | .resumeTimerExpiry => true
  | .laserFaultReport _ => true
  | .laserFaultConditionClears => true
  | .idleGap => true
  | .arbitrationLost => true
  | .frameTransmitted => true
  | .readbackError => true
  | .frameReceived _ => true
  | .presenceDelivered => true
  | .claimDelivered => true
  | .holdDelivered => true
  | .releaseDelivered => true
  | .findingDelivered => true
  | .presenceTimerExpiry => true
  | .learningTimerExpiry => true
  | .ageTimerExpiry i => inOneTo 31 i
  | .holdOffExpiry g => inOneTo 255 g
  | .holdRepetition g => inOneTo 255 g
  | .heldExpiry g => inOneTo 255 g
  | .roundTimerExpiry g => inOneTo 255 g
  | .holdDownExpiry g => inOneTo 255 g
  | .frameStartHeard => true
  | .arbitrationWon => true

end Sys2Proof
end

