-- ==== Sys2Proof/Decode.lean ====
section
/-! DEFINITION. The byte and bit layouts of chapter 12: host commands (12.2), rack-line frames with their stuffing and
check sequence (12.1, R203), and the host's decodeTableWord. -/

namespace Sys2Proof

/-! ## Numbers in bytes and bits -/

/-- v in n bytes, most significant byte first (chapter 12). -/
def beBytes : Nat → Nat → List Byte
  | 0, _ => []
  | n + 1, v => BitVec.ofNat 8 (v / 256 ^ n) :: beBytes n v

/-- The number that bytes spell, most significant byte first. -/
def beNat (bs : List Byte) : Nat := bs.foldl (fun a b => a * 256 + b.toNat) 0

/-- v in n bits, most significant bit first (12.1). -/
def bitsOf : Nat → Nat → List Bool
  | 0, _ => []
  | n + 1, v => v.testBit n :: bitsOf n v

/-- The number that bits spell, most significant bit first. -/
def natOfBits (bs : List Bool) : Nat := bs.foldl (fun a b => a * 2 + b.toNat) 0

/-- Bytes as bits, each most significant bit first (12.1). -/
def bytesToBits (bs : List Byte) : List Bool := bs.flatMap fun b => bitsOf 8 b.toNat

/-- Fields of given sizes, laid one after the next. -/
def joinFields : List (Nat × Nat) → List Byte
  | [] => []
  | (n, v) :: fs => beBytes n v ++ joinFields fs

/-- The fields of given sizes that make up the bytes exactly; none for any other length (R204). -/
def splitFields : List Nat → List Byte → Option (List Nat)
  | [], bs => if bs.isEmpty then some [] else none
  | n :: ns, bs =>
    if bs.length < n then none
    else (splitFields ns (bs.drop n)).map (beNat (bs.take n) :: ·)

/-! ## Host commands (12.2) -/

/-- Field sizes of a span record after the span number (code 0x10). -/
def spanSizes : List Nat := [1, 1, 2, 1, 1, 3, 1, 2, 2, 1, 1, 1, 1]

/-- Field sizes of a station-wide block (code 0x11). -/
def stationSizes : List Nat := [4, 1, 1, 2, 2, 2, 1, 2, 1, 2, 2, 1, 2, 2, 2, 2, 2, 1, 1, 2]

/-- Field sizes of READ-TRACE (code 0x18). -/
def traceSizes : List Nat := [1, 1, 2, 2, 1, 2]

/-- A byte that stands for yes or set when it is not 0 (R204). -/
def flagOf (v : Nat) : Bool := decide (v ≠ 0)

/-- CONFIG-WRITE of a span, from its fields. -/
def parseSpan : List Nat → Option Instr
  | [s, en, l, lg, sg, off, fp, a, tau, k, n, am, al] =>
    some (.configWriteSpan s ⟨flagOf en, l, lg, sg, off, fp, a, tau, k, n, am, al⟩)
  | _ => none

/-- CONFIG-WRITE of the station, from its fields. -/
def parseStation : List Nat → Option Instr
  | [rk, m, p, ng, qs, qe, df, ho, cl, rt, hd, rl, dt, rth, fl, fo, di, rb, dz, ai] =>
    some (.configWriteStation
      ⟨rk, m, p, ng, qs, qe, df, ho, cl, rt, hd, rl, dt, rth, fl, fo, di, BitVec.ofNat 8 rb, flagOf dz, ai⟩)
  | _ => none

/-- READ-TRACE, from its fields. -/
def parseTrace : List Nat → Option Instr
  | [so, s, f, c, b, g] => some (.readTrace ⟨so, s, f, c, b, g⟩)
  | _ => none

/-- A command with one parameter of n bytes. -/
def parseOne (n : Nat) (mk : Nat → Instr) (ps : List Byte) : Option Instr :=
  match splitFields [n] ps with
  | some [v] => some (mk v)
  | _ => none

/-- A command without parameters. -/
def parseNone (i : Instr) (ps : List Byte) : Option Instr := if ps.isEmpty then some i else none

/-- SWEEP, from its parameters. -/
def parseSweep (ps : List Byte) : Option Instr :=
  match splitFields [1, 1, 1] ps with
  | some [s, k, l] => some (.sweep s k l)
  | _ => none

/-- FP-DATA: 3 + 2c bytes, where c is the count it carries (R204). -/
def parseData (ps : List Byte) : Option Instr :=
  if ps.length < 3 then none
  else
    let c := beNat ((ps.drop 1).take 2)
    (splitFields (List.replicate c 2) (ps.drop 3)).map (.fpData (beNat (ps.take 1)))

/-- The host command that bytes spell, code first; none for an unknown code or a wrong parameter length (R189,
R204). -/
def parseCommand : List Byte → Option Instr
  | [] => none
  | code :: ps =>
    match code.toNat with
    | 0x10 => (splitFields spanSizes ps).bind parseSpan
    | 0x11 => (splitFields stationSizes ps).bind parseStation
    | 0x12 => parseOne 4 .start ps
    | 0x13 => parseNone .run ps
    | 0x14 => parseNone .halt ps
    | 0x15 => parseNone .readStatus ps
    | 0x16 => parseNone .readNotice ps
    | 0x17 => parseOne 1 .readResult ps
    | 0x18 => (splitFields traceSizes ps).bind parseTrace
    | 0x20 => parseSweep ps
    | 0x21 => parseOne 1 .spanOff ps
    | 0x22 => parseOne 1 .spanOn ps
    | 0x23 => parseNone .clearFault ps
    | 0x30 => parseOne 1 .fpBegin ps
    | 0x31 => parseData ps
    | 0x32 => parseOne 1 .fpEnd ps
    | _ => none

/-- The fields of a span record, in the order of 12.2. -/
def spanFields (s : Nat) (r : SpanRecord) : List Nat :=
  [s, r.enabled.toNat, r.len, r.lightGroup, r.sheathGroup, r.offset, r.firstPage, r.anchor, r.tau, r.shots,
   r.cycle, r.alertMode, r.alertLevel]

/-- The fields of a station-wide block, in the order of 12.2. -/
def stationFields (b : StationBlock) : List Nat :=
  [b.refKHz, b.mulM, b.divP, b.groupIndex, b.quietStart, b.quietEnd, b.dayFloor, b.holdOff, b.claimLifetime,
   b.roundTimeout, b.holdDown, b.resumeLimit, b.tolerance, b.reflection, b.floorLevel, b.foreignLight,
   b.disturbance, b.retention.toNat, b.dozeEnable.toNat, b.alertInterval]

/-- The bytes of a host command, code first (12.2); none for a row that is no host command. -/
def encodeCommand : Instr → Option (List Byte)
  | .configWriteSpan s r => some (0x10#8 :: joinFields (spanSizes.zip (spanFields s r)))
  | .configWriteStation b => some (0x11#8 :: joinFields (stationSizes.zip (stationFields b)))
  | .start t => some (0x12#8 :: beBytes 4 t)
  | .run => some [0x13#8]
  | .halt => some [0x14#8]
  | .readStatus => some [0x15#8]
  | .readNotice => some [0x16#8]
  | .readResult s => some (0x17#8 :: beBytes 1 s)
  | .readTrace q =>
    some (0x18#8 :: joinFields (traceSizes.zip [q.source, q.span, q.first, q.count, q.burst, q.group]))
  | .sweep s k l => some (0x20#8 :: joinFields [(1, s), (1, k), (1, l)])
  | .spanOff s => some (0x21#8 :: beBytes 1 s)
  | .spanOn s => some (0x22#8 :: beBytes 1 s)
  | .clearFault => some [0x23#8]
  | .fpBegin s => some (0x30#8 :: beBytes 1 s)
  | .fpData s ls => some (0x31#8 :: joinFields ((1, s) :: (2, ls.length) :: ls.map (2, ·)))
  | .fpEnd s => some (0x32#8 :: beBytes 1 s)
  | _ => none

/-! ## Rack-line frames (12.1, R203) -/

/-- One data bit into the check register (R203). -/
def crcStep (r : BitVec 16) (b : Bool) : BitVec 16 :=
  if r.msb ^^ b then (r <<< 1) ^^^ 0x1021#16 else r <<< 1

/-- The check register after bits, started with every bit 1 (R203). -/
def crc (bs : List Bool) : BitVec 16 := bs.foldl crcStep 0xFFFF#16

/-- Stuffing (R203): after five bits of one level in a row, one bit of the other level, which is the first of a new
run. `last` and `run` are the level and the length of the run before these bits. No stuff bit follows the last bit
of the check sequence (log 15). -/
def stuff (last : Bool) (run : Nat) : List Bool → List Bool
  | [] => []
  | b :: bs =>
    let run' := if b = last then run + 1 else 1
    if run' = 5 ∧ bs ≠ [] then b :: (!b) :: stuff (!b) 1 bs else b :: stuff b run' bs

/-- The data bits of a received run of bits, up to its end or to six bits of one level in a row (R203). -/
def unstuff (last : Bool) (run : Nat) : List Bool → List Bool
  | [] => []
  | b :: bs =>
    if run = 5 then (if b = last then [] else unstuff b 1 bs)
    else b :: unstuff b (if b = last then run + 1 else 1) bs

/-- Code of a presence state (12.1). -/
def PresenceState.code : PresenceState → Nat
  | .learning => 0
  | .running => 1
  | .dozing => 2
  | .halted => 3

/-- Presence state of bits 1..0 (12.1). -/
def PresenceState.ofCode (v : Nat) : PresenceState :=
  match v % 4 with
  | 0 => .learning
  | 1 => .running
  | 2 => .dozing
  | _ => .halted

/-- The kind byte of a frame (12.1). -/
def FrameBody.kindCode : FrameBody → Nat
  | .presence .. => 1
  | .claim .. => 2
  | .hold .. => 3
  | .release .. => 4
  | .finding .. => 5

/-- The body bytes of a frame (12.1). -/
def FrameBody.bytes : FrameBody → List Byte
  | .presence p gs =>
    beBytes 1 p.code ++ beBytes 1 gs.length ++ gs.flatMap (beBytes 1) ++ List.replicate (8 - gs.length) 0#8
  | .claim g l => beBytes 1 g ++ beBytes 1 l
  | .hold g l => beBytes 1 g ++ beBytes 1 l
  | .release g l => beBytes 1 g ++ beBytes 1 l
  | .finding g k d => beBytes 1 g ++ beBytes 1 k ++ beBytes 3 d

/-- The bits a check sequence covers: arbitration field, kind, body length, body (R132). -/
def Frame.coveredBits (f : Frame) : List Bool :=
  bitsOf 2 (3 - f.urgency) ++ bitsOf 5 f.sender ++ bitsOf 8 f.body.kindCode ++
    bitsOf 8 f.body.bytes.length ++ bytesToBits f.body.bytes

/-- The frame's bits before stuffing: what the check sequence covers, then the check sequence (R203). -/
def Frame.dataBits (f : Frame) : List Bool := f.coveredBits ++ bitsOf 16 (crc f.coveredBits).toNat

/-- The bits the sender puts on the line; true is recessive (12.1, R203). -/
def Frame.lineBits (f : Frame) : List Bool := stuff false 0 f.dataBits

/-- The body length a kind requires; none for a kind that is none of the five (R204). -/
def bodyLength (kind : Nat) : Option Nat :=
  match kind with
  | 1 => some 10
  | 2 | 3 | 4 => some 2
  | 5 => some 5
  | _ => none

/-- The body of a frame from its kind and bytes, with check 5 of R141 for a PRESENCE. -/
def parseBody (kind : Nat) (bs : List Nat) : Option FrameBody :=
  match kind, bs with
  | 1, st :: n :: gs =>
    if n ≤ 8 ∧ (gs.take n).all (· ≠ 0) ∧ (gs.take n).Nodup then
      some (.presence (PresenceState.ofCode st) (gs.take n))
    else none
  | 2, [g, l] => some (.claim g (l % 4))
  | 3, [g, l] => some (.hold g (l % 4))
  | 4, [g, l] => some (.release g (l % 4))
  | 5, [g, k, a, b, c] => some (.finding g k ((a * 256 + b) * 256 + c))
  | _, _ => none

/-- Bits taken eight at a time as numbers. -/
def bitsToNats : Nat → List Bool → List Nat
  | 0, _ => []
  | n + 1, bs => natOfBits (bs.take 8) :: bitsToNats n (bs.drop 8)

/-- Reception of a run of bits: the frame when every check of R141 passes, in its order, and none otherwise. Bits
after the check sequence are not read (R203). -/
def parseFrame (bits : List Bool) : Option Frame :=
  let d := unstuff false 0 bits
  if d.length < 23 then none
  else
    let kind := natOfBits ((d.drop 7).take 8)
    let len := natOfBits ((d.drop 15).take 8)
    let sender := natOfBits ((d.drop 2).take 5)
    if d.length < 39 + 8 * len then none
    else if crc (d.take (39 + 8 * len)) ≠ 0#16 then none
    else
      match bodyLength kind with
      | none => none
      | some n =>
        if len ≠ n then none
        else if sender = 0 then none
        else (parseBody kind (bitsToNats len (d.drop 23))).map fun b =>
          ⟨3 - natOfBits (d.take 2), sender, b⟩

/-! ## The host's table words -/

/-- The command a table word spells: no row of spec/opcode_table.json gives bits, so none (log 27). -/
def decodeTableWord (_nbits _w : Nat) : Option Instr := none

end Sys2Proof
end

