-- ==== Sys2Proof/Machine/Table.lean ====
section
/-! DEFINITION. Tables keyed by number (span, page, group, station id, cell address) and sets of numbers, each in ONE
canonical form: keys strictly rising. A key that is not listed has the value the table's user gives for "absent". -/

namespace Sys2Proof

/-- A table: pairs of key and value, keys strictly rising. -/
abbrev Table (α : Type) := List (Nat × α)

/-- The keys, in order. -/
def Table.keys {α : Type} (t : Table α) : List Nat := t.map (·.1)

/-- The canonical form: keys strictly rising. -/
abbrev Table.wf {α : Type} (t : Table α) : Prop := t.keys.Pairwise (· < ·)

/-- The value at key k, if listed. -/
def Table.find {α : Type} : Table α → Nat → Option α
  | [], _ => none
  | (k', v) :: t, k => if k = k' then some v else Table.find t k

/-- k is listed. -/
def Table.has {α : Type} (t : Table α) (k : Nat) : Bool := (t.find k).isSome

/-- The table with v at key k. -/
def Table.put {α : Type} : Table α → Nat → α → Table α
  | [], k, v => [(k, v)]
  | (k', v') :: t, k, v =>
    if k < k' then (k, v) :: (k', v') :: t
    else if k = k' then (k, v) :: t
    else (k', v') :: Table.put t k v

/-- The table without key k. -/
def Table.erase {α : Type} (t : Table α) (k : Nat) : Table α := t.filter fun e => e.1 ≠ k

/-- The table with f applied at key k, if listed. -/
def Table.adjust {α : Type} (t : Table α) (k : Nat) (f : α → α) : Table α :=
  t.map fun e => if e.1 = k then (e.1, f e.2) else e

/-- Values numbered from a first key. -/
def Table.number {α : Type} : Nat → List α → Table α
  | _, [] => []
  | k, v :: vs => (k, v) :: Table.number (k + 1) vs

/-- The table with vs at the keys k, k + 1, … -/
def Table.putRun {α : Type} (t : Table α) (k : Nat) (vs : List α) : Table α :=
  t.filter (fun e => e.1 < k) ++ Table.number k vs ++ t.filter (fun e => k + vs.length ≤ e.1)

/-- A set of numbers with n added, in ascending order without duplicates. -/
def insertAsc (n : Nat) : List Nat → List Nat
  | [] => [n]
  | m :: l => if n < m then n :: m :: l else if n = m then m :: l else m :: insertAsc n l

/-- Numbers as a set: ascending, without duplicates (conventions, "Sets and lists"). -/
def ascSet (l : List Nat) : List Nat := l.foldr insertAsc []

/-- A set of numbers with n taken out. -/
def removeFrom (n : Nat) (l : List Nat) : List Nat := l.filter (· ≠ n)

end Sys2Proof
end

