-- ==== Sys2Proof/Machine/State.lean ====
section
/-! DEFINITION. Everything the manual gives the station to hold, block by block (00_scope.md, "Blocks"), the machine
after reset, and the reasons a step can stop. Plain data. Times on the time base are milliseconds since START. -/

namespace Sys2Proof.Machine

/-! ## Control port -/

/-- The station state (R193). -/
inductive StationState where
  | unconfigured
  | learning
  | running
  | halted
  | isolated
deriving DecidableEq, Repr

/-- The five reply kinds (R189). -/
inductive ReplyKind where
  | accepted
  | refusedState
  | refusedParam
  | refusedBusy
  | refusedEmpty
deriving DecidableEq, Repr

/-- A reply: its kind and the bytes of its body (12.2). -/
structure Reply where
  kind : ReplyKind
  body : List Byte
deriving DecidableEq, Repr

/-- The control port: command in progress (R189), reply to the latest command (R189), station state (R193) and the
configuration staging area (R190). -/
structure Port where
  inProgress    : Option (List Byte)
  reply         : Option Reply
  station       : StationState
  stagedSpans   : Table SpanRecord
  stagedStation : StationBlock
deriving DecidableEq, Repr

/-- The locked configuration (R1, R192) and the two own group lists (R4). -/
structure Locked where
  spans        : Table SpanRecord
  block        : StationBlock
  lightGroups  : List Nat
  sheathGroups : List Nat
deriving DecidableEq, Repr

/-! ## Clock and time unit -/

/-- The clock unit's states (R24). -/
inductive ClockState where
  | stopped
  | locking
  | awake
  | dozing
deriving DecidableEq, Repr

/-- The window phase (R29). -/
inductive Phase where
  | outside
  | inside
deriving DecidableEq, Repr

/-- The clock and time unit (chapter 2). `lockExpiry` and `dozeExpiry` are the 2 ms of R24 and the doze delay timer
of R34, none when not running. -/
structure Clock where
  state      : ClockState
  /-- milliseconds of the time base since START (R23) -/
  now        : Nat
  /-- time of day (R28) -/
  tod        : Nat
  /-- bin spacing in micrometres (R25) -/
  spacing    : Nat
  phase      : Phase
  mask       : Nat
  countdowns : Table Nat
  lockExpiry : Option Nat
  dozeExpiry : Option Nat
deriving DecidableEq, Repr

/-! ## Alert inputs -/

/-- The alert inputs: the lines that are asserted, the EDGE latches that are set (R44), the LEVEL re-raise timers that
run, with their expiry (R45). -/
structure Alerts where
  asserted : List Nat
  latches  : List Nat
  timers   : Table Nat
deriving DecidableEq, Repr

/-! ## Scheduler and sweep engine -/

/-- The request kinds (R40). -/
inductive ReqKind where
  | routine
  | host
  | alert
  | confirm
  | baseline
deriving DecidableEq, Repr

/-- A request record of the pending table (R40). -/
structure Request where
  kind     : ReqKind
  level    : Nat
  windowed : Bool
  target   : Option Nat
  round    : Option Nat
  /-- raised time, a time of day -/
  raised   : Nat
  selected : Bool
deriving DecidableEq, Repr

/-- The engine states (R65). -/
inductive EngineState where
  | off
  | idle
  | preparing
  | dark
  | quick
  | full
  | reducing
  | storing
deriving DecidableEq, Repr

/-- The running sweep context (R66). The last three fields are the model's own (log 20, log 26). -/
structure Ctx where
  span      : Nat
  kind      : ReqKind
  level     : Nat
  /-- base and length -/
  window    : Option (Nat × Nat)
  target    : Option Nat
  round     : Option Nat
  phase     : EngineState
  litDone   : Nat
  darkLevel : Option Nat
  disturbed : Nat
  quickOnly : Bool
  /-- accumulator slot, 0 or 1 -/
  accSlot   : Nat
  resumed   : Bool
  /-- an interleaved dark shot comes before the next lit shot (R77) -/
  interleavedDue : Bool
  /-- the span's fingerprint was PRESENT at taking (R67, R80) -/
  refPresent     : Bool
  /-- the end of this sweep answers the span's EDGE latch (R44) -/
  answersLatch   : Bool
deriving DecidableEq, Repr

/-- The current selection: a slot of the pending table, or the save slot, not yet taken (R55, R70). -/
inductive Selection where
  | slot (span : Nat)
  | save
deriving DecidableEq, Repr

/-- The request scheduler (chapter 3). `resumeExpiry` is the running resume timer, `resumeLeft` what remains of it
while it is stopped for a resume (R60). -/
structure Sched where
  slots        : Table Request
  off          : List Nat
  save         : Option Ctx
  resumeExpiry : Option Nat
  resumeLeft   : Nat
  selection    : Option Selection
deriving DecidableEq, Repr

/-- The sweep engine (chapter 4): LASER_FAULT with its code and the driver's fault condition (R89); the initial dark
shots taken so far and their total (R98). -/
structure Engine where
  state      : EngineState
  ctx        : Option Ctx
  laserFault : Option LaserCode
  condition  : Bool
  darkShots  : Nat
  darkTotal  : Nat
deriving DecidableEq, Repr

/-- The optical switch (R68). -/
inductive Switch where
  | unpositioned
  | travelling (port expiry : Nat)
  | settled (port : Nat)
deriving DecidableEq, Repr

/-! ## Accumulator memory and trace reducer -/

/-- The owner of an accumulator slot (R94). -/
inductive AccOwner where
  | none
  | running
  | suspended
deriving DecidableEq, Repr

/-- An accumulator slot (R94): sums and marks of the acquired bins first .. first + count − 1, in bin order. -/
structure AccSlot where
  owner : AccOwner
  first : Nat
  count : Nat
  lit   : Nat
  sums  : List Nat
  marks : List Bool
deriving DecidableEq, Repr

/-- The accumulator memory: two slots, and the number of the one with the active role (R94). -/
structure Acc where
  slot0  : AccSlot
  slot1  : AccSlot
  active : Nat
deriving DecidableEq, Repr

/-- The state of the result trace (R99). -/
inductive TraceState where
  | empty
  | filling
  | valid
deriving DecidableEq, Repr

/-- The descriptor of the result trace (R99). -/
structure TraceDesc where
  span      : Nat
  len       : Nat
  n         : Nat
  darkLevel : Nat
  window    : Option (Nat × Nat)
  saturated : Nat
deriving DecidableEq, Repr

/-- The result trace (R99): one level and saturation mark for each bin. -/
structure ResultTrace where
  state   : TraceState
  desc    : Option TraceDesc
  entries : List (Nat × Bool)
deriving DecidableEq, Repr

/-! ## Comparator -/

/-- The outcomes of a sweep (R126). -/
inductive SweepOutcome where
  | clean
  | changed
  | broken
  | noReference
  | baselined
  | foreignLight
  | disturbed
  | overload
  | fault
  | abandoned
  | aborted
deriving DecidableEq, Repr

/-- Event kinds: BREAK, BEND, REFLECTION, GAIN (R121). -/
inductive EventKind where
  | brk
  | bend
  | reflection
  | gain
deriving DecidableEq, Repr

/-- An event of a result (R121). -/
structure Event where
  kind     : EventKind
  bin      : Nat
  distance : Nat
  step     : Option Int
  peak     : Option Nat
deriving DecidableEq, Repr

/-- What a comparison writes: the comparison part of a result record (R127) and, while it is in progress, the working
result (R109). -/
structure Comparison where
  /-- completion time, a time of day -/
  time       : Nat
  offset     : Int
  unanchored : Bool
  more       : Bool
  windowed   : Bool
  quickOnly  : Bool
  outcome    : SweepOutcome
  events     : List Event
deriving DecidableEq, Repr

/-- The latest part of a result record (R85, R126). -/
structure Latest where
  outcome   : SweepOutcome
  kind      : ReqKind
  level     : Nat
  endTime   : Nat
  lit       : Nat
  darkLevel : Option Nat
deriving DecidableEq, Repr

/-- A span's result record (R125). -/
structure ResultRecord where
  latest     : Option Latest
  comparison : Option Comparison
  missed     : Nat
  held       : Option Int
deriving DecidableEq, Repr

/-- The comparator: result records of the enabled spans, and the working result (R109). -/
structure Comparator where
  results : Table ResultRecord
  working : Option Comparison
deriving DecidableEq, Repr

/-! ## Fingerprint store -/

/-- A fingerprint state (R7). -/
inductive FpState where
  | absent
  | writing
  | present
deriving DecidableEq, Repr

/-- An entry of the page directory (R6). -/
structure DirEntry where
  owner   : Nat
  ordinal : Nat
  len     : Nat
deriving DecidableEq, Repr

/-- The fingerprint memory: levels by cell address (4096 × page + offset), in the canonical form of `Table`. A cell
that is not listed is undefined (R5; log 7). -/
abbrev Memory := Table Nat

/-- The host load's context (R14). -/
structure Load where
  span  : Nat
  count : Nat
deriving DecidableEq, Repr

/-- The fingerprint store (chapter 1). A span not listed in `fp` is ABSENT, a page not listed in `dir` is empty. -/
structure Store where
  mem  : Memory
  dir  : Table DirEntry
  fp   : Table FpState
  load : Option Load
deriving DecidableEq, Repr

/-! ## Rack line and peers -/

/-- The line access state (R133). -/
inductive LineState where
  | passive
  | busy
  | gap
  | idle
  | arbitrating
  | sending
deriving DecidableEq, Repr

/-- A frame of the transmit queue: urgency, age, contents (R136). Kind and group are in the body, the owner follows
from the kind (R132). -/
structure TxFrame where
  age     : Nat
  urgency : Nat
  body    : FrameBody
deriving DecidableEq, Repr

/-- A frame of the inbox with its time of arrival, as a time of day and on the time base (R141, R142). -/
structure RxFrame where
  sender     : Nat
  body       : FrameBody
  arrivalTod : Nat
  arrival    : Nat
deriving DecidableEq, Repr

/-- The rack line unit (chapter 7). `driving` holds the bits of the frame in the attempt as the station puts them on
the line (R134, R203). -/
structure Line where
  id             : Nat
  state          : LineState
  queue          : List TxFrame
  attempt        : Option TxFrame
  attemptDropped : Bool
  driving        : List Bool
  nextAge        : Nat
  inbox          : List RxFrame
  overrun        : Bool
  dupId          : Bool
deriving DecidableEq, Repr

/-- An entry of the peer table (R148). -/
structure Peer where
  lastHeard : Nat
  state     : PresenceState
  groups    : List Nat
  ageExpiry : Nat
deriving DecidableEq, Repr

/-- The peer unit: the peer table, the presence timer (R147) and the learning timer (R153). -/
structure PeerUnit where
  table    : Table Peer
  presence : Option Nat
  learning : Option Nat
deriving DecidableEq, Repr

/-! ## Claims -/

/-- The state of a claim entry with the fields it has there (R155). In CLAIMING, hold-off none is "queued". -/
inductive ClaimState where
  | free
  | held (holder level expiry : Nat)
  | claiming (level : Nat) (holdOff : Option Nat)
  | opened (level nextHold : Nat)
deriving DecidableEq, Repr

/-- A stale CLAIM mark (R155, R168). -/
inductive StaleMark where
  | withdrawn
  | givenUp
deriving DecidableEq, Repr

/-- A claim entry (R155): its state, and the stale CLAIM mark with the level of the stale frame. -/
structure ClaimEntry where
  state : ClaimState
  stale : Option (StaleMark × Nat)
deriving DecidableEq, Repr

/-! ## Corroboration -/

/-- The kinds a FINDING reports (R175). -/
inductive ReportKind where
  | brk
  | bend
  | clear
  | outOfRange
  | outOfService
deriving DecidableEq, Repr

/-- A report: its kind and, for BREAK and BEND, its sheath distance (R173, R175). -/
structure Report where
  kind : ReportKind
  dist : Option Nat
deriving DecidableEq, Repr

/-- The best own finding of a round (R173). -/
structure Best where
  kind : ReportKind
  dist : Nat
  span : Nat
deriving DecidableEq, Repr

/-- The fields of an OPEN corroboration record (R173). `allOut` is the model's own: every enabled span of the group
was out of range at opening (R181; log 26). -/
structure OpenRound where
  openKind    : ReportKind
  openDist    : Nat
  /-- opened time, a time of day -/
  openedAt    : Nat
  joined      : Table Report
  /-- span to the target bin raised for it -/
  outstanding : Table Nat
  best        : Option Best
  seen        : Bool
  reported    : Bool
  /-- expiry of the round timer -/
  expiry      : Nat
  allOut      : Bool
deriving DecidableEq, Repr

/-- The fields of a SETTLED corroboration record (R173). -/
structure SettledRound where
  openKind : ReportKind
  openDist : Nat
  openedAt : Nat
  joined   : Table Report
  /-- hold-down expiry -/
  expiry   : Nat
deriving DecidableEq, Repr

/-- A corroboration record (R173). -/
inductive CorrRecord where
  | idle
  | opened (r : OpenRound)
  | settled (r : SettledRound)
deriving DecidableEq, Repr

/-! ## Notices -/

/-- Why a fingerprint was lost (R21). -/
inductive LostCause where
  | retention
  | writeCut
  | loadCancelled
deriving DecidableEq, Repr

/-- Why a baseline was cancelled (R49, R51). -/
inductive CancelCause where
  | replacedByConfirm
  | replacedByAlert
  | spanOff
deriving DecidableEq, Repr

/-- How a duplicate id was detected (R144). -/
inductive DupCause where
  | received
  | readback
deriving DecidableEq, Repr

/-- A change of the peer table (R152). -/
inductive PeerChange where
  | joined
  | agedOut
  | stateChanged
  | groupsChanged
deriving DecidableEq, Repr

/-- What a notice reports: kind, subject and code (10.5), and the further fields of a VERDICT (R186). -/
inductive NoticeBody where
  | sweepDone (span : Nat) (outcome : SweepOutcome)
  | verdict (group : Nat) (sheath : Bool) (f g : Nat) (timedOut : Bool) (joined members : List Nat)
  | fpLost (span : Nat) (cause : LostCause)
  | baselineCancelled (span : Nat) (cause : CancelCause)
  | windowEnd (count : Nat)
  | laserFault (subject : Nat) (code : LaserCode)
  | dupId (id : Nat) (cause : DupCause)
  | peerChange (id : Nat) (change : PeerChange)
deriving DecidableEq, Repr

/-- A notice with the time of day of its creation (R197). -/
structure Notice where
  body : NoticeBody
  time : Nat
deriving DecidableEq, Repr

/-- The notice FIFO, its overflow flag (R197) and the attention line (R198). -/
structure Notices where
  fifo      : List Notice
  overflow  : Bool
  attention : Bool
deriving DecidableEq, Repr

/-! ## The station -/

/-- The whole state of the station. `pending` is the queue of commands that wait, oldest first; `reference` is what the
reference input does in the milliseconds to come, as the outside gives it: true for a millisecond in which it runs,
false for one in which it has stopped, and it runs after the last one listed (R23; log 28); `free` is the model's counter
for the free values of Config. -/
structure State where
  pending : List Instr
  reference : List Bool
  port    : Port
  cfg     : Locked
  clock   : Clock
  alerts  : Alerts
  sched   : Sched
  engine  : Engine
  switch  : Switch
  acc     : Acc
  trace   : ResultTrace
  comp    : Comparator
  store   : Store
  line    : Line
  peers   : PeerUnit
  claims  : Table ClaimEntry
  corr    : Table CorrRecord
  notices : Notices
  free    : Nat
deriving DecidableEq, Repr

/-- The staged station-wide block after reset (table of R190). -/
def defaultBlock : StationBlock :=
  { refKHz := 0, mulM := 0, divP := 0, groupIndex := 0, quietStart := 0, quietEnd := 0, dayFloor := 3,
    holdOff := 50, claimLifetime := 10, roundTimeout := 60, holdDown := 120, resumeLimit := 30,
    tolerance := 500, reflection := 300, floorLevel := 240, foreignLight := 200, disturbance := 100,
    retention := 0, dozeEnable := false, alertInterval := 60 }

/-- An accumulator slot after reset (R94; acquired bins: log 11). -/
def emptySlot : AccSlot := ⟨.none, 0, 0, 0, [], []⟩

/-- The accumulator after reset and after each LOCKING (R94). -/
def emptyAcc : Acc := ⟨emptySlot, emptySlot, 0⟩

/-- The result trace in EMPTY (R99). -/
def emptyTrace : ResultTrace := ⟨.empty, none, []⟩

/-- The station right after a cold reset (the reset tables of chapters 1 to 10). The straps and the alert lines are
inputs: log 5, log 6. -/
def State.reset : State :=
  { pending := []
    reference := []
    port := ⟨none, none, .unconfigured, [], defaultBlock⟩
    cfg := ⟨[], defaultBlock, [], []⟩
    clock := ⟨.stopped, 0, 0, 0, .outside, 3, [], none, none⟩
    alerts := ⟨[], [], []⟩
    sched := ⟨[], [], none, none, 0, none⟩
    engine := ⟨.off, none, none, false, 0, 0⟩
    switch := .unpositioned
    acc := emptyAcc
    trace := emptyTrace
    comp := ⟨[], none⟩
    store := ⟨[], [], [], none⟩
    line := ⟨0, .passive, [], none, false, [], 0, [], false, false⟩
    peers := ⟨[], none, none⟩
    claims := []
    corr := []
    notices := ⟨[], false, false⟩
    free := 0 }

/-! ## How a step can stop -/

/-- Why a step faults: no command of this block faults, so there is no reason. -/
inductive Fault where
deriving DecidableEq, Repr

/-- Why a step is refused. -/
inductive Refusal where
  /-- raised by `exec` alone, for a command that has no meaning yet; safe (the model stops where the station goes on) -/
  | notModelled (mnemonic : String)
deriving DecidableEq, Repr

end Sys2Proof.Machine
end

