-- ==== Sys2Proof/Machine/Operands.lean ====
section
/-! DEFINITION. What the operands and the fields of a record stand for: named codes (R204), pages and cells (R2), bin
spacing and conversions (R25 to R27), comparison range and confirm window (R110, R180). -/

namespace Sys2Proof

/-- The alert modes (R1). -/
inductive AlertMode where
  | off
  | edge
  | level
deriving DecidableEq, Repr

/-- The alert mode of a code; none for a code that names no mode (12.2, R204). -/
def alertModeOf (c : Nat) : Option AlertMode :=
  match c with
  | 0 => some .off
  | 1 => some .edge
  | 2 => some .level
  | _ => none

/-- v lies in lo..hi. -/
def within (lo hi v : Nat) : Bool := decide (lo ≤ v ∧ v ≤ hi)

/-! ## Pages (R2, R5) -/

/-- Pages a fingerprint of L levels takes: ceil(L/4096) (R2). -/
def pageCount (len : Nat) : Nat := (len + (Config.pageLevels - 1)) / Config.pageLevels

/-- The pages of a record's page range, by ordinal (R2). -/
def SpanRecord.pages (r : SpanRecord) : List Nat := (List.range (pageCount r.len)).map (r.firstPage + ·)

/-- The cell that holds bin p of a record's fingerprint: page first + floor(p/4096), offset p mod 4096 (R2). -/
def SpanRecord.cell (r : SpanRecord) (p : Nat) : Nat :=
  Config.pageLevels * (r.firstPage + p / Config.pageLevels) + p % Config.pageLevels

/-- The retention bank of a page (R5). -/
def bankOf (page : Nat) : Nat := page / Config.bankPages

/-- The bank's flag in the retention bank set is set (R5). -/
def StationBlock.retains (b : StationBlock) (bank : Nat) : Bool := b.retention.getLsbD bank

/-- Every page of the record's range lies in a retained bank (R14, R18, R19). -/
def StationBlock.retainsSpan (b : StationBlock) (r : SpanRecord) : Bool :=
  r.pages.all fun p => b.retains (bankOf p)

/-! ## Bin spacing and distance (R25 to R27) -/

/-- a / b rounded half up. -/
def roundHalfUp (a b : Nat) : Nat := (2 * a + b) / (2 * b)

/-- The bin spacing in micrometres (R25). -/
def binSpacing (b : StationBlock) : Nat :=
  roundHalfUp (2997924580000000 * b.divP) (2 * b.groupIndex * b.refKHz * b.mulM)

/-- The distance of bin i in decimetres (R26). -/
def distanceOf (spacing i : Nat) : Nat := roundHalfUp (i * spacing) 100000

/-- The bin of a distance in decimetres (R27). -/
def binOf (spacing d : Nat) : Nat := roundHalfUp (d * 100000) spacing

/-- The confirm target of a span for a sheath distance (R180). -/
def confirmTarget (spacing : Nat) (r : SpanRecord) (d : Nat) : Nat := binOf spacing (d + r.offset)

/-- The sheath distance of an event: its distance minus the sheath offset, raised to 0 (R130). -/
def sheathDistance (r : SpanRecord) (distance : Nat) : Nat := distance - r.offset

/-! ## Ranges and windows -/

/-- The comparison range C..E, narrowed to a window when there is one (R110). -/
def compRange (r : SpanRecord) (window : Option (Nat × Nat)) : Nat × Nat :=
  match window with
  | none => (r.anchor + 64, r.len - 17)
  | some (base, count) => (max (r.anchor + 64) base, min (r.len - 17) (base + count - 1))

/-- The target lies in the span's unwindowed comparison range (R110). -/
def inCompRange (r : SpanRecord) (t : Nat) : Bool := decide (r.anchor + 64 ≤ t ∧ t + 17 ≤ r.len)

/-- The window of a windowed CONFIRM at target t: base and length (R180). -/
def confirmWindow (len t : Nat) : Nat × Nat :=
  if len ≤ Config.windowBins then (0, len)
  else (min (t - t % 256 - 512) (len - Config.windowBins), Config.windowBins)

namespace Machine

/-- The rank of a request kind in a merge: CONFIRM, ALERT, HOST, ROUTINE, with CONFIRM highest (R48). -/
def ReqKind.rank : ReqKind → Nat
  | .routine => 0
  | .host => 1
  | .alert => 2
  | .confirm => 3
  | .baseline => 4

/-- The kind a SWEEP's code names: 2 HOST, 5 BASELINE; none for every other code (R43, 12.2). -/
def sweepKindOf (c : Nat) : Option ReqKind :=
  match c with
  | 2 => some .host
  | 5 => some .baseline
  | _ => none

/-- The code of a reported kind (12.1). -/
def ReportKind.code : ReportKind → Nat
  | .brk => 1
  | .bend => 2
  | .clear => 3
  | .outOfRange => 4
  | .outOfService => 5

/-- The reported kind of a code; none outside 1..5 (R203). -/
def reportKindOf (c : Nat) : Option ReportKind :=
  match c with
  | 1 => some .brk
  | 2 => some .bend
  | 3 => some .clear
  | 4 => some .outOfRange
  | 5 => some .outOfService
  | _ => none

/-- BREAK and BEND carry a distance and may open a round (R175). -/
def ReportKind.isFault : ReportKind → Bool
  | .brk => true
  | .bend => true
  | .clear => false
  | .outOfRange => false
  | .outOfService => false

/-- The report a FINDING's kind and distance carry; none for one that R203 has the corroboration unit ignore. -/
def reportOf (kind dist : Nat) : Option Report :=
  match reportKindOf kind with
  | none => none
  | some k =>
    if k.isFault then (if dist ≤ Config.maxDistance then some ⟨k, some dist⟩ else none) else some ⟨k, none⟩

/-- The light group a claim frame names (R136). -/
def claimGroup : FrameBody → Option Nat
  | .presence .. => none
  | .claim g _ => some g
  | .hold g _ => some g
  | .release g _ => some g
  | .finding .. => none

/-- A CLAIM for the group. -/
def isClaimOf (g : Nat) : FrameBody → Bool
  | .claim g' _ => decide (g' = g)
  | _ => false

/-- A HOLD for the group. -/
def isHoldOf (g : Nat) : FrameBody → Bool
  | .hold g' _ => decide (g' = g)
  | _ => false

/-- A RELEASE for the group. -/
def isReleaseOf (g : Nat) : FrameBody → Bool
  | .release g' _ => decide (g' = g)
  | _ => false

/-- A claim frame: CLAIM, HOLD or RELEASE (R136). -/
def isClaimFrame (b : FrameBody) : Bool := (claimGroup b).isSome

/-- A RELEASE of any group. -/
def isRelease : FrameBody → Bool
  | .release .. => true
  | _ => false

/-- A HOLD of any group. -/
def isHold : FrameBody → Bool
  | .hold .. => true
  | _ => false

/-- b is what R138 and R136 call a replacement of a: a PRESENCE of a PRESENCE, a FINDING of a FINDING of the same
sheath group, a HOLD of a HOLD of the same light group. -/
def sameFrame (a b : FrameBody) : Bool :=
  match a, b with
  | .presence .., .presence .. => true
  | .finding h _ _, .finding h' _ _ => decide (h = h')
  | .hold g _, .hold g' _ => decide (g = g')
  | _, _ => false

end Machine

end Sys2Proof
end

