-- ==== Sys2Proof/Machine/Flags.lean ====
section
/-! DEFINITION. The conditions and flags the blocks read from the state: what is configured, who is dozing, which
request is a candidate (R54), the doze conditions (R34), the laser interlock (R73), the presence state (R146). -/

namespace Sys2Proof.Machine

/-! ## Configuration -/

/-- The record of a span if it is enabled (R1). -/
def enabledRec (s : State) (span : Nat) : Option SpanRecord :=
  match s.cfg.spans.find span with
  | some r => if r.enabled then some r else none
  | none => none

/-- The span is enabled. -/
def isEnabled (s : State) (span : Nat) : Bool := (enabledRec s span).isSome

/-- The enabled spans with their records, in ascending order. -/
def enabledSpans (s : State) : Table SpanRecord := s.cfg.spans.filter fun e => e.2.enabled

/-- The span's light group; 0, private, for a span that is not enabled. -/
def lightGroupOf (s : State) (span : Nat) : Nat :=
  match enabledRec s span with
  | some r => r.lightGroup
  | none => 0

/-- The alert mode of an enabled span; OFF otherwise. -/
def alertModeOfSpan (s : State) (span : Nat) : AlertMode :=
  match enabledRec s span with
  | some r => (alertModeOf r.alertMode).getD .off
  | none => .off

/-- The configuration is locked: every station state but UNCONFIGURED (R196). -/
def isLocked (s : State) : Bool := decide (s.port.station ≠ .unconfigured)

/-! ## Spans -/

/-- The span carries the off mark (R51). -/
def isOff (s : State) (span : Nat) : Bool := decide (span ∈ s.sched.off)

/-- The span's fingerprint state (R7). -/
def fpOf (s : State) (span : Nat) : FpState := (s.store.fp.find span).getD .absent

/-- The context's span is the span. -/
def ctxIs (c : Option Ctx) (span : Nat) : Bool :=
  match c with
  | some x => decide (x.span = span)
  | none => false

/-- The span a slot selection names. -/
def selectedSlot (s : State) : Option Nat :=
  match s.sched.selection with
  | some (.slot n) => some n
  | some .save => none
  | none => none

/-- The span whose sweep the engine holds from PREPARING onward, taken or not (R14, R89). -/
def engineSpan (s : State) : Option Nat :=
  match s.engine.ctx with
  | some c => some c.span
  | none => selectedSlot s

/-- The sweep in the engine is untaken: it waits for its claim (R70). -/
def isUntaken (s : State) : Bool := s.sched.selection.isSome

/-! ## Claims -/

/-- The entry of a group is HELD (R155). -/
def isHeld (s : State) (g : Nat) : Bool :=
  match s.claims.find g with
  | some ⟨.held .., _⟩ => true
  | _ => false

/-- The entry of a group is OPEN (R155). -/
def isOpen (s : State) (g : Nat) : Bool :=
  match s.claims.find g with
  | some ⟨.opened .., _⟩ => true
  | _ => false

/-- The tie rule (R156): X's claim at level x wins against the own claim at level y. -/
def peerWins (own x levelX levelY : Nat) : Bool := decide (levelY < levelX ∨ (levelX = levelY ∧ x < own))

/-! ## Candidates (R54) -/

/-- The conditions R54 puts on the level and the span of a candidate. -/
def selectable (s : State) (level span : Nat) : Bool :=
  decide (s.clock.mask ≤ level) && isEnabled s span && !isOff s span && decide (fpOf s span ≠ .writing) &&
  (decide (lightGroupOf s span = 0) || !isHeld s (lightGroupOf s span)) &&
  s.engine.laserFault.isNone && decide (s.port.station = .running)

/-- The request in the span's slot is a candidate: not selected, and its span is not that of the suspended sweep. -/
def slotCandidate (s : State) (span : Nat) (r : Request) : Bool :=
  !r.selected && selectable s r.level span && !ctxIs s.sched.save span

/-- The suspended sweep is a candidate. -/
def saveCandidate (s : State) : Bool :=
  match s.sched.save with
  | some c => selectable s c.level c.span
  | none => false

/-- Some pending request is a candidate (R34, R36). -/
def pendingCandidate (s : State) : Bool := s.sched.slots.any fun e => slotCandidate s e.1 e.2

/-- Some candidate of level 3 exists on a span other than the given one (R58). -/
def urgentElsewhere (s : State) (span : Nat) : Bool :=
  s.sched.slots.any (fun e => decide (e.2.level = 3) && decide (e.1 ≠ span) && slotCandidate s e.1 e.2) ||
  (match s.sched.save with
   | some c => decide (c.level = 3) && decide (c.span ≠ span) && saveCandidate s
   | none => false)

/-! ## Station conditions -/

/-- Some corroboration record is OPEN. -/
def anyRoundOpen (s : State) : Bool :=
  s.corr.any fun e =>
    match e.2 with
    | .idle => false
    | .opened _ => true
    | .settled _ => false

/-- The eight conditions of R34. -/
def dozeConditions (s : State) : Bool :=
  s.cfg.block.dozeEnable && decide (s.clock.state = .awake) && decide (s.port.station = .running) &&
  decide (s.clock.phase = .outside) && !pendingCandidate s && decide (s.engine.state = .idle) &&
  s.sched.save.isNone && !anyRoundOpen s

/-- The station is unable to sweep: HALTED, ISOLATED, or LASER_FAULT set (R182). -/
def unableToSweep (s : State) : Bool :=
  decide (s.port.station = .halted) || decide (s.port.station = .isolated) || s.engine.laserFault.isSome

/-- The presence state (R146): the station state, except DOZING while the clock unit dozes. -/
def presenceState (s : State) : PresenceState :=
  if s.clock.state = .dozing then .dozing
  else
    match s.port.station with
    | .unconfigured => .learning
    | .learning => .learning
    | .running => .running
    | .halted => .halted
    | .isolated => .halted

/-- The laser interlock of R73 for a sweep in the engine. -/
def mayFire (s : State) (c : Ctx) : Bool :=
  (decide (s.engine.state = .quick) || decide (s.engine.state = .full)) &&
  decide (s.switch = .settled c.span) &&
  (decide (lightGroupOf s c.span = 0) || isOpen s (lightGroupOf s c.span)) &&
  s.engine.laserFault.isNone

/-- The phase that R29's table gives for a time of day. -/
def phaseAt (b : StationBlock) (t : Nat) : Phase :=
  let qs := b.quietStart * 60000
  let qe := b.quietEnd * 60000
  if b.quietStart = b.quietEnd then .outside
  else if b.quietStart < b.quietEnd then (if qs ≤ t ∧ t < qe then .inside else .outside)
  else if qs ≤ t ∨ t < qe then .inside else .outside

/-- The mask of a phase (R33). -/
def maskOf (b : StationBlock) : Phase → Nat
  | .inside => 0
  | .outside => b.dayFloor

/-- The exists set of a sheath group: the own id and the peers that declare it, ascending (R174). -/
def existsSet (s : State) (h : Nat) : List Nat :=
  insertAsc s.line.id ((s.peers.table.filter fun e => decide (h ∈ e.2.groups)).map (·.1))

/-- A timer with this expiry has come due. -/
def isDue (s : State) (t : Option Nat) : Bool :=
  match t with
  | some e => decide (e ≤ s.clock.now)
  | none => false

end Sys2Proof.Machine
end

