-- ==== Sys2Proof/Machine/Ops.lean ====
section
/-! DEFINITION. The shared operations of the blocks up to the scheduler: notices (R197), replies (R189), the transmit
queue and the line (R133 to R140), presence and wake (R36, R147), requests and merges (R41, R48, R49), the accumulator
roles (R94 to R97), the fingerprint store (R6 to R12). -/

namespace Sys2Proof.Machine

/-! ## Time -/

/-- The time `ms` milliseconds from now on the time base. -/
def after (s : State) (ms : Nat) : Nat := s.clock.now + ms

/-! ## Notices (R197, R198) -/

/-- A block posts a notice: appended, or discarded with the overflow flag set when 32 are held; the attention line is
asserted by an append. -/
def post (s : State) (b : NoticeBody) : State :=
  if s.notices.fifo.length < Config.fifoSize then
    { s with notices := { s.notices with fifo := s.notices.fifo ++ [⟨b, s.clock.tod⟩], attention := true } }
  else { s with notices := { s.notices with overflow := true } }

/-- Several notices, in order. -/
def postAll (s : State) (bs : List NoticeBody) : State := bs.foldl post s

/-! ## Replies (R189) -/

/-- The reply is ready and the command in progress is emptied (R189). -/
def answer (s : State) (k : ReplyKind) (body : List Byte) : State :=
  { s with port := { s.port with reply := some ⟨k, body⟩, inProgress := none } }

/-- A refusal: a reply of its kind without a body (12.2). -/
def refuse (s : State) (k : ReplyKind) : State := answer s k []

/-- ACCEPTED without a body. -/
def accept (s : State) : State := answer s .accepted []

/-! ## Transmit queue and line (R134 to R140) -/

/-- Frames may be offered and sent: from START on, and not in ISOLATED (R136). -/
def canSend (s : State) : Bool := decide (s.line.state ≠ .passive) && decide (s.port.station ≠ .isolated)

/-- The better of two waiting frames: higher urgency, then earlier age (R137). -/
def betterFrame (best : Option TxFrame) (f : TxFrame) : Option TxFrame :=
  match best with
  | none => some f
  | some b => if b.urgency < f.urgency ∨ (b.urgency = f.urgency ∧ f.age < b.age) then some f else some b

/-- The head of the queue (R137). -/
def queueHead (q : List TxFrame) : Option TxFrame := q.foldl betterFrame none

/-- A frame of the station as it goes on the line. -/
def ownFrame (s : State) (f : TxFrame) : Frame := ⟨f.urgency, s.line.id, f.body⟩

/-- An attempt starts with the head of the queue when the unit is IDLE and a frame waits (R134); never in ISOLATED
(R133). -/
def startAttempt (s : State) : State :=
  if decide (s.line.state = .idle) && canSend s then
    match queueHead s.line.queue with
    | none => s
    | some f =>
      { s with line := { s.line with
          queue := s.line.queue.filter (· ≠ f), attempt := some f, attemptDropped := false,
          driving := (ownFrame s f).lineBits, state := .arbitrating } }
  else s

/-- A waiting frame that `new` replaces takes its urgency and contents and keeps its age (R138, R139). -/
def replaceWaiting (q : List TxFrame) (u : Nat) (b : FrameBody) : List TxFrame :=
  q.map fun f => if sameFrame f.body b then ⟨f.age, u, b⟩ else f

/-- A frame enters the queue in order of age. -/
def insertByAge (f : TxFrame) : List TxFrame → List TxFrame
  | [] => [f]
  | g :: q => if f.age < g.age then f :: g :: q else g :: insertByAge f q

/-- The queue without its earliest frame of a kind. -/
def dropOldest (p : FrameBody → Bool) : List TxFrame → List TxFrame
  | [] => []
  | f :: q => if p f.body then q else f :: dropOldest p q

/-- The waiting claim frames. -/
def claimFrames (q : List TxFrame) : List TxFrame := q.filter fun f => isClaimFrame f.body

/-- Room for a claim frame: the waiting RELEASE of earliest age is removed (R139, last case). With no RELEASE waiting,
the waiting HOLD of earliest age is, and failing that the earliest claim frame (log 17). -/
def makeRoom (q : List TxFrame) : List TxFrame :=
  if q.any (fun f => isRelease f.body) then dropOldest isRelease q
  else if q.any (fun f => isHold f.body) then dropOldest isHold q
  else dropOldest isClaimFrame q

/-- A claim frame enters: with two claim frames waiting, room is made for it, so that no more than two wait (R136, R139;
for a frame that returns from an attempt, log 17). -/
def enterClaimFrame (q : List TxFrame) (f : TxFrame) : List TxFrame :=
  insertByAge f (if 2 ≤ (claimFrames q).length then makeRoom q else q)

/-- A HOLD offered while a CLAIM for its group waits is absorbed: the CLAIM takes the higher urgency (R139). -/
def absorbHold (q : List TxFrame) (u g : Nat) : List TxFrame :=
  q.map fun f => if isClaimOf g f.body then { f with urgency := max f.urgency u } else f

/-- The queue after a frame with its own age is offered (R138, R139). -/
def queueOffer (q : List TxFrame) (f : TxFrame) : List TxFrame :=
  match f.body with
  | .presence .. =>
    if q.any (fun x => sameFrame x.body f.body) then replaceWaiting q f.urgency f.body else insertByAge f q
  | .finding .. =>
    if q.any (fun x => sameFrame x.body f.body) then replaceWaiting q f.urgency f.body else insertByAge f q
  | .claim .. => enterClaimFrame q f
  | .hold g _ =>
    if q.any (fun x => isClaimOf g x.body) then absorbHold q f.urgency g
    else if q.any (fun x => sameFrame x.body f.body) then replaceWaiting q f.urgency f.body
    else enterClaimFrame q f
  | .release g _ => enterClaimFrame (q.filter fun x => !isClaimOf g x.body && !isHoldOf g x.body) f

/-- A block offers a frame (R136): discarded while the line is PASSIVE or the station ISOLATED; otherwise queued, and
an attempt starts at once if the unit is already IDLE (R134). -/
def offer (s : State) (u : Nat) (b : FrameBody) : State :=
  if canSend s then
    startAttempt { s with line := { s.line with
      queue := queueOffer s.line.queue ⟨s.line.nextAge, u, b⟩, nextAge := s.line.nextAge + 1 } }
  else s

/-- An owner asks for its frames to be removed (R140): waiting ones are removed; one in an attempt is discarded if the
attempt loses. -/
def askRemove (s : State) (p : FrameBody → Bool) : State :=
  { s with line := { s.line with
      queue := s.line.queue.filter fun f => !p f.body
      attemptDropped := s.line.attemptDropped || s.line.attempt.any fun f => p f.body } }

/-- The frame in the attempt satisfies p. -/
def inAttempt (s : State) (p : FrameBody → Bool) : Bool := s.line.attempt.any fun f => p f.body

/-- The attempt is over: the station stops driving the line and the unit takes a new state (R135). -/
def endAttempt (s : State) (st : LineState) : State :=
  { s with line := { s.line with attempt := none, attemptDropped := false, driving := [], state := st } }

/-! ## Presence and wake (R146, R147, R36) -/

/-- The peer unit offers a PRESENCE and its timer restarts at 1 s (R147); in ISOLATED neither happens (R145). -/
def offerPresence (s : State) : State :=
  if s.port.station = .isolated then s
  else
    offer { s with peers := { s.peers with presence := some (after s Config.presencePeriod) } } 0
      (.presence (presenceState s) s.cfg.sheathGroups)

/-- A wake cause in DOZING: the clock unit enters LOCKING and the presence state changes back (R36, R37). -/
def wake (s : State) : State :=
  if s.clock.state = .dozing then
    offerPresence { s with clock := { s.clock with state := .locking, lockExpiry := some (after s Config.lockTime) } }
  else s

/-- A pending request that is a candidate wakes a dozing clock unit (R36). -/
def wakeForCandidate (s : State) : State := if pendingCandidate s then wake s else s

/-- The doze delay timer is stopped (R34). -/
def stopDoze (s : State) : State := { s with clock := { s.clock with dozeExpiry := none } }

/-- The doze delay timer after a change: it runs on while all conditions hold, starts when they come to hold, and
stops when one fails (R34). -/
def refreshDoze (s : State) : State :=
  if dozeConditions s then
    (if s.clock.dozeExpiry.isSome then s
     else { s with clock := { s.clock with dozeExpiry := some (after s Config.dozeDelay) } })
  else stopDoze s

/-- The end of a row's step: a candidate wakes the clock unit (R36), and the doze timer follows its conditions
(R34). -/
def settle (s : State) : State := refreshDoze (wakeForCandidate s)

/-! ## Result records (R125 to R127) -/

/-- A change of a span's result record, if it has one. -/
def adjustResult (s : State) (span : Nat) (f : ResultRecord → ResultRecord) : State :=
  { s with comp := { s.comp with results := s.comp.results.adjust span f } }

/-- The comparator removes the held offset of a span (R113). -/
def removeHeld (s : State) (span : Nat) : State := adjustResult s span fun r => { r with held := none }

/-! ## Fingerprint store (R6 to R12) -/

/-- The span's fingerprint state becomes st; ABSENT is not listed. -/
def setFp (s : State) (span : Nat) (st : FpState) : State :=
  { s with store := { s.store with
      fp := if st = .absent then s.store.fp.erase span else s.store.fp.put span st } }

/-- Every directory entry naming the span is cleared (R10, R14, R18). -/
def clearDir (s : State) (span : Nat) : State :=
  { s with store := { s.store with dir := s.store.dir.filter fun e => e.2.owner ≠ span } }

/-- The directory entries of a record's range name the span, the page's ordinal and the span's L (R11, R16). -/
def setDir (s : State) (span : Nat) (r : SpanRecord) : State :=
  { s with store := { s.store with
      dir := s.store.dir.putRun r.firstPage ((List.range (pageCount r.len)).map fun o => ⟨span, o, r.len⟩) } }

/-- Levels are written at bins from .. of a record's fingerprint (R2, R15). -/
def writeLevels (s : State) (r : SpanRecord) (bin : Nat) (levels : List Nat) : State :=
  { s with store := { s.store with mem := s.store.mem.putRun (r.cell bin) levels } }

/-- The level of bin p of a record's fingerprint (R9); undefined contents read as a free value (log 7). -/
def readLevel (s : State) (r : SpanRecord) (p : Nat) : Nat :=
  (s.store.mem.find (r.cell p)).getD (Config.undefinedLevel s.free (r.cell p))

/-- The baseline write of span s copies the first n bins of the result trace (R10). -/
def copyTrace (s : State) (span n : Nat) : State :=
  match enabledRec s span with
  | some r => writeLevels s r 0 ((s.trace.entries.take n).map (·.1))
  | none => s

/-- A fresh free value: the model's counter advances. -/
def bumpFree (s : State) : State := { s with free := s.free + 1 }

/-- A baseline write is stopped: what it had copied stays in the pages, how much is a free value (R12; log 8). -/
def cutCopy (s : State) (span : Nat) : State :=
  bumpFree (copyTrace s span (Config.binsCopied s.free % (s.trace.entries.length + 1)))

/-! ## Accumulator (R94 to R97) -/

/-- The slot with a number. -/
def Acc.slot (a : Acc) (n : Nat) : AccSlot := if n = 0 then a.slot0 else a.slot1

/-- A change of the slot with a number. -/
def Acc.adjust (a : Acc) (n : Nat) (f : AccSlot → AccSlot) : Acc :=
  if n = 0 then { a with slot0 := f a.slot0 } else { a with slot1 := f a.slot1 }

/-- The number of the slot with the save role. -/
def Acc.saved (a : Acc) : Nat := if a.active = 0 then 1 else 0

/-- The slot with the active role. -/
def Acc.current (a : Acc) : AccSlot := a.slot a.active

/-- A cleared slot: count 0, every sum 0, every mark clear; owner and acquired bins as they are (R95). -/
def AccSlot.clear (sl : AccSlot) : AccSlot :=
  { sl with lit := 0, sums := List.replicate sl.count 0, marks := List.replicate sl.count false }

/-- A taking claims the active slot (R95). -/
def Acc.claim (a : Acc) (first count : Nat) : Acc :=
  a.adjust a.active fun sl => { sl with owner := .running, first := first, count := count }.clear

/-- Suspension, or a resume given up: the active slot takes the save role with the suspended sweep as owner (R97). -/
def Acc.setAside (a : Acc) : Acc :=
  { a.adjust a.active (fun sl => { sl with owner := .suspended }) with active := a.saved }

/-- Resume: the save-role slot takes the active role with the running sweep as owner (R97). -/
def Acc.bringBack (a : Acc) : Acc :=
  { a.adjust a.saved (fun sl => { sl with owner := .running }) with active := a.saved }

/-- A sweep in the engine ends: its slot's owner becomes none (R95). -/
def Acc.release (a : Acc) : Acc := a.adjust a.active fun sl => { sl with owner := .none }

/-- The suspended sweep ends: the save-role slot's owner becomes none and its contents are discarded (R97). -/
def Acc.discardSaved (a : Acc) : Acc := a.adjust a.saved fun _ => emptySlot

/-- The samples of the acquired bins of a shot (R72). -/
def acquired (first count : Nat) (xs : List Adc) : List Nat := ((xs.drop first).take count).map (·.val)

/-- A lit shot's samples are added to the slot, all bins together (R96). -/
def AccSlot.addShot (sl : AccSlot) (xs : List Adc) : AccSlot :=
  let v := acquired sl.first sl.count xs
  { sl with
    sums := List.zipWith (· + ·) sl.sums v
    marks := List.zipWith (fun m x => m || decide (x = Config.overrange)) sl.marks v
    lit := sl.lit + 1 }

/-! ## Requests (R39 to R50) -/

/-- A change of the request in a span's slot, if there is one. -/
def adjustSlot (s : State) (span : Nat) (f : Request → Request) : State :=
  { s with sched := { s.sched with slots := s.sched.slots.adjust span f } }

/-- The span's slot is emptied. -/
def emptySlotOf (s : State) (span : Nat) : State :=
  { s with sched := { s.sched with slots := s.sched.slots.erase span } }

/-- What a source raises (R41): kind, level and, for a CONFIRM, target and round reference. -/
structure Raised where
  kind   : ReqKind
  level  : Nat
  target : Option Nat
  round  : Option Nat
deriving DecidableEq, Repr

/-- The request a slot is filled with (R40): windowed only for a CONFIRM. -/
def Raised.fill (n : Raised) (tod : Nat) : Request :=
  ⟨n.kind, n.level, decide (n.kind = .confirm), n.target, n.round, tod, false⟩

/-- The merge of R48. -/
def mergeRequest (old : Request) (n : Raised) : Request :=
  { old with
    kind := if old.kind.rank < n.kind.rank then n.kind else old.kind
    level := max old.level n.level
    windowed := decide (n.kind = .confirm) && decide (old.kind = .confirm) && old.windowed
    target := if n.kind = .confirm then n.target else old.target
    round := if n.kind = .confirm then n.round else old.round }

/-- A pending BASELINE replaced by a CONFIRM or an ALERT (R49). -/
def replaceBaseline (old : Request) (n : Raised) (tod : Nat) : Request :=
  { n.fill tod with level := max old.level n.level, selected := old.selected }

/-- The notice of a replaced BASELINE (R49). -/
def replacedBy : ReqKind → CancelCause
  | .confirm => .replacedByConfirm
  | .routine => .replacedByAlert
  | .host => .replacedByAlert
  | .alert => .replacedByAlert
  | .baseline => .replacedByAlert

/-- The slot of the span holds r. -/
def putSlot (s : State) (span : Nat) (r : Request) : State :=
  { s with sched := { s.sched with slots := s.sched.slots.put span r } }

/-- A new request meets the request in its span's slot (R48, R49). A BASELINE never meets one (R43). -/
def meet (s : State) (span : Nat) (old : Request) (n : Raised) : State :=
  match old.kind, n.kind with
  | _, .baseline => s
  | .baseline, .routine => putSlot s span { old with level := max old.level n.level }
  | .baseline, .host => putSlot s span { old with level := max old.level n.level }
  | .baseline, _ =>
    post (putSlot s span (replaceBaseline old n s.clock.tod)) (.baselineCancelled span (replacedBy n.kind))
  | _, _ => putSlot s span (mergeRequest old n)

/-- A withdrawal or a report decides the span of an OPEN record when its round reference and target match (R181); the
own report is not made here. -/
def dropOutstanding (s : State) (span : Nat) (target round : Option Nat) : State :=
  match round, target with
  | some h, some t =>
    { s with corr := s.corr.adjust h fun
        | .opened r =>
          if r.outstanding.find span = some t then .opened { r with outstanding := r.outstanding.erase span }
          else .opened r
        | c => c }
  | _, _ => s

/-- A request is raised (R41): dropped for a span that is not enabled or carries the off mark (a CONFIRM's span is
then withdrawn at once, R47), filled into an empty slot, or merged. -/
def raise (s : State) (span : Nat) (n : Raised) : State :=
  if !isEnabled s span || isOff s span then
    (if n.kind = .confirm then dropOutstanding s span n.target n.round else s)
  else
    match s.sched.slots.find span with
    | none => putSlot s span (n.fill s.clock.tod)
    | some old => meet s span old n

/-! ## Alert inputs (R44 to R46) -/

/-- The span's alert level (R1). -/
def alertLevelOf (s : State) (span : Nat) : Nat :=
  match enabledRec s span with
  | some r => r.alertLevel
  | none => 0

/-- The alert input raises its ALERT. -/
def raiseAlert (s : State) (span : Nat) : State :=
  raise s span ⟨.alert, alertLevelOf s span, none, none⟩

/-- The test of R45: an ALERT is raised when the line is asserted, the slot empty, no sweep of the span running or
suspended, and the re-raise timer stopped. It fails for a span with the off mark (R46). -/
def levelTest (s : State) (span : Nat) : State :=
  if decide (alertModeOfSpan s span = .level) && !isOff s span && decide (span ∈ s.alerts.asserted) &&
      !s.sched.slots.has span && !ctxIs s.engine.ctx span && !ctxIs s.sched.save span &&
      !s.alerts.timers.has span
  then raiseAlert s span
  else s

/-- The EDGE latch of a span is cleared (R44, R51). -/
def clearLatch (s : State) (span : Nat) : State :=
  { s with alerts := { s.alerts with latches := removeFrom span s.alerts.latches } }

/-- The re-raise timer of a LEVEL input starts afresh (R45). -/
def startReRaise (s : State) (span : Nat) : State :=
  if alertModeOfSpan s span = .level then
    { s with alerts := { s.alerts with
        timers := s.alerts.timers.put span (after s (s.cfg.block.alertInterval * 1000)) } }
  else s

/-- A sweep of its span has ended: the EDGE latch it answers is cleared (R44) and the re-raise timer starts (R45). -/
def sweepOver (s : State) (c : Ctx) : State :=
  startReRaise (if c.answersLatch then clearLatch s c.span else s) c.span

end Sys2Proof.Machine
end

