-- ==== Sys2Proof/Machine/Claims.lean ====
section
/-! DEFINITION. The claim unit's own side (chapter 8): the ask, the release, the give-up, the withdrawal's table part,
and what a transmitted CLAIM does. What the unit reports to the engine stands in Sweeps.lean. -/

namespace Sys2Proof.Machine

/-- The state of a group's entry changes; its stale CLAIM mark stays. -/
def setClaim (s : State) (g : Nat) (st : ClaimState) : State :=
  { s with claims := s.claims.adjust g fun e => { e with state := st } }

/-- The stale CLAIM mark of a group's entry changes. -/
def setStale (s : State) (g : Nat) (m : Option (StaleMark × Nat)) : State :=
  { s with claims := s.claims.adjust g fun e => { e with stale := m } }

/-- Every stale CLAIM mark is cleared: the attempt ended without a report (R168). -/
def clearStale (s : State) : State :=
  { s with claims := s.claims.map fun e => (e.1, { e.2 with stale := none }) }

/-- Time of the claim lifetime from a time on the time base (R161). -/
def lifetimeFrom (s : State) (t : Nat) : Nat := t + s.cfg.block.claimLifetime * 1000

/-- A quarter of the claim lifetime in ms (R160). -/
def quarterLife (s : State) : Nat := s.cfg.block.claimLifetime * 250

/-- The engine asks for group g at level l (R158): a FREE entry becomes CLAIMING and a CLAIM is offered. In HELD
nothing changes; the caller gives the preparation back. -/
def askClaim (s : State) (g l : Nat) : State :=
  match s.claims.find g with
  | some ⟨.free, _⟩ => offer (setClaim (askRemove s (isReleaseOf g)) g (.claiming l none)) l (.claim g l)
  | _ => s

/-- The engine releases its claim on g (R166): an OPEN entry becomes FREE and a RELEASE is offered. -/
def releaseClaim (s : State) (g : Nat) : State :=
  match s.claims.find g with
  | some ⟨.opened l _, _⟩ => offer (setClaim s g .free) l (.release g l)
  | _ => s

/-- The CLAIM of g that the entry still stands behind is in the attempt: it carries no stale CLAIM mark (R167). -/
def currentInAttempt (s : State) (g : Nat) (e : ClaimEntry) : Bool :=
  inAttempt s (isClaimOf g) && e.stale.isNone

/-- The level of a CLAIM of g; none for any other frame (12.1). -/
def claimLevel (g : Nat) : FrameBody → Option Nat
  | .claim k l => if k = g then some l else none
  | .presence .. => none
  | .hold .. => none
  | .release .. => none
  | .finding .. => none

/-- The stale CLAIM mark after a withdrawal (R162 step 2): WITHDRAWN with its level for a CLAIM of g in an attempt, one
that carries GIVEN_UP included; otherwise the mark stays. -/
def withdrawnMark (s : State) (g : Nat) (m : Option (StaleMark × Nat)) : Option (StaleMark × Nat) :=
  match s.line.attempt.bind fun f => claimLevel g f.body with
  | some l => some (.withdrawn, l)
  | none => m

/-- A CLAIM or a HOLD for g. -/
def isClaimOrHold (g : Nat) (b : FrameBody) : Bool := isClaimOf g b || isHoldOf g b

/-- The engine gives up a preparation whose claim is CLAIMING (R167). -/
def giveUpClaim (s : State) (g : Nat) : State :=
  match s.claims.find g with
  | some ⟨.claiming l (some _), _⟩ =>
    offer (setClaim s g .free) l (.release g l)
  | some ⟨.claiming l none, m⟩ =>
    let s1 := setClaim (askRemove s (isClaimOrHold g)) g .free
    if currentInAttempt s g ⟨.claiming l none, m⟩ then setStale s1 g (some (.givenUp, l)) else s1
  | _ => s

/-- Steps 1 and 2 of a withdrawal (R162): the entry becomes HELD by the winner, waiting CLAIM and HOLD are removed, a
CLAIM in an attempt takes the mark WITHDRAWN. -/
def withdrawClaim (s : State) (g x level arrival : Nat) : State :=
  match s.claims.find g with
  | some ⟨.claiming _ _, m⟩ =>
    setStale (askRemove (setClaim s g (.held x level (lifetimeFrom s arrival))) (isClaimOrHold g)) g
      (withdrawnMark s g m)
  | _ => s

/-- A lost conflict on an OPEN entry (R164): HELD by the winner, a waiting HOLD is removed. -/
def loseOpen (s : State) (g x level arrival : Nat) : State :=
  askRemove (setClaim s g (.held x level (lifetimeFrom s arrival))) (isHoldOf g)

/-- A peer's CLAIM or HOLD in FREE or HELD names the holder (R161). -/
def recordHolder (s : State) (g x level arrival : Nat) : State :=
  setClaim s g (.held x level (lifetimeFrom s arrival))

/-- A CLAIM of the station has been transmitted (R159, R168). -/
def claimTransmitted (s : State) (g : Nat) : State :=
  match s.claims.find g with
  | some ⟨_, some (.withdrawn, _)⟩ =>
    setStale s g none
  | some ⟨.claiming .., some (.givenUp, _)⟩ => setStale s g none
  | some ⟨.opened .., some (.givenUp, _)⟩ => setStale s g none
  | some ⟨_, some (.givenUp, l)⟩ => offer (setStale s g none) l (.release g l)
  | some ⟨.claiming l none, none⟩ => setClaim s g (.claiming l (some (after s s.cfg.block.holdOff)))
  | _ => s

end Sys2Proof.Machine
end

