-- ==== Sys2Proof/Machine/Compare.lean ====
section
/-! DEFINITION. The comparison of a result trace with a fingerprint (R110 to R124), as arithmetic on a problem that
holds the trace, the fingerprint and the thresholds. -/

namespace Sys2Proof.Machine

/-- One comparison: result trace, fingerprint levels of bins 0..L−1, the record's A, range C..E, ρ, θ, floor level,
bin spacing, and the held offset (R109). -/
structure Problem where
  trace      : List (Nat × Bool)
  fingerprint : List Nat
  anchor     : Nat
  first      : Nat
  last       : Nat
  theta      : Nat
  rho        : Nat
  floorLevel : Nat
  spacing    : Nat
  held       : Option Int

/-- T_j. -/
def Problem.level (p : Problem) (j : Nat) : Nat := (p.trace.getD j (Config.noData, false)).1

/-- The saturation mark of entry j. -/
def Problem.saturated (p : Problem) (j : Nat) : Bool := (p.trace.getD j (Config.noData, false)).2

/-- F_j. -/
def Problem.ref (p : Problem) (j : Nat) : Nat := p.fingerprint.getD j 0

/-- T_j − F_j. -/
def Problem.diff (p : Problem) (j : Nat) : Int := (p.level j : Int) - (p.ref j : Int)

/-! ## Offset (R111, R112) -/

/-- The anchor bins that count (R111). -/
def Problem.anchorBins (p : Problem) : List Nat :=
  ((List.range 64).map (p.anchor + ·)).filter fun j => decide (p.level j ≠ Config.noData) && !p.saturated j

/-- The sum of T − F over bins. -/
def Problem.sumDiff (p : Problem) (js : List Nat) : Int := js.foldl (fun a j => a + p.diff j) 0

/-- Fewer than 32 anchor bins count (R112). -/
def Problem.unanchored (p : Problem) : Bool := decide (p.anchorBins.length < 32)

/-- The offset: the truncating mean over the anchor bins, or the held offset, or 0 (R111, R112). -/
def Problem.offset (p : Problem) : Int :=
  if p.unanchored then p.held.getD 0 else (p.sumDiff p.anchorBins).tdiv p.anchorBins.length

/-! ## Loss and gain scan (R114 to R118) -/

/-- Δ′_j (R114). -/
def Problem.departure (p : Problem) (off : Int) (j : Nat) : Int := p.diff j - off

/-- S_i: the floor of the mean of Δ′ over bins i..i+7 (R114). -/
def Problem.smooth (p : Problem) (off : Int) (i : Nat) : Int :=
  ((List.range 8).foldl (fun a k => a + p.departure off (i + k)) 0).fdiv 8

/-- Bin e is a departure start against base b (R115). -/
def Problem.isStart (p : Problem) (off b : Int) (e : Nat) : Bool :=
  decide (e + 10 ≤ p.last) && !p.saturated e &&
  ((List.range 4).all (fun i => decide ((p.theta : Int) ≤ p.smooth off (e + i) - b)) ||
   (List.range 4).all (fun i => decide (p.smooth off (e + i) - b ≤ -(p.theta : Int))))

/-- The first departure start at or beyond a scan point (R115). -/
def Problem.findStart (p : Problem) (off b : Int) (scan : Nat) : Option Nat :=
  (List.range' scan (p.last + 1 - scan)).find? (p.isStart off b)

/-- The bins of m..E above the floor level (R117). -/
def Problem.liveBins (p : Problem) (m : Nat) : Nat :=
  ((List.range' m (p.last + 1 - m)).filter fun j => decide (p.floorLevel < p.level j)).length

/-- The difference T_j − T_{j−1}, left out when either entry holds no data (R118). -/
def Problem.rise (p : Problem) (j : Nat) : Option Int :=
  if p.level j = Config.noData ∨ p.level (j - 1) = Config.noData then none
  else some ((p.level j : Int) - (p.level (j - 1) : Int))

/-- The peak of an event at bin e: the largest rise at e−2..e+2, if at least ρ (R118). -/
def Problem.peak (p : Problem) (e : Nat) : Option Nat :=
  match ((List.range' (e - 2) 5).filterMap p.rise).max? with
  | some d => if (p.rho : Int) ≤ d then some d.toNat else none
  | none => none

/-- An event at bin e (R121). -/
def Problem.event (p : Problem) (k : EventKind) (e : Nat) (step : Option Int) (peak : Option Nat) : Event :=
  ⟨k, e, distanceOf p.spacing e, step, peak⟩

/-- The loss and gain scan from base b and a scan point (R115 to R117): the events in order, and the break bin. `fuel`
bounds the number of departure starts. -/
def Problem.scan (p : Problem) (off : Int) : Nat → Int → Nat → List Event × Option Nat
  | 0, _, _ => ([], none)
  | fuel + 1, b, point =>
    match p.findStart off b point with
    | none => ([], none)
    | some e =>
      let m := min (e + 12) (p.last - 7)
      let step := p.smooth off m - b
      let rest := p.scan off fuel (p.smooth off m) (m + 1)
      if (p.theta : Int) ≤ step then (p.event .gain e (some step) (p.peak e) :: rest.1, rest.2)
      else if step ≤ -(p.theta : Int) then
        (if p.liveBins m ≤ 8 then ([p.event .brk e none (p.peak e)], some e)
         else (p.event .bend e (some step) (p.peak e) :: rest.1, rest.2))
      else rest

/-! ## Reflection scan (R119, R120) -/

/-- Bin j qualifies as reflective (R119). -/
def Problem.isReflective (p : Problem) (off : Int) (brk : Option Nat) (steps : List Event) (j : Nat) : Bool :=
  (match brk with
   | some x => decide (j < x)
   | none => true) &&
  decide ((p.rho : Int) ≤ p.departure off j) &&
  decide (2 * ((p.ref j : Int) - (p.ref (j - 1) : Int)) < (p.rho : Int)) &&
  steps.all fun ev => decide (j + 4 < ev.bin ∨ ev.bin + 4 < j)

/-- The runs of reflective bins, each as its bin of largest Δ′ (the lowest of them) with that Δ′ (R120). `cur` is the
best bin of the run in progress. -/
def Problem.runs (p : Problem) (off : Int) (q : Nat → Bool) : Option Nat → List Nat → List Nat
  | cur, [] => cur.toList
  | cur, j :: js =>
    if q j then
      match cur with
      | none => p.runs off q (some j) js
      | some b => p.runs off q (some (if p.departure off b < p.departure off j then j else b)) js
    else cur.toList ++ p.runs off q none js

/-- The REFLECTION events (R120). -/
def Problem.reflections (p : Problem) (off : Int) (brk : Option Nat) (steps : List Event) : List Event :=
  (p.runs off (p.isReflective off brk steps) none (List.range' p.first (p.last + 1 - p.first))).map fun b =>
    p.event .reflection b none (some (p.departure off b).toNat)

/-! ## Event list and outcome (R122, R123) -/

/-- An event put into a list in ascending bin order. -/
def insertEvent (e : Event) : List Event → List Event
  | [] => [e]
  | x :: l => if e.bin ≤ x.bin then e :: x :: l else x :: insertEvent e l

/-- Two lists of events merged in ascending bin order (R122). -/
def mergeEvents (a b : List Event) : List Event := b.foldr insertEvent a

/-- The event is a BREAK. -/
def Event.isBreak (e : Event) : Bool := decide (e.kind = .brk)

/-- The event list of all events found, and MORE_EVENTS (R122). -/
def limitEvents (all : List Event) : List Event × Bool :=
  if all.length ≤ Config.maxEvents then (all, false)
  else
    match all.find? Event.isBreak with
    | some b => (all.take (Config.maxEvents - 1) ++ [b], true)
    | none => (all.take Config.maxEvents, true)

/-- The outcome of an event list (R123). -/
def outcomeOf (evs : List Event) : SweepOutcome :=
  if evs.any Event.isBreak then .broken else if evs.isEmpty then .clean else .changed

/-- All events found, in ascending bin order (R115 to R122). -/
def Problem.allEvents (p : Problem) : List Event :=
  let sc := p.scan p.offset (p.last + 1) 0 p.first
  mergeEvents sc.1 (p.reflections p.offset sc.2 sc.1)

/-- The working result of a comparison that ends at time of day `tod` (R109, R127). -/
def Problem.result (p : Problem) (tod : Nat) (windowed quick : Bool) : Comparison :=
  let lim := limitEvents p.allEvents
  { time := tod, offset := p.offset, unanchored := p.unanchored, more := lim.2, windowed := windowed,
    quickOnly := quick, outcome := outcomeOf lim.1, events := lim.1 }

end Sys2Proof.Machine
end

