-- ==== Sys2Proof/Machine/Reduce.lean ====
section
/-! DEFINITION. The arithmetic of dark shots and of trace reduction (R98, R101 to R105). -/

namespace Sys2Proof.Machine

/-- The dark level D of 16 initial dark shots over B bins with total S (R98). -/
def darkLevelOf (total bins : Nat) : Nat := (total + 8 * bins) / (16 * bins)

/-- The mean of one interleaved dark shot over B bins with total S (R98). -/
def darkMean (total bins : Nat) : Nat := (total + bins / 2) / bins

/-- The mean of a bin's sum over 2^n lit shots, rounded half up (R101). -/
def meanOf (n sum : Nat) : Nat := (sum + 2 ^ (n - 1)) / 2 ^ n

/-- The net value: mean minus D, raised to 1 (R102). -/
def netValue (mean dark : Nat) : Nat := max 1 (mean - dark)

/-- Whether level t is reached: t − 1/2 ≤ 500 × log10 v, that is 10^(2t−1) ≤ v^1000 (R103). -/
def reaches (v t : Nat) : Bool := decide (10 ^ (2 * t - 1) ≤ v ^ 1000)

/-- The level of a net value: 500 × log10 v to the nearest whole number, exactly (R103). The largest t that is
reached, found bit by bit; levels lie below 2048. -/
def levelOf (v : Nat) : Nat :=
  [1024, 512, 256, 128, 64, 32, 16, 8, 4, 2, 1].foldl (fun t b => if reaches v (t + b) then t + b else t) 0

/-- The entry of an acquired bin (R101 to R104). -/
def entryOf (n dark sum : Nat) (mark : Bool) : Nat × Bool :=
  if mark then (Config.maxLevel, true) else (levelOf (netValue (meanOf n sum) dark), false)

/-- The entries of the acquired bins (R101 to R104). -/
def acquiredEntries (n dark : Nat) (sl : AccSlot) : List (Nat × Bool) :=
  List.zipWith (entryOf n dark) sl.sums sl.marks

/-- A bin without data (R104). -/
def noDataEntry : Nat × Bool := (Config.noData, false)

/-- The result trace's entries 0..L−1: the acquired bins, and no data outside the window (R104). -/
def reduceEntries (len n dark : Nat) (sl : AccSlot) : List (Nat × Bool) :=
  List.replicate sl.first noDataEntry ++ acquiredEntries n dark sl ++
    List.replicate (len - sl.first - sl.count) noDataEntry

/-- The saturated entries in bins c..e (R105). -/
def countSaturated (entries : List (Nat × Bool)) (c e : Nat) : Nat :=
  (((entries.drop c).take (e + 1 - c)).filter (·.2)).length

end Sys2Proof.Machine
end

