-- ==== Sys2Proof/Machine/Rounds.lean ====
section
/-! DEFINITION. Corroboration rounds (chapter 9): reports, decisions, completion and the verdict, opening a round. -/

namespace Sys2Proof.Machine

/-- The record of group h becomes c. -/
def putRound (s : State) (h : Nat) (c : CorrRecord) : State := { s with corr := s.corr.put h c }

/-- The unit offers a FINDING: urgency 3 for BREAK and BEND, 2 otherwise (R175). -/
def offerFinding (s : State) (h : Nat) (r : Report) : State :=
  offer s (if r.kind.isFault then 3 else 2) (.finding h r.kind.code (r.dist.getD 0))

/-- |a − b|. -/
def gapOf (a b : Nat) : Nat := (a - b) + (b - a)

/-! ## Completion and the verdict (R184 to R186) -/

/-- The distances of the joined entries of kind BREAK or BEND. -/
def faultDistances (joined : Table Report) : List Nat :=
  joined.filterMap fun e => if e.2.kind.isFault then e.2.dist else none

/-- F of R186: joined faults within the tolerance of the opening distance. -/
def countNear (tol d0 : Nat) (joined : Table Report) : Nat :=
  ((faultDistances joined).filter fun d => decide (gapOf d d0 ≤ tol)).length

/-- G of R186: joined faults beyond the tolerance. -/
def countFar (tol d0 : Nat) (joined : Table Report) : Nat :=
  ((faultDistances joined).filter fun d => decide (tol < gapOf d d0)).length

/-- The verdict of an OPEN record is issued (R186): the notice, then SETTLED with its hold-down. -/
def issueVerdict (s : State) (h : Nat) (r : OpenRound) (timedOut : Bool) : State :=
  let f := countNear s.cfg.block.tolerance r.openDist r.joined
  let g := countFar s.cfg.block.tolerance r.openDist r.joined
  let s1 := post s (.verdict h (decide (2 ≤ f)) f g timedOut r.joined.keys (existsSet s h))
  putRound s1 h (.settled ⟨r.openKind, r.openDist, r.openedAt, r.joined,
    after s (s.cfg.block.holdDown * 1000)⟩)

/-- The completion check of a group's record (R184). -/
def completionCheck (s : State) (h : Nat) : State :=
  match s.corr.find h with
  | some (.opened r) => if (existsSet s h).all r.joined.has then issueVerdict s h r false else s
  | some .idle => s
  | some (.settled _) => s
  | none => s

/-! ## The station's own report (R181, R182) -/

/-- The report R181's table chooses. -/
def ownReportOf (r : OpenRound) : Report :=
  match r.best with
  | some b => ⟨b.kind, some b.dist⟩
  | none => if r.seen then ⟨.clear, none⟩ else if r.allOut then ⟨.outOfRange, none⟩ else ⟨.outOfService, none⟩

/-- The station makes its own report in a round: FINDING offered, own id joined, completion check (R181). -/
def makeReport (s : State) (h : Nat) (r : OpenRound) : State :=
  let rep := ownReportOf r
  let s1 := offerFinding s h rep
  completionCheck
    (putRound s1 h (.opened { r with reported := true, joined := r.joined.put s.line.id rep })) h

/-- Whether candidate c replaces the best own finding (R181), d0 being the opening distance. -/
def betterBest (d0 : Nat) (best : Option Best) (c : Best) : Option Best :=
  match best with
  | none => some c
  | some b =>
    if c.kind = .brk ∧ b.kind = .bend then some c
    else if c.kind = b.kind ∧
        (gapOf c.dist d0 < gapOf b.dist d0 ∨
         (gapOf c.dist d0 = gapOf b.dist d0 ∧
          (c.dist < b.dist ∨ (c.dist = b.dist ∧ c.span < b.span)))) then some c
    else some b

/-- The record after the decision of a span (R181): `found` holds the BREAKs and BENDs of a completed comparison, none
when there was no comparison. -/
def decided (r : OpenRound) (span : Nat) (found : Option (List Best)) : OpenRound :=
  { r with
    outstanding := r.outstanding.erase span
    seen := r.seen || found.isSome
    best := (found.getD []).foldl (betterBest r.openDist) r.best }

/-- A confirm report or a withdrawal reaches the unit with a round reference, a span and a target (R181). It decides
the span if it matches; when the last outstanding span is decided, the own report is made. -/
def decideSpan (s : State) (span : Nat) (target round : Option Nat) (found : Option (List Best)) : State :=
  match round, target with
  | some h, some t =>
    match s.corr.find h with
    | some (.opened r) =>
      if r.outstanding.find span = some t then
        (if (decided r span found).outstanding.isEmpty then makeReport s h (decided r span found)
         else putRound s h (.opened (decided r span found)))
      else s
    | some .idle => s
    | some (.settled _) => s
    | none => s
  | _, _ => s

/-- The inability to sweep begins for one record (R182). -/
def unableRound (s : State) (h : Nat) : State :=
  match s.corr.find h with
  | some (.opened r) => if r.reported then s else makeReport s h { r with outstanding := [] }
  | some .idle => s
  | some (.settled _) => s
  | none => s

/-- The inability to sweep begins, at HALT, at entry to ISOLATED, at the setting of LASER_FAULT (R182): every OPEN
record without an own report makes it from what it gathered. No rule orders the records: the model takes them in ascending
group order (log 35). -/
def unableBegins (s : State) : State := s.corr.keys.foldl unableRound s

/-! ## Opening a round (R177, R179) -/

/-- The enabled spans of a sheath group, ascending. -/
def spansOfSheath (s : State) (h : Nat) : Table SpanRecord :=
  (enabledSpans s).filter fun e => decide (e.2.sheathGroup = h)

/-- The CONFIRM of a round for one of its spans (R47). -/
def raiseConfirm (s : State) (span t h : Nat) : State := raise s span ⟨.confirm, 3, some t, some h⟩

/-- The CONFIRM of an own round for one of the other spans, if its target is in range (R177 step 4). -/
def ownConfirm (h d own : Nat) (s : State) (e : Nat × SpanRecord) : State :=
  if e.1 ≠ own ∧ inCompRange e.2 (confirmTarget s.clock.spacing e.2 d) then
    raiseConfirm s e.1 (confirmTarget s.clock.spacing e.2 d) h
  else s

/-- An own finding opens the round of its group (R177). -/
def openOwnRound (s : State) (h span : Nat) (k : ReportKind) (d : Nat) : State :=
  let rep : Report := ⟨k, some d⟩
  let s1 := putRound (stopDoze s) h (.opened
    { openKind := k, openDist := d, openedAt := s.clock.tod, joined := [(s.line.id, rep)], outstanding := [],
      best := none, seen := false, reported := true,
      expiry := after s (s.cfg.block.roundTimeout * 1000), allOut := false })
  let s2 := offerFinding s1 h rep
  completionCheck ((spansOfSheath s2 h).foldl (ownConfirm h d span) s2) h

/-- A span is entered in the outstanding spans of its round (R179 step 4). -/
def enterSpan (s : State) (h span t : Nat) : State :=
  { s with corr := s.corr.adjust h fun
      | .opened r => .opened { r with outstanding := r.outstanding.put span t, allOut := false }
      | c => c }

/-- Step 4 of R179 for one span: in range, it becomes outstanding and its CONFIRM is raised. -/
def heardConfirm (h d : Nat) (s : State) (e : Nat × SpanRecord) : State :=
  if inCompRange e.2 (confirmTarget s.clock.spacing e.2 d) then
    raiseConfirm (enterSpan s h e.1 (confirmTarget s.clock.spacing e.2 d)) e.1
      (confirmTarget s.clock.spacing e.2 d) h
  else s

/-- Step 5 of R179: with no outstanding span the own report is made; else the completion check of step 6. -/
def reportIfDecided (s : State) (h : Nat) : State :=
  match s.corr.find h with
  | some (.opened r) => if r.outstanding.isEmpty then makeReport s h r else completionCheck s h
  | some .idle => s
  | some (.settled _) => s
  | none => s

/-- A heard BREAK or BEND from station x opens the round of its group (R179) and wakes a dozing clock unit (R36;
log 21). -/
def openHeardRound (s : State) (h x : Nat) (k : ReportKind) (d : Nat) : State :=
  let s1 := wake (putRound (stopDoze s) h (.opened
    { openKind := k, openDist := d, openedAt := s.clock.tod, joined := [(x, ⟨k, some d⟩)], outstanding := [],
      best := none, seen := false, reported := false,
      expiry := after s (s.cfg.block.roundTimeout * 1000), allOut := !unableToSweep s }))
  if unableToSweep s1 then reportIfDecided s1 h
  else reportIfDecided ((spansOfSheath s1 h).foldl (heardConfirm h d) s1) h

/-- A FINDING from station x is taken by the record of its group (R178). -/
def takeFinding (s : State) (x h : Nat) (rep : Report) : State :=
  match s.corr.find h with
  | some .idle =>
    (match rep.kind.isFault, rep.dist with
     | true, some d => openHeardRound s h x rep.kind d
     | _, _ => s)
  | some (.opened r) => completionCheck (putRound s h (.opened { r with joined := r.joined.put x rep })) h
  | some (.settled _) => s
  | none => s

/-! ## Peer-table changes (R152, R183, R184) -/

/-- The own FINDING is offered again when the own id is joined with BREAK or BEND (R183). -/
def reOffer (s : State) (h : Nat) (r : OpenRound) : State :=
  match r.joined.find s.line.id with
  | some rep => if rep.kind.isFault then offerFinding s h rep else s
  | none => s

/-- A peer-table change reaches one record: the re-offer if the change added a station to its exists set, then the
completion check. -/
def peerChangeRound (added : List Nat) (s : State) (h : Nat) : State :=
  match s.corr.find h with
  | some (.opened r) => completionCheck (if h ∈ added then reOffer s h r else s) h
  | some .idle => s
  | some (.settled _) => s
  | none => s

/-- A peer-table change is delivered (R152), for every OPEN record in ascending group order; `added` are the groups
whose exists set the change added a station to. -/
def peerTableChange (s : State) (added : List Nat) : State := s.corr.keys.foldl (peerChangeRound added) s

end Sys2Proof.Machine
end

