-- ==== Sys2Proof/Machine/Sweeps.lean ====
section
/-! DEFINITION. The life of a sweep: the switch (R68), selection, taking and resume (R55, R56, R60), a preparation given
up (R57), the end of a sweep (R85), aborts (R86, R87), suspension and the end of a suspended sweep (R59, R61, R62). -/

namespace Sys2Proof.Machine

/-! ## Engine and switch -/

/-- The engine enters a state; the sweep's phase follows (R66). -/
def enter (s : State) (st : EngineState) : State :=
  { s with engine := { s.engine with state := st, ctx := s.engine.ctx.map fun c => { c with phase := st } } }

/-- The running sweep's context changes. -/
def adjustCtx (s : State) (f : Ctx → Ctx) : State :=
  { s with engine := { s.engine with ctx := s.engine.ctx.map f } }

/-- The engine sends the switch to a port (R68). -/
def sendSwitch (s : State) (port : Nat) : State :=
  match s.switch with
  | .settled p => if p = port then s else { s with switch := .travelling port (after s Config.settleTime) }
  | .travelling p _ => if p = port then s else { s with switch := .travelling port (after s Config.settleTime) }
  | .unpositioned => { s with switch := .travelling port (after s Config.settleTime) }

/-- The acquired bins of a sweep: first and count (R66). -/
def acquiredBins (len : Nat) (window : Option (Nat × Nat)) : Nat × Nat := window.getD (0, len)

/-- The engine enters DARK with no dark shot taken (R74). -/
def enterDark (s : State) : State :=
  let s1 := enter s .dark
  { s1 with engine := { s1.engine with darkShots := 0, darkTotal := 0 } }

/-- PREPARING ends when the sweep is taken and the switch SETTLED on its port: DARK, or FULL for a resumed sweep
(R70). -/
def checkPrepared (s : State) : State :=
  match s.engine.ctx with
  | some c =>
    if s.engine.state = .preparing ∧ s.sched.selection = none ∧ s.switch = .settled c.span then
      (if c.resumed then enter s .full else enterDark s)
    else s
  | none => s

/-! ## Taking (R56, R66) -/

/-- The EDGE latch of the span is set. -/
def latchSet (s : State) (span : Nat) : Bool := decide (span ∈ s.alerts.latches)

/-- The kinds whose sweep starts with a quick look when the fingerprint is PRESENT (R66, R67). -/
def ReqKind.quick : ReqKind → Bool
  | .routine => true
  | .host => true
  | .alert => true
  | .confirm => false
  | .baseline => false

/-- The running sweep context at taking (R56, R66). -/
def newCtx (s : State) (span : Nat) (r : Request) (rec : SpanRecord) : Ctx :=
  { span := span, kind := r.kind, level := r.level
    window := if r.windowed then r.target.map (confirmWindow rec.len) else none
    target := if r.kind = .confirm then r.target else none
    round := if r.kind = .confirm then r.round else none
    phase := .preparing, litDone := 0, darkLevel := none, disturbed := 0
    quickOnly := r.kind.quick && decide (fpOf s span = .present)
    accSlot := s.acc.active, resumed := false, interleavedDue := false
    refPresent := decide (fpOf s span = .present), answersLatch := latchSet s span }

/-- The selected request of a span is taken: its slot is emptied, the context built and the active accumulator slot
claimed (R56, R95). -/
def takeSlot (s : State) (span : Nat) : State :=
  match s.sched.slots.find span, enabledRec s span with
  | some r, some rec =>
    let c := newCtx s span r rec
    let bins := acquiredBins rec.len c.window
    { s with
      sched := { s.sched with slots := s.sched.slots.erase span, selection := none }
      engine := { s.engine with ctx := some c }
      acc := s.acc.claim bins.1 bins.2 }
  | _, _ => s

/-- The claim of group g is OPEN (R160): the sweep that sought it is taken (R56, R70). -/
def claimOpened (s : State) (g : Nat) : State :=
  match s.sched.selection with
  | some (.slot n) => if lightGroupOf s n = g then checkPrepared (takeSlot s n) else s
  | some .save =>
    (match s.engine.ctx with
     | some c =>
       if lightGroupOf s c.span = g then checkPrepared { s with sched := { s.sched with selection := none } } else s
     | none => s)
  | none => s

/-! ## A preparation given up (R57, R60) -/

/-- The request returns to its slot, or the resumed context to the save slot, and the engine to IDLE. -/
def giveBack (s : State) : State :=
  match s.sched.selection with
  | some (.slot n) =>
    let s1 := adjustSlot s n fun r => { r with selected := false }
    { s1 with
      sched := { s1.sched with selection := none }
      engine := { s1.engine with state := .idle, ctx := none } }
  | some .save =>
    { s with
      sched := { s.sched with
        selection := none, save := s.engine.ctx.map fun c => { c with phase := .full }
        resumeExpiry := some (after s s.sched.resumeLeft) }
      engine := { s.engine with state := .idle, ctx := none }
      acc := s.acc.setAside }
  | none => s

/-! ## Selection (R55, R60) -/

/-- The group's claim is asked for at a level; a HELD entry gives the preparation back at once (R158). -/
def seekClaim (s : State) (g level : Nat) : State :=
  let s1 := askClaim s g level
  if isHeld s1 g then giveBack s1 else s1

/-- A pending request wins the selection: its mark is set and the engine enters PREPARING (R55, R70). -/
def beginSlot (s : State) (span level : Nat) : State :=
  let s1 := adjustSlot (stopDoze s) span fun r => { r with selected := true }
  let s2 := sendSwitch
    { s1 with
      sched := { s1.sched with selection := some (.slot span) }
      engine := { s1.engine with state := .preparing } } span
  if lightGroupOf s span = 0 then checkPrepared (takeSlot s2 span) else seekClaim s2 (lightGroupOf s span) level

/-- The suspended sweep wins the selection: it is resumed (R60, R97). -/
def beginResume (s : State) (c : Ctx) : State :=
  let s1 := stopDoze s
  let c1 := { c with resumed := true, phase := .preparing, answersLatch := c.answersLatch || latchSet s c.span }
  let s2 := sendSwitch
    { s1 with
      sched := { s1.sched with
        save := none, selection := some .save, resumeExpiry := none
        resumeLeft := (s.sched.resumeExpiry.getD s.clock.now) - s.clock.now }
      engine := { s1.engine with state := .preparing, ctx := some c1 }
      acc := s1.acc.bringBack } c.span
  if lightGroupOf s c.span = 0 then checkPrepared { s2 with sched := { s2.sched with selection := none } }
  else seekClaim s2 (lightGroupOf s c.span) c.level

/-- The pending candidate of highest level, and of lowest span number among those (R55). -/
def bestSlot (s : State) : Option (Nat × Nat) :=
  (s.sched.slots.filter fun e => slotCandidate s e.1 e.2).foldl
    (fun best e =>
      match best with
      | none => some (e.1, e.2.level)
      | some (n, l) => if l < e.2.level then some (e.1, e.2.level) else some (n, l)) none

/-- Selection (R53, R55), when the engine is IDLE: the candidate of highest level; at equal level the suspended sweep
before every pending request. -/
def select (s : State) : State :=
  if s.engine.state ≠ .idle then s
  else
    match s.sched.save, saveCandidate s, bestSlot s with
    | some c, true, some (n, l) => if l ≤ c.level then beginResume s c else beginSlot s n l
    | some c, true, none => beginResume s c
    | _, _, some (n, l) => beginSlot s n l
    | _, _, none => s

/-- A row's step ends with an occasion for selection (R53; log 4). -/
def settleSelect (s : State) : State := settle (select s)

/-! ## The end of a sweep (R85) -/

/-- Outcomes that write the comparison part, if a comparison was made (R127). -/
def SweepOutcome.writesComparison : SweepOutcome → Bool
  | .clean => true
  | .changed => true
  | .broken => true
  | .baselined => true
  | .noReference => false
  | .foreignLight => false
  | .disturbed => false
  | .overload => false
  | .fault => false
  | .abandoned => false
  | .aborted => false

/-- The comparison that a sweep's end writes (R127). -/
def writtenPart (s : State) (o : SweepOutcome) : Option Comparison :=
  if o.writesComparison then s.comp.working else none

/-- The held offset after a result is written (R113). -/
def heldAfter (kind : ReqKind) (w : Option Comparison) (old : Option Int) : Option Int :=
  match w with
  | some x => if x.unanchored ∨ kind = .baseline then old else some x.offset
  | none => old

/-- Step 1 of R85: the latest part, and the comparison part when there is one to write (R126, R127). -/
def writeResult (s : State) (c : Ctx) (o : SweepOutcome) (lit : Nat) : State :=
  let w := writtenPart s o
  adjustResult s c.span fun r =>
    { r with
      latest := some ⟨o, c.kind, c.level, s.clock.tod, lit, c.darkLevel⟩
      comparison := match w with
        | some x => some x
        | none => r.comparison
      held := heldAfter c.kind w r.held }

/-- The kind a BREAK or BEND event reports. -/
def eventReport : EventKind → Option ReportKind
  | .brk => some .brk
  | .bend => some .bend
  | .reflection => none
  | .gain => none

/-- The BREAKs and BENDs of an event list, as candidates with their sheath distances (R131). -/
def faultsOf (rec : SpanRecord) (span : Nat) (evs : List Event) : List Best :=
  evs.filterMap fun e => (eventReport e.kind).map fun k => ⟨k, sheathDistance rec e.distance, span⟩

/-- The confirm report of a CONFIRM's end (R131). -/
def confirmReport (s : State) (c : Ctx) (w : Option Comparison) : State :=
  if c.kind = .confirm then
    match enabledRec s c.span with
    | some rec => decideSpan s c.span c.target c.round (w.map fun x => faultsOf rec c.span x.events)
    | none => s
  else s

/-- The event a finding names: the BREAK, else the BEND of lowest bin (R130). -/
def namedEvent (evs : List Event) : Option Event :=
  match evs.find? Event.isBreak with
  | some e => some e
  | none => evs.find? fun e => decide (e.kind = .bend)

/-- The record of a group is IDLE. -/
def roundIdle (s : State) (h : Nat) : Bool := decide (s.corr.find h = some .idle)

/-- The finding decision (R129) and, if a finding is made, its round (R130, R177). -/
def findingDecision (s : State) (c : Ctx) (o : SweepOutcome) (w : Option Comparison) : State :=
  match w, enabledRec s c.span with
  | some x, some rec =>
    if c.kind ≠ .baseline ∧ (o = .broken ∨ o = .changed) ∧ rec.sheathGroup ≠ 0 ∧ roundIdle s rec.sheathGroup then
      match namedEvent x.events with
      | some e =>
        openOwnRound s rec.sheathGroup c.span (if e.isBreak then .brk else .bend) (sheathDistance rec e.distance)
      | none => s
    else s
  | _, _ => s

/-- Step 5 of R85: slot released, context emptied, engine IDLE. -/
def clearEngine (s : State) : State :=
  { s with
    engine := { s.engine with state := .idle, ctx := none }
    sched := { s.sched with selection := none }
    acc := s.acc.release
    comp := { s.comp with working := none } }

/-- The sweep in the engine ends with an outcome; `pre` are the notices posted before SWEEP_DONE (R85). -/
def endSweep (s : State) (o : SweepOutcome) (pre : List NoticeBody) : State :=
  match s.engine.ctx with
  | some c =>
    let w := writtenPart s o
    let s1 := postAll (writeResult s c o s.acc.current.lit) (pre ++ [.sweepDone c.span o])
    clearEngine (sweepOver (findingDecision (confirmReport s1 c w) c o w) c)
  | none => s

/-! ## Aborts (R86, R87) -/

/-- The claim of the sweep in the engine: given up while it is sought, released once it is taken (R87, R166, R167). -/
def dropClaim (s : State) (span : Nat) : State :=
  if isUntaken s then giveUpClaim s (lightGroupOf s span) else releaseClaim s (lightGroupOf s span)

/-- A baseline write in progress is stopped (R12). -/
def stopWrite (s : State) (span : Nat) : State :=
  if s.engine.state = .storing then setFp (cutCopy s span) span .absent else s

/-- The notice of a baseline write that was stopped (R12, R85). -/
def writeCutNotice (s : State) (span : Nat) : List NoticeBody :=
  if s.engine.state = .storing then [.fpLost span .writeCut] else []

/-- A reduction in flight is stopped (R106), and the comparator's working result is dropped (R109). -/
def stopReduction (s : State) : State :=
  { s with
    trace := if s.trace.state = .filling then emptyTrace else s.trace
    comp := { s.comp with working := none } }

/-- The sweep in the engine is aborted with an outcome (R87). -/
def abort (s : State) (o : SweepOutcome) (pre : List NoticeBody) : State :=
  match s.engine.ctx with
  | some c =>
    endSweep (stopReduction (stopWrite (dropClaim s c.span) c.span)) o (pre ++ writeCutNotice s c.span)
  | none => s

/-- An abort cause that reaches every sweep: HALT, entry to ISOLATED (R71, R86). An untaken sweep's preparation is given
up with its claim, a taken sweep is aborted. -/
def stopSweep (s : State) (o : SweepOutcome) (pre : List NoticeBody) : State :=
  if isUntaken s then
    match engineSpan s with
    | some span => giveBack (giveUpClaim s (lightGroupOf s span))
    | none => s
  else abort s o pre

/-! ## Suspension (R58, R59) and the end of a suspended sweep (R61, R62) -/

/-- The running sweep is set aside (R59). -/
def suspend (s : State) : State :=
  match s.engine.ctx with
  | some c =>
    let s1 := releaseClaim
      { s with
        sched := { s.sched with save := some { c with phase := .full } }
        engine := { s.engine with ctx := none }
        acc := s.acc.setAside } (lightGroupOf s c.span)
    { s1 with
      sched := { s1.sched with resumeExpiry := some (after s (s.cfg.block.resumeLimit * 1000)) }
      engine := { s1.engine with state := .idle } }
  | none => s

/-- The suspension check at a block boundary (R58). -/
def mustSuspend (s : State) (c : Ctx) : Bool :=
  decide (c.level < 3) && !c.resumed && s.sched.save.isNone && urgentElsewhere s c.span

/-- The suspended sweep ends with ABANDONED or ABORTED (R61, R62). -/
def endSuspended (s : State) (o : SweepOutcome) : State :=
  match s.sched.save with
  | some c =>
    let s1 := { s with
      sched := { s.sched with save := none, resumeExpiry := none, resumeLeft := 0 }
      acc := s.acc.discardSaved }
    let s2 := post (writeResult s1 c o c.litDone) (.sweepDone c.span o)
    sweepOver (confirmReport s2 c none) c
  | none => s

end Sys2Proof.Machine
end

