-- ==== Sys2Proof/Machine/Resets.lean ====
section
/-! DEFINITION. The two resets (the reset tables of chapters 1 to 10): COLD_RESET and WARM_RESET. -/

namespace Sys2Proof.Machine

/-- The outcome type of a meaning. -/
abbrev Result := Host.Outcome State Fault Refusal

/-- What every reset leaves: the cold-reset values, but for the commands that wait outside, the reference input (log 28),
the alert lines, which are pins (log 6), the id sampled from the straps (R143) and the model's counter. -/
def resetValues (straps : BitVec 5) (s : State) : State :=
  { State.reset with
    pending := s.pending
    reference := s.reference
    alerts := { State.reset.alerts with asserted := s.alerts.asserted }
    line := { State.reset.line with id := straps.toNat }
    free := s.free + 1 }

/-- The store that a warm reset finds: a baseline write in progress has been stopped, what it had copied stays in the
pages (R12; log 8). -/
def stoppedStore (s : State) : Store :=
  if s.engine.state = .storing then
    match s.engine.ctx with
    | some c => (cutCopy s c.span).store
    | none => s.store
  else s.store

/-- The station after a warm reset: page contents and directory are kept (R5, R6), and so is LASER_FAULT (R90). -/
def warmValues (straps : BitVec 5) (s : State) : State :=
  let r := resetValues straps s
  { r with
    store := { r.store with mem := (stoppedStore s).mem, dir := (stoppedStore s).dir }
    engine := { r.engine with laserFault := s.engine.laserFault } }

/-- COLD_RESET: every block returns to its cold-reset values; page contents are undefined (R5, R193). -/
def execColdReset (straps : BitVec 5) (s : State) : Result := .next (resetValues straps s)

/-- WARM_RESET: as a cold reset, but the page directory, page contents and LASER_FAULT are kept (R143, R90). -/
def execWarmReset (straps : BitVec 5) (s : State) : Result := .next (warmValues straps s)

end Sys2Proof.Machine
end

