-- ==== Sys2Proof/Machine/AlertRows.lean ====
section
/-! DEFINITION. The alert inputs' events (R44 to R46): assertion and release of a line, expiry of a re-raise timer. -/

namespace Sys2Proof.Machine

/-- An EDGE input sees an assertion (R44): with the latch clear and no off mark, the latch is set and an ALERT
raised. -/
def edgeAssert (s : State) (span : Nat) : State :=
  if alertModeOfSpan s span = .edge ∧ isOff s span = false ∧ span ∉ s.alerts.latches then
    raiseAlert { s with alerts := { s.alerts with latches := insertAsc span s.alerts.latches } } span
  else s

/-- The line of a span is asserted. -/
def assertLine (s : State) (span : Nat) : State :=
  { s with alerts := { s.alerts with asserted := insertAsc span s.alerts.asserted } }

/-- ALERT_LINE_ASSERTED: a change from released to asserted (R44 to R46). -/
def execAlertLineAsserted (span : Nat) (s : State) : Result :=
  .next <|
    if span ∈ s.alerts.asserted then s
    else
      match alertModeOfSpan s span with
      | .off => assertLine s span
      | .edge => settleSelect (edgeAssert (assertLine s span) span)
      | .level => settleSelect (levelTest (assertLine s span) span)

/-- ALERT_LINE_RELEASED: no latch and no timer changes (R44, R45). -/
def execAlertLineReleased (span : Nat) (s : State) : Result :=
  .next { s with alerts := { s.alerts with asserted := removeFrom span s.alerts.asserted } }

/-- The re-raise timer of a span has run out. -/
def reRaiseDue (s : State) (span : Nat) : Bool := isDue s (s.alerts.timers.find span)

/-- RE_RAISE_TIMER_EXPIRY: the timer stops, and the test of R45 is made. -/
def execReRaiseTimerExpiry (span : Nat) (s : State) : Result :=
  .next <|
    if reRaiseDue s span then
      settleSelect (levelTest
        { s with alerts := { s.alerts with timers := s.alerts.timers.erase span } } span)
    else s

end Sys2Proof.Machine
end

