-- ==== Sys2Proof/Machine/ClockRows.lean ====
section
/-! DEFINITION. The clock and time unit's events (chapter 2): END_OF_LOCKING, WINDOW_START, WINDOW_END, DOZE_ENTRY. An
event that has not come due leaves the state as it is (log 3). -/

namespace Sys2Proof.Machine

/-! ## The end of LOCKING (R24, R37) -/

/-- The 2 ms of LOCKING have run. -/
def lockingOver (s : State) : Bool := decide (s.clock.state = .locking) && isDue s s.clock.lockExpiry

/-- The clock unit enters AWAKE, the accumulator is reset (R94), the engine becomes IDLE (R24). -/
def enterAwake (s : State) : State :=
  { s with
    clock := { s.clock with state := .awake, lockExpiry := none }
    engine := { s.engine with state := .idle }
    acc := emptyAcc }

/-- END_OF_LOCKING (R24): AWAKE, then selection. -/
def execEndOfLocking (s : State) : Result :=
  .next <| if lockingOver s then settleSelect (enterAwake s) else s

/-! ## The quiet window (R30 to R33, R63) -/

/-- The time of day has reached quiet start (R30). -/
def windowOpens (s : State) : Bool :=
  decide (s.clock.phase = .outside) && decide (phaseAt s.cfg.block s.clock.tod = .inside)

/-- The time of day has reached quiet end (R32). -/
def windowCloses (s : State) : Bool :=
  decide (s.clock.phase = .inside) && decide (phaseAt s.cfg.block s.clock.tod = .outside)

/-- The phase and the mask that goes with it (R33). -/
def setPhase (s : State) (p : Phase) : State :=
  { s with clock := { s.clock with phase := p, mask := maskOf s.cfg.block p } }

/-- A countdown at a window start: reduced by 1, and set back to N when it reaches 0 (R31). -/
def nextCountdown (s : State) (e : Nat × Nat) : Nat × Nat :=
  if e.2 ≤ 1 then (e.1, ((enabledRec s e.1).map (·.cycle)).getD 0) else (e.1, e.2 - 1)

/-- The spans whose countdown reaches 0 at this window start, ascending (R31, R42). -/
def dueSpans (s : State) : List Nat := Table.keys (s.clock.countdowns.filter fun e => decide (e.2 ≤ 1))

/-- A ROUTINE request at level 0 (R42). -/
def raiseRoutine (s : State) (span : Nat) : State := raise s span ⟨.routine, 0, none, none⟩

/-- The window opens, in the order of R30. -/
def openWindow (s : State) : State :=
  let s1 := setPhase s .inside
  let s2 := { s1 with clock := { s1.clock with countdowns := s.clock.countdowns.map (nextCountdown s) } }
  stopDoze (wake ((dueSpans s).foldl raiseRoutine s2))

/-- WINDOW_START (R30). -/
def execWindowStart (s : State) : Result :=
  .next <| if windowOpens s then settleSelect (openWindow s) else s

/-- The spans whose pending ROUTINE window end cancels (R63). -/
def cancelled (s : State) : List Nat :=
  Table.keys (s.sched.slots.filter fun e => decide (e.2.kind = .routine) && !e.2.selected)

/-- One cancellation: the slot is emptied and counted, up to 255 (R63). -/
def cancelRoutine (s : State) (span : Nat) : State :=
  adjustResult (emptySlotOf s span) span fun r => { r with missed := min 255 (r.missed + 1) }

/-- The window closes: cancellations, one WINDOW_END notice, and the test of R45 for each emptied slot (R32, R63). -/
def closeWindow (s : State) : State :=
  let spans := cancelled s
  spans.foldl levelTest (post (spans.foldl cancelRoutine (setPhase s .outside)) (.windowEnd spans.length))

/-- WINDOW_END (R32). -/
def execWindowEnd (s : State) : Result :=
  .next <| if windowCloses s then settleSelect (closeWindow s) else s

/-! ## Doze entry (R35, R18, R19) -/

/-- The doze delay timer has run out with every condition of R34 holding. -/
def dozeDue (s : State) : Bool := isDue s s.clock.dozeExpiry && dozeConditions s

/-- The clock unit dozes: engine OFF, accumulator and result trace lost (R35, R97). DESIGN CHOICE: slot 0 has the active
role already from here on; R94 gives it that role at the end of LOCKING, and no rule says which slot has it before (log
11). -/
def enterDoze (s : State) : State :=
  { s with
    clock := { s.clock with state := .dozing, dozeExpiry := none }
    engine := { s.engine with state := .off }
    acc := emptyAcc
    trace := emptyTrace }

/-- Retention loss of one span (R18). -/
def loseSpan (s : State) (e : Nat × SpanRecord) : State :=
  if fpOf s e.1 = .present ∧ s.cfg.block.retainsSpan e.2 = false then
    removeHeld (post (setFp (clearDir s e.1) e.1 .absent) (.fpLost e.1 .retention)) e.1
  else s

/-- An open host load with a page that is not retained is cancelled (R19). -/
def loseLoad (s : State) : State :=
  match s.store.load with
  | some l =>
    (match enabledRec s l.span with
     | some r =>
       if s.cfg.block.retainsSpan r then s
       else
         let s1 := post (setFp s l.span .absent) (.fpLost l.span .loadCancelled)
         { s1 with store := { s1.store with load := none } }
     | none => s)
  | none => s

/-- The contents of every bank that is not retained become undefined (R5, R20): their cells are no longer listed, and
the model's counter advances (log 7). -/
def losePages (s : State) : State :=
  bumpFree { s with store := { s.store with
    mem := s.store.mem.filter fun e => s.cfg.block.retains (bankOf (e.1 / Config.pageLevels)) } }

/-- The station dozes: the store's losses, then the PRESENCE that shows DOZING (R18, R19, R35, R147). No rule orders the
notices of R18 against that of R19: the model posts every RETENTION first, then LOAD_CANCELLED (log 33). -/
def fallAsleep (s : State) : State :=
  offerPresence (losePages (loseLoad ((enabledSpans s).foldl loseSpan (enterDoze s))))

/-- DOZE_ENTRY (R35). A cancelled load may lift the last bar of a pending request: the station then wakes at once
(R36). -/
def execDozeEntry (s : State) : Result := .next <| if dozeDue s then settle (fallAsleep s) else s

end Sys2Proof.Machine
end

