-- ==== Sys2Proof/Machine/EngineRows.lean ====
section
/-! DEFINITION. The events of the switch, the engine, the reducer, the comparator and the store (chapters 4 to 6): a
sweep step by step, its completion, and the laser driver's reports. An event that cannot come in the present engine state leaves
the state as it is (log 3). -/

namespace Sys2Proof.Machine

/-- The running sweep with its span's record, when the engine is in one of the states. -/
def sweepIn (s : State) (sts : List EngineState) : Option (Ctx × SpanRecord) :=
  match s.engine.ctx with
  | some c => if s.engine.state ∈ sts then (enabledRec s c.span).map fun r => (c, r) else none
  | none => none

/-- The sum of a shot's samples over the acquired bins (R98). -/
def shotTotal (c : Ctx) (r : SpanRecord) (xs : List Adc) : Nat :=
  (acquired (acquiredBins r.len c.window).1 (acquiredBins r.len c.window).2 xs).sum

/-- The number of acquired bins. -/
def binCount (c : Ctx) (r : SpanRecord) : Nat := (acquiredBins r.len c.window).2

/-! ## The switch (R68, R70) -/

/-- SWITCH_SETTLE_EXPIRY: the switch is SETTLED on its target, and PREPARING may be complete (R68, R70). -/
def execSwitchSettleExpiry (s : State) : Result :=
  .next <|
    match s.switch with
    | .travelling p e =>
      if e ≤ s.clock.now then checkPrepared { s with switch := .settled p } else s
    | .settled _ => s
    | .unpositioned => s

/-! ## Dark shots (R74, R98) -/

/-- An initial dark shot is counted, and its samples summed. -/
def countDark (s : State) (total : Nat) : State :=
  { s with engine := { s.engine with
      darkShots := s.engine.darkShots + 1, darkTotal := s.engine.darkTotal + total } }

/-- The 16 initial dark shots are taken: D is written, the total discarded, and the engine goes on (R74). -/
def darkDone (s : State) (c : Ctx) (d : Nat) : State :=
  let s1 := adjustCtx s fun x => { x with darkLevel := some d }
  let s2 := { s1 with engine := { s1.engine with darkShots := 0, darkTotal := 0 } }
  if s.cfg.block.foreignLight < d then
    settleSelect (endSweep (releaseClaim s2 (lightGroupOf s c.span)) .foreignLight [])
  else if c.quickOnly then enter s2 .quick
  else enter s2 .full

/-- One dark shot in DARK; the 16th gives D. -/
def darkShot (s : State) (c : Ctx) (r : SpanRecord) (xs : List Adc) : State :=
  let s1 := countDark s (shotTotal c r xs)
  if s1.engine.darkShots < Config.darkShots then s1
  else darkDone s1 c (darkLevelOf s1.engine.darkTotal (binCount c r))

/-- DARK_SHOT_COMPLETE (R74). -/
def execDarkShotComplete (samples : List Adc) (s : State) : Result :=
  .next <|
    match sweepIn s [.dark] with
    | some (c, r) => if samples.length = r.len then darkShot s c r samples else s
    | none => s

/-! ## Lit shots (R75, R77, R96) -/

/-- The descriptor of a reduction (R99, R100). Its saturated count is 0 until R105 writes it (log 34). -/
def descriptorOf (c : Ctx) (r : SpanRecord) : TraceDesc :=
  ⟨c.span, r.len, if c.quickOnly then Config.quickLog else r.shots, c.darkLevel.getD 0, c.window, 0⟩

/-- The engine enters REDUCING, and the reducer FILLING (R83, R100), with no entry listed until REDUCTION_COMPLETE writes
them all (log 34). -/
def enterReducing (s : State) (c : Ctx) (r : SpanRecord) : State :=
  let s1 := enter s .reducing
  { s1 with trace := ⟨.filling, some (descriptorOf c r), []⟩ }

/-- The shot is added to the active slot, and counted in the context (R96, R77). -/
def addLit (s : State) (xs : List Adc) : State :=
  let s1 := adjustCtx s fun x => { x with litDone := x.litDone + 1 }
  { s1 with acc := s.acc.adjust s.acc.active fun sl => sl.addShot xs }

/-- What follows a lit shot of the quick look (R75). -/
def afterQuickShot (s : State) (c : Ctx) (r : SpanRecord) : State :=
  if c.litDone + 1 = Config.quickShots then enterReducing s c r else s

/-- What follows a lit shot of a full acquisition (R77, R81). -/
def afterFullShot (s : State) (c : Ctx) (r : SpanRecord) : State :=
  if 2 ^ r.shots ≤ c.litDone + 1 then
    enterReducing (releaseClaim s (lightGroupOf s c.span)) c r
  else if (c.litDone + 1) % Config.darkEvery = 0 then
    adjustCtx s fun x => { x with interleavedDue := true }
  else s

/-- LIT_SHOT_COMPLETE (R96): only while the laser may fire (R73) and no interleaved dark shot comes first (R77). -/
def execLitShotComplete (samples : List Adc) (s : State) : Result :=
  .next <|
    match sweepIn s [.quick, .full] with
    | some (c, r) =>
      if samples.length = r.len ∧ mayFire s c = true ∧ c.interleavedDue = false then
        (if s.engine.state = .quick then afterQuickShot (addLit s samples) c r
         else afterFullShot (addLit s samples) c r)
      else s
    | none => s

/-! ## Interleaved dark shots and block boundaries (R78, R79, R58) -/

/-- The consecutive disturbed dark count after a dark shot with a given mean (R78). -/
def disturbedAfter (s : State) (c : Ctx) (mean : Nat) : Nat :=
  if c.darkLevel.getD 0 + s.cfg.block.disturbance < mean then c.disturbed + 1 else 0

/-- The block boundary (R58, R79). -/
def boundary (s : State) (c : Ctx) : State :=
  if c.litDone % Config.blockShots = 0 ∧ mustSuspend s c = true then suspend s else s

/-- An interleaved dark shot with a given mean: a second disturbed one in succession ends the sweep DISTURBED (R78);
otherwise a block boundary may follow. -/
def checkDark (s : State) (c : Ctx) (mean : Nat) : State :=
  let n := disturbedAfter s c mean
  let s1 := adjustCtx s fun x => { x with interleavedDue := false, disturbed := n }
  if 2 ≤ n then abort s1 .disturbed [] else boundary s1 { c with interleavedDue := false, disturbed := n }

/-- INTERLEAVED_DARK_SHOT_CHECK (R78). -/
def execInterleavedDarkShotCheck (samples : List Adc) (s : State) : Result :=
  .next <|
    match sweepIn s [.full] with
    | some (c, r) =>
      if samples.length = r.len ∧ c.interleavedDue = true then
        settleSelect (checkDark s c (darkMean (shotTotal c r samples) (binCount c r)))
      else s
    | none => s

/-! ## Reduction (R100 to R105) -/

/-- The result trace that a reduction writes. -/
def reducedTrace (s : State) (d : TraceDesc) (c : Ctx) (r : SpanRecord) : ResultTrace :=
  let es := reduceEntries d.len d.n d.darkLevel s.acc.current
  let range := compRange r c.window
  ⟨.valid, some { d with saturated := countSaturated es range.1 range.2 }, es⟩

/-- OVERLOAD ends the sweep without a comparison (R75, R105). -/
def overloaded (s : State) (c : Ctx) : State :=
  settleSelect (endSweep (releaseClaim s (lightGroupOf s c.span)) .overload [])

/-- The reducer reports its verdict (R105). -/
def reduce (s : State) (d : TraceDesc) (c : Ctx) (r : SpanRecord) : State :=
  let t := reducedTrace s d c r
  let s1 := { s with trace := t }
  if Config.overloadLimit < (t.desc.map (·.saturated)).getD 0 then overloaded s1 c else s1

/-- REDUCTION_COMPLETE (R105). -/
def execReductionComplete (s : State) : Result :=
  .next <|
    match sweepIn s [.reducing], s.trace.state, s.trace.desc with
    | some (c, r), .filling, some d => reduce s d c r
    | _, _, _ => s

/-! ## Comparison (R109, R75, R76, R83, R84) -/

/-- The held offset of a span (R113). -/
def heldOf (s : State) (span : Nat) : Option Int :=
  match s.comp.results.find span with
  | some r => r.held
  | none => none

/-- The comparison of the running sweep against its span's fingerprint, with θ = 2τ for a quick look (R109, R124). -/
def problemOf (s : State) (c : Ctx) (r : SpanRecord) : Problem :=
  let range := compRange r c.window
  { trace := s.trace.entries, fingerprint := (List.range r.len).map (readLevel s r), anchor := r.anchor
    first := range.1, last := range.2, theta := if c.quickOnly then 2 * r.tau else r.tau
    rho := s.cfg.block.reflection, floorLevel := s.cfg.block.floorLevel, spacing := s.clock.spacing
    held := heldOf s c.span }

/-- The working result of the comparison in progress. -/
def compared (s : State) (c : Ctx) (r : SpanRecord) : Comparison :=
  (problemOf s c r).result s.clock.tod c.window.isSome c.quickOnly

/-- The comparator keeps its working result until the engine disposes of it (R109). -/
def keepWorking (s : State) (w : Comparison) : State := { s with comp := { s.comp with working := some w } }

/-- Escalation (R76). -/
def escalate (s : State) : State :=
  let s1 := enter (adjustCtx s fun x => { x with litDone := 0, quickOnly := false, interleavedDue := false }) .full
  { s1 with acc := s.acc.adjust s.acc.active AccSlot.clear, comp := { s.comp with working := none } }

/-- A quick comparison with no event ends the sweep CLEAN; its claim is released (R75). -/
def quickClean (s : State) (c : Ctx) (w : Comparison) : State :=
  settleSelect (endSweep (releaseClaim (keepWorking s w) (lightGroupOf s c.span)) .clean [])

/-- The baseline write begins (R10, R84). -/
def enterStoring (s : State) (span : Nat) : State :=
  enter (removeHeld (setFp (clearDir s span) span .writing) span) .storing

/-- What the engine does with the report of a full comparison, or with NO_REFERENCE (R83). -/
def afterComparison (s : State) (c : Ctx) (w : Option Comparison) : State :=
  let s1 := { s with comp := { s.comp with working := w } }
  if c.kind = .baseline then enterStoring s1 c.span
  else
    settleSelect (endSweep s1
      (match w with
       | some x => x.outcome
       | none => .noReference) [])

/-- The comparator reports (R109). -/
def finishComparison (s : State) (c : Ctx) (r : SpanRecord) : State :=
  if c.refPresent then
    (if c.quickOnly then
      (if (compared s c r).events.isEmpty then quickClean s c (compared s c r) else escalate s)
     else afterComparison s c (some (compared s c r)))
  else afterComparison s c none

/-- COMPARISON_COMPLETE (R109). -/
def execComparisonComplete (s : State) : Result :=
  .next <|
    match sweepIn s [.reducing] with
    | some (c, r) => if s.trace.state = .valid then finishComparison s c r else s
    | none => s

/-! ## The baseline write (R10, R11) -/

/-- The last bin is stored: the directory entries are set and the span is PRESENT (R11). -/
def writeComplete (s : State) (span : Nat) (r : SpanRecord) : State :=
  setFp (setDir (copyTrace s span s.trace.entries.length) span r) span .present

/-- BASELINE_WRITE_COMPLETE (R11, R84). -/
def execBaselineWriteComplete (s : State) : Result :=
  .next <|
    match sweepIn s [.storing] with
    | some (c, r) => settleSelect (endSweep (writeComplete s c.span r) .baselined [])
    | none => s

/-! ## The resume timer (R61) -/

/-- RESUME_TIMER_EXPIRY: the suspended sweep is abandoned (R61). -/
def execResumeTimerExpiry (s : State) : Result :=
  .next <|
    if isDue s s.sched.resumeExpiry && s.sched.save.isSome then settleSelect (endSuspended s .abandoned) else s

/-! ## The laser driver (R89) -/

/-- The engine states in which a laser fault ends a taken sweep (R86). -/
def faultEnds (s : State) : Bool :=
  match s.engine.ctx, s.engine.state with
  | some c, .reducing => c.quickOnly
  | some _, .preparing => true
  | some _, .dark => true
  | some _, .quick => true
  | some _, .full => true
  | some _, .storing => false
  | some _, .idle => false
  | some _, .off => false
  | none, _ => false

/-- The effect of a laser fault report on the sweep in the engine, with the notices that come first (R71, R85, R86). -/
def faultOnSweep (s : State) (pre : List NoticeBody) : State :=
  if isUntaken s then stopSweep (postAll s pre) .fault []
  else if faultEnds s then abort s .fault pre
  else postAll s pre

/-- A laser fault report (R89): from a clear flag it sets LASER_FAULT with its notice, and the inability to sweep begins
(R182); engine first, then corroboration (log 19). -/
def takeFault (s : State) (code : LaserCode) : State :=
  let s1 := { s with engine := { s.engine with condition := true } }
  match s.engine.laserFault with
  | some _ => faultOnSweep s1 []
  | none =>
    unableBegins (faultOnSweep { s1 with engine := { s1.engine with laserFault := some code } }
      [.laserFault ((engineSpan s).getD 0) code])

/-- LASER_FAULT_REPORT (R89): the driver reports only while the clock unit is AWAKE. -/
def execLaserFaultReport (code : LaserCode) (s : State) : Result :=
  .next <| if s.clock.state = .awake then settleSelect (takeFault s code) else s

/-- LASER_FAULT_CONDITION_CLEARS (R89): only while the clock unit is AWAKE. -/
def execLaserFaultConditionClears (s : State) : Result :=
  .next <| if s.clock.state = .awake then { s with engine := { s.engine with condition := false } } else s

end Sys2Proof.Machine
end

