-- ==== Sys2Proof/Machine/Deliveries.lean ====
section
/-! DEFINITION. Delivery of the oldest frame of the inbox to the block that owns its kind (R142): PRESENCE (R149), CLAIM,
HOLD and RELEASE (R161 to R164), FINDING (R178). With no frame of the row's kind at the front the state stays as it is
(log 3). -/

namespace Sys2Proof.Machine

/-! ## The inbox (R142, R150) -/

/-- The oldest frame leaves the inbox. -/
def popInbox (s : State) : State := { s with line := { s.line with inbox := s.line.inbox.drop 1 } }

/-- A peer entry as a frame refreshes it (R148, R150). -/
def refreshed (f : RxFrame) (p : Peer) : Peer :=
  { p with lastHeard := f.arrivalTod, ageExpiry := f.arrival + Config.peerLifetime }

/-- The frame leaves the inbox, and the sender's peer entry, if it has one, is refreshed (R142, R150). -/
def deliver (s : State) (f : RxFrame) : State :=
  let s1 := popInbox s
  { s1 with peers := { s1.peers with table := s1.peers.table.adjust f.sender (refreshed f) } }

/-! ## PRESENCE (R149, R152) -/

/-- The peer entry that a PRESENCE creates or replaces (R149). -/
def peerOf (f : RxFrame) (st : PresenceState) (groups : List Nat) : Peer :=
  ⟨f.arrivalTod, st, groups, f.arrival + Config.peerLifetime⟩

/-- The entry of the sender becomes p. -/
def putPeer (s : State) (x : Nat) (p : Peer) : State :=
  { s with peers := { s.peers with table := s.peers.table.put x p } }

/-- The notices of a changed entry, STATE_CHANGED first (R149). -/
def changeNotices (x : Nat) (old new : Peer) : List NoticeBody :=
  (if old.state = new.state then [] else [.peerChange x .stateChanged]) ++
  (if old.groups = new.groups then [] else [.peerChange x .groupsChanged])

/-- A PRESENCE of a station is handled (R149): notices first, then the peer-table change, if it is one (R152). -/
def takePresence (s : State) (x : Nat) (p : Peer) : State :=
  match s.peers.table.find x with
  | none => peerTableChange (post (putPeer s x p) (.peerChange x .joined)) p.groups
  | some old =>
    let s1 := postAll (putPeer s x p) (changeNotices x old p)
    if old.groups = p.groups then s1
    else peerTableChange s1 (p.groups.filter fun g => decide (g ∉ old.groups))

/-- PRESENCE_DELIVERED (R149). -/
def execPresenceDelivered (s : State) : Result :=
  .next <|
    match s.line.inbox with
    | f :: _ =>
      (match f.body with
       | .presence st gs => settle (takePresence (popInbox s) f.sender (peerOf f st (ascSet gs)))
       | _ => s)
    | [] => s

/-! ## CLAIM and HOLD (R161 to R164) -/

/-- The own claim on g loses contention to X: withdrawn, and the preparation given up (R162, R57, R60). -/
def withdraw (s : State) (g x level arrival : Nat) : State :=
  settleSelect (giveBack (withdrawClaim s g x level arrival))

/-- The station answers with a HOLD at its own level (R162 to R164). -/
def answerHold (s : State) (g own : Nat) : State := offer s own (.hold g own)

/-- A CLAIM from X for g at a level (R161 to R163). -/
def takeClaim (s : State) (g x level arrival : Nat) : State :=
  match s.claims.find g with
  | some e =>
    (match e.state with
     | .free => settle (recordHolder s g x level arrival)
     | .held .. => settle (recordHolder s g x level arrival)
     | .claiming own _ =>
       if peerWins s.line.id x level own then withdraw s g x level arrival else answerHold s g own
     | .opened own _ => answerHold s g own)
  | none => s

/-- The sweep is firing the last lit shot of a full acquisition (R77, R81). -/
def onLastShot (s : State) (c : Ctx) (r : SpanRecord) : Bool :=
  mayFire s c && !c.interleavedDue && decide (c.litDone + 1 = 2 ^ r.shots)

/-- A conflict comes with the end of the last lit shot (R81, R166): whether the shot has just ended, and so counts, is a
free value, as are its samples, which nothing reads; the claim is not yet released (log 31). -/
def endLastShot (s : State) : State :=
  match sweepIn s [.full] with
  | some (c, r) =>
    if onLastShot s c r then
      bumpFree (if Config.lastShotEnded s.free then addLit s ((List.range r.len).map (Config.endedSample s.free)) else s)
    else s
  | none => s

/-- A conflict on an OPEN entry that the peer wins: the sweep ends DISTURBED (R164, R86), with 2^k lit shots when it is
taken just as the last one has ended (R81, R166). -/
def loseConflict (s : State) (g x level arrival : Nat) : State :=
  settleSelect (abort (loseOpen (endLastShot s) g x level arrival) .disturbed [])

/-- A HOLD from X for g at a level (R161 to R164). -/
def takeHold (s : State) (g x level arrival : Nat) : State :=
  match s.claims.find g with
  | some e =>
    (match e.state with
     | .free => settle (recordHolder s g x level arrival)
     | .held .. => settle (recordHolder s g x level arrival)
     | .claiming .. => withdraw s g x level arrival
     | .opened own _ =>
       if peerWins s.line.id x level own then loseConflict s g x level arrival else answerHold s g own)
  | none => s

/-- A RELEASE from X for g (R161): only the holder's frees the entry, an occasion for selection. -/
def takeRelease (s : State) (g x : Nat) : State :=
  match s.claims.find g with
  | some e =>
    (match e.state with
     | .held y _ _ => if x = y then settleSelect (setClaim s g .free) else s
     | .free => s
     | .claiming .. => s
     | .opened .. => s)
  | none => s

/-- CLAIM_DELIVERED (R162). -/
def execClaimDelivered (s : State) : Result :=
  .next <|
    match s.line.inbox with
    | f :: _ =>
      (match f.body with
       | .claim g l => takeClaim (deliver s f) g f.sender l f.arrival
       | _ => s)
    | [] => s

/-- HOLD_DELIVERED (R164). -/
def execHoldDelivered (s : State) : Result :=
  .next <|
    match s.line.inbox with
    | f :: _ =>
      (match f.body with
       | .hold g l => takeHold (deliver s f) g f.sender l f.arrival
       | _ => s)
    | [] => s

/-- RELEASE_DELIVERED (R161). -/
def execReleaseDelivered (s : State) : Result :=
  .next <|
    match s.line.inbox with
    | f :: _ =>
      (match f.body with
       | .release g _ => takeRelease (deliver s f) g f.sender
       | _ => s)
    | [] => s

/-! ## FINDING (R178) -/

/-- A FINDING from X for sheath group h (R178); one that R203 has the unit ignore only refreshes. -/
def takeFindingFrame (s : State) (x h kind dist : Nat) : State :=
  match reportOf kind dist with
  | some rep => settleSelect (takeFinding s x h rep)
  | none => s

/-- FINDING_DELIVERED (R178). -/
def execFindingDelivered (s : State) : Result :=
  .next <|
    match s.line.inbox with
    | f :: _ =>
      (match f.body with
       | .finding h k d => takeFindingFrame (deliver s f) f.sender h k d
       | _ => s)
    | [] => s

end Sys2Proof.Machine
end

