-- ==== Sys2Proof/Machine/StartUp.lean ====
section
/-! DEFINITION. Configuration and START (R190 to R192): the staging area, the checks with their fault codes, and the
steps of an accepted START. -/

namespace Sys2Proof.Machine

/-! ## CONFIG-WRITE (R190) -/

/-- CONFIG_WRITE_SPAN: the record replaces the staged record of the span; only while UNCONFIGURED (R190). -/
def execConfigWriteSpan (span : Nat) (record : SpanRecord) (s : State) : Result :=
  .next <|
    if s.port.station ≠ .unconfigured then refuse s .refusedState
    else if !within 1 Config.spans span then refuse s .refusedParam
    else accept { s with port := { s.port with stagedSpans := s.port.stagedSpans.put span record } }

/-- CONFIG_WRITE_STATION: the block replaces the staged block; only while UNCONFIGURED (R190). -/
def execConfigWriteStation (block : StationBlock) (s : State) : Result :=
  .next <|
    if s.port.station ≠ .unconfigured then refuse s .refusedState
    else accept { s with port := { s.port with stagedStation := block } }

/-! ## The checks of START (R191, R22, R171, R176, R3) -/

/-- The number of the first check that fails, counted from `n`; none when all pass. -/
def firstFailing : Nat → List Bool → Option Nat
  | _, [] => none
  | n, ok :: rest => if ok then firstFailing (n + 1) rest else some n

/-- The station-wide checks 1 to 19, in order (R191). -/
def stationChecks (id tod : Nat) (b : StationBlock) : List Bool :=
  [ within 1 31 id,
    within 10000 40000 b.refKHz,
    within 1 64 b.mulM && within 1 16 b.divP,
    within (50000 * b.divP) (250000 * b.divP) (b.refKHz * b.mulM),
    within 14000 15000 b.groupIndex,
    within 0 1439 b.quietStart && within 0 1439 b.quietEnd,
    within 1 3 b.dayFloor,
    within 0 86399999 tod,
    within 5 120 b.resumeLimit,
    within 10 3600 b.alertInterval,
    within 8 4095 b.foreignLight,
    within 8 4095 b.disturbance,
    within 100 1000 b.reflection,
    within 0 1000 b.floorLevel,
    within 20 200 b.holdOff,
    within 2 60 b.claimLifetime,
    within 10 600 b.roundTimeout,
    within 10 600 b.holdDown,
    within 10 10000 b.tolerance ]

/-- The distinct nonzero groups that f gives for records. -/
def groupsOf (f : SpanRecord → Nat) (t : Table SpanRecord) : List Nat :=
  ascSet ((t.map fun e => f e.2).filter (· ≠ 0))

/-- Two page ranges share a page. -/
def pagesMeet (r q : SpanRecord) : Bool := r.pages.any fun p => decide (p ∈ q.pages)

/-- The span checks of a record, in order, against the enabled records of lower span numbers (R3). -/
def spanChecks (lower : Table SpanRecord) (span : Nat) (r : SpanRecord) : List Bool :=
  [ within 256 16384 r.len && decide (r.len % 256 = 0),
    decide (16 ≤ r.anchor ∧ r.anchor + 112 ≤ r.len),
    within 10 1000 r.tau,
    within 8 16 r.shots,
    within 0 255 r.cycle,
    (alertModeOf r.alertMode).isSome && within 1 3 r.alertLevel,
    within 0 327670 r.offset,
    within 0 127 r.firstPage && decide (r.firstPage + pageCount r.len ≤ 128),
    decide ((groupsOf (·.lightGroup) (lower ++ [(span, r)])).length ≤ 16),
    decide ((groupsOf (·.sheathGroup) (lower ++ [(span, r)])).length ≤ 8),
    lower.all fun e => !pagesMeet r e.2 ]

/-- The first failing span check with the span: fault codes 20 to 30 (R3, R204). `lower` are the records that have
passed. -/
def firstBadSpan (lower : Table SpanRecord) : Table SpanRecord → Option (Nat × Nat)
  | [] => none
  | (span, r) :: rest =>
    match firstFailing 20 (spanChecks lower span r) with
    | some code => some (code, span)
    | none => firstBadSpan (lower ++ [(span, r)]) rest

/-- The staged records that are enabled, in ascending span number. -/
def stagedEnabled (s : State) : Table SpanRecord := s.port.stagedSpans.filter fun e => e.2.enabled

/-- The fault code and the first bad span of a START at initial time `tod`; none when every check passes (R191). -/
def startFault (s : State) (tod : Nat) : Option (Nat × Nat) :=
  match firstFailing 1 (stationChecks s.line.id tod s.port.stagedStation) with
  | some code => some (code, 0)
  | none => firstBadSpan [] (stagedEnabled s)

/-! ## The steps of an accepted START (R192) -/

/-- Steps 1 and 2, first part: the staged configuration is locked, and the group lists are derived (R1, R4). -/
def lockConfig (s : State) : State :=
  { s with cfg :=
      { spans := s.port.stagedSpans
        block := s.port.stagedStation
        lightGroups := groupsOf (·.lightGroup) (stagedEnabled s)
        sheathGroups := groupsOf (·.sheathGroup) (stagedEnabled s) } }

/-- A directory entry of page p stands under the locked configuration (R8). -/
def entryStands (s : State) (p : Nat) (e : DirEntry) : Bool :=
  match enabledRec s e.owner with
  | some r => decide (p ∈ r.pages) && decide (e.ordinal + r.firstPage = p) && decide (e.len = r.len)
  | none => false

/-- Every page of a span's range holds an entry that names the span. -/
def rangeKept (dir : Table DirEntry) (span : Nat) (r : SpanRecord) : Bool :=
  r.pages.all fun p =>
    match dir.find p with
    | some e => decide (e.owner = span)
    | none => false

/-- The span pass of R8 for one span: PRESENT, or its entries are cleared. -/
def reconcileSpan (s : State) (e : Nat × SpanRecord) : State :=
  if rangeKept s.store.dir e.1 e.2 then setFp s e.1 .present else clearDir s e.1

/-- The reconciliation of the page directory with the locked configuration (R8). -/
def reconcile (s : State) : State :=
  (enabledSpans s).foldl reconcileSpan
    { s with store := { s.store with
        dir := s.store.dir.filter fun e => entryStands s e.1 e.2
        fp := [] } }

/-- The routine countdowns at START (R31). -/
def countdownsOf (s : State) : Table Nat :=
  ((enabledSpans s).filter fun e => decide (1 ≤ e.2.cycle)).map fun e => (e.1, e.2.cycle)

/-- Step 3: spacing, time of day, phase, mask, countdowns; the time base starts and the clock unit enters LOCKING. -/
def startClock (s : State) (tod : Nat) : State :=
  { s with clock :=
      { state := .locking, now := 0, tod := tod, spacing := binSpacing s.cfg.block
        phase := phaseAt s.cfg.block tod, mask := maskOf s.cfg.block (phaseAt s.cfg.block tod)
        countdowns := countdownsOf s, lockExpiry := some Config.lockTime, dozeExpiry := none } }

/-- Step 4: result records, an empty scheduler, claim entries, corroboration records. -/
def createRecords (s : State) : State :=
  { s with
    comp := ⟨(enabledSpans s).map fun e => (e.1, ⟨none, none, 0, none⟩), none⟩
    sched := ⟨[], [], none, none, 0, none⟩
    claims := s.cfg.lightGroups.map fun g => (g, ⟨.free, none⟩)
    corr := s.cfg.sheathGroups.map fun h => (h, .idle) }

/-- Step 5: LEARNING, the learning timer, the line unit in BUSY, the first PRESENCE. -/
def joinLine (s : State) : State :=
  offerPresence
    { s with
      port := { s.port with station := .learning }
      peers := ⟨[], none, some (after s Config.learningTime)⟩
      line := { s.line with
        state := .busy, queue := [], attempt := none, attemptDropped := false, driving := [], inbox := [] } }

/-- Step 6: the alert inputs begin to watch their lines (R44, R45). -/
def watchAlerts (s : State) : State :=
  (enabledSpans s).foldl (fun s e => levelTest s e.1)
    { s with alerts := { s.alerts with latches := [], timers := [] } }

/-- The steps of an accepted START, in the order of R192. -/
def started (s : State) (tod : Nat) : State :=
  accept (watchAlerts (joinLine (createRecords (startClock (reconcile (lockConfig s)) tod))))

/-- START (R191, R192): refused with fault code and first bad span, or accepted. -/
def execStart (tod : Nat) (s : State) : Result :=
  .next <|
    if s.port.station ≠ .unconfigured then refuse s .refusedState
    else
      match startFault s tod with
      | some (code, span) => answer s .refusedParam (beBytes 1 code ++ beBytes 1 span)
      | none => started s tod

end Sys2Proof.Machine
end

