-- ==== Sys2Proof/Machine/Fingerprint.lean ====
section
/-! DEFINITION. The host fingerprint load (R14 to R17): FP-BEGIN, FP-DATA, FP-END. -/

namespace Sys2Proof.Machine

/-- Some span is WRITING. -/
def anyWriting (s : State) : Bool := s.store.fp.any fun e => decide (e.2 = .writing)

/-- The span is that of the sweep in the engine, taken or not, or of the suspended sweep (R14 check 4). -/
def inSweep (s : State) (span : Nat) : Bool :=
  decide (engineSpan s = some span) || ctxIs s.sched.save span

/-- A host load opens (R14). -/
def openLoad (s : State) (span : Nat) : State :=
  let s1 := removeHeld (setFp (clearDir s span) span .writing) span
  { s1 with store := { s1.store with load := some ⟨span, 0⟩ } }

/-- FP_BEGIN (R14): the checks in order. -/
def execFpBegin (span : Nat) (s : State) : Result :=
  .next <|
    if s.port.station = .unconfigured then refuse s .refusedState
    else if !within 1 Config.spans span then refuse s .refusedParam
    else
      match enabledRec s span with
      | none => refuse s .refusedParam
      | some r =>
        if decide (s.clock.state = .dozing) && !s.cfg.block.retainsSpan r then refuse s .refusedState
        else if anyWriting s || inSweep s span then refuse s .refusedBusy
        else accept (settle (openLoad s span))

/-- The open load of the named span, with the span's record. -/
def loadFor (s : State) (span : Nat) : Option (Load × SpanRecord) :=
  match s.store.load, enabledRec s span with
  | some l, some r => if l.span = span then some (l, r) else none
  | _, _ => none

/-- A block of levels that R15 refuses REFUSED_PARAM. -/
def badBlock (l : Load) (r : SpanRecord) (levels : List Nat) : Bool :=
  !within 1 1024 levels.length || levels.any (fun v => decide (Config.maxLevel < v)) ||
  decide (r.len < l.count + levels.length)

/-- An accepted block: written at the load count, which then increases (R15). -/
def appendBlock (s : State) (l : Load) (r : SpanRecord) (levels : List Nat) : State :=
  let s1 := writeLevels s r l.count levels
  { s1 with store := { s1.store with load := some ⟨l.span, l.count + levels.length⟩ } }

/-- FP_DATA (R15). A bad block without an open load for the span is refused REFUSED_STATE: R15 gives its two refusals no
order (log 32). -/
def execFpData (span : Nat) (levels : List Nat) (s : State) : Result :=
  .next <|
    match loadFor s span with
    | none => refuse s .refusedState
    | some (l, r) =>
      if badBlock l r levels then refuse s .refusedParam else accept (appendBlock s l r levels)

/-- The load context is emptied. -/
def emptyLoad (s : State) : State := { s with store := { s.store with load := none } }

/-- FP_END (R16): PRESENT when the count equals L; a short load ends ABSENT and is refused REFUSED_PARAM. Either way
the span leaves WRITING, an occasion for selection (R53). -/
def execFpEnd (span : Nat) (s : State) : Result :=
  .next <|
    match loadFor s span with
    | none => refuse s .refusedState
    | some (l, r) =>
      if l.count = r.len then accept (settleSelect (emptyLoad (setFp (setDir s span r) span .present)))
      else refuse (settleSelect (emptyLoad (setFp s span .absent))) .refusedParam

end Sys2Proof.Machine
end

