-- ==== Sys2Proof/Machine/Layout.lean ====
section
/-! DEFINITION. The bodies of replies (12.3 to 12.5), byte for byte. A field that is absent is sent as 0. -/

namespace Sys2Proof.Machine

/-! ## Codes (12.3, 12.5) -/

/-- Reply-kind codes (12.2). -/
def ReplyKind.code : ReplyKind → Nat
  | .accepted => 0
  | .refusedState => 1
  | .refusedParam => 2
  | .refusedBusy => 3
  | .refusedEmpty => 4

/-- The bytes of a reply: kind, then body (12.2). -/
def Reply.bytes (r : Reply) : List Byte := beBytes 1 r.kind.code ++ r.body

/-- Outcome codes (12.3). -/
def SweepOutcome.code : SweepOutcome → Nat
  | .clean => 1
  | .changed => 2
  | .broken => 3
  | .noReference => 4
  | .baselined => 5
  | .foreignLight => 6
  | .disturbed => 7
  | .overload => 8
  | .fault => 9
  | .abandoned => 10
  | .aborted => 11

/-- Request kind codes (12.3). -/
def ReqKind.code : ReqKind → Nat
  | .routine => 1
  | .host => 2
  | .alert => 3
  | .confirm => 4
  | .baseline => 5

/-- Event kind codes (12.3). -/
def EventKind.code : EventKind → Nat
  | .brk => 1
  | .bend => 2
  | .reflection => 3
  | .gain => 4

/-- Laser fault codes, in the order of the notice table (12.3). -/
def laserCodeNo : LaserCode → Nat
  | .pulseMissing => 1
  | .pulseExcess => 2
  | .drive => 3
  | .temperature => 4

/-- Station state codes (12.5). -/
def StationState.code : StationState → Nat
  | .unconfigured => 0
  | .learning => 1
  | .running => 2
  | .halted => 3
  | .isolated => 4

/-- Clock state codes (12.5). -/
def ClockState.code : ClockState → Nat
  | .stopped => 0
  | .locking => 1
  | .awake => 2
  | .dozing => 3

/-- Phase codes (12.5). -/
def Phase.code : Phase → Nat
  | .outside => 0
  | .inside => 1

/-- Engine state codes, in the order of R65 (12.5). -/
def EngineState.code : EngineState → Nat
  | .off => 0
  | .idle => 1
  | .preparing => 2
  | .dark => 3
  | .quick => 4
  | .full => 5
  | .reducing => 6
  | .storing => 7

/-- Line access state codes, in the order of R133 (12.5). -/
def LineState.code : LineState → Nat
  | .passive => 0
  | .busy => 1
  | .gap => 2
  | .idle => 3
  | .arbitrating => 4
  | .sending => 5

/-- Fingerprint state codes (12.4). -/
def FpState.code : FpState → Nat
  | .absent => 0
  | .writing => 1
  | .present => 2

/-- A flags byte: bit i from the i-th flag. -/
def flagsByte (fs : List Bool) : Nat := fs.foldr (fun b a => b.toNat + 2 * a) 0

/-- A signed number in n bytes, two's complement (chapter 12). -/
def signedBytes (n : Nat) (v : Int) : List Byte := beBytes n (v % (256 ^ n : Nat)).toNat

/-- A set of station ids as a four-byte mask, bit i for id i (chapter 12). -/
def idMask (ids : List Nat) : List Byte := beBytes 4 (ids.foldl (fun a i => a ||| 2 ^ i) 0)

/-- What remains of a timer, in ms; 0 when it is not running (12.5). -/
def remaining (s : State) (t : Option Nat) : Nat :=
  match t with
  | some e => e - s.clock.now
  | none => 0

/-! ## Notices (12.3) -/

/-- The kind of a notice, 1..8 in the order of the notice table. -/
def NoticeBody.kindCode : NoticeBody → Nat
  | .sweepDone .. => 1
  | .verdict .. => 2
  | .fpLost .. => 3
  | .baselineCancelled .. => 4
  | .windowEnd .. => 5
  | .laserFault .. => 6
  | .dupId .. => 7
  | .peerChange .. => 8

/-- The subject of a notice (10.5). -/
def NoticeBody.subject : NoticeBody → Nat
  | .sweepDone n _ => n
  | .verdict h .. => h
  | .fpLost n _ => n
  | .baselineCancelled n _ => n
  | .windowEnd _ => 0
  | .laserFault n _ => n
  | .dupId i _ => i
  | .peerChange i _ => i

/-- Codes of FP_LOST (R21, 12.3). -/
def LostCause.code : LostCause → Nat
  | .retention => 1
  | .writeCut => 2
  | .loadCancelled => 3

/-- Codes of BASELINE_CANCELLED (12.3). -/
def CancelCause.code : CancelCause → Nat
  | .replacedByConfirm => 1
  | .replacedByAlert => 2
  | .spanOff => 3

/-- Codes of DUP_ID (12.3). -/
def DupCause.code : DupCause → Nat
  | .received => 1
  | .readback => 2

/-- Codes of PEER_CHANGE (12.3). -/
def PeerChange.code : PeerChange → Nat
  | .joined => 1
  | .agedOut => 2
  | .stateChanged => 3
  | .groupsChanged => 4

/-- The code of a notice (10.5, 12.3). -/
def NoticeBody.code : NoticeBody → Nat
  | .sweepDone _ o => o.code
  | .verdict _ sheath .. => if sheath then 1 else 2
  | .fpLost _ c => c.code
  | .baselineCancelled _ c => c.code
  | .windowEnd n => n
  | .laserFault _ c => laserCodeNo c
  | .dupId _ c => c.code
  | .peerChange _ c => c.code

/-- The further fields of a VERDICT; nothing for other kinds (12.3). -/
def NoticeBody.tail : NoticeBody → List Byte
  | .verdict _ _ f g timedOut joined members =>
    beBytes 1 f ++ beBytes 1 g ++ beBytes 1 (flagsByte [timedOut]) ++ idMask joined ++ idMask members
  | _ => []

/-- A notice as READ-NOTICE returns it (12.3). -/
def Notice.bytes (n : Notice) : List Byte :=
  beBytes 1 n.body.kindCode ++ beBytes 1 n.body.subject ++ beBytes 2 n.body.code ++ beBytes 4 n.time ++ n.body.tail

/-! ## READ-RESULT (12.4) -/

/-- The slot part: kind, level, flags, target bin, raised time. -/
def slotBytes (r : Option Request) : List Byte :=
  match r with
  | some r =>
    beBytes 1 r.kind.code ++ beBytes 1 r.level ++
    beBytes 1 (flagsByte [r.windowed, r.selected, r.target.isSome]) ++
    beBytes 2 (r.target.getD 0) ++ beBytes 4 r.raised
  | none => List.replicate 9 0#8

/-- The latest part; D is 0xFFFF when absent. With the whole part absent every byte is 0, the two of D too: DESIGN CHOICE
(log 36). -/
def latestBytes (l : Option Latest) : List Byte :=
  match l with
  | some l =>
    beBytes 1 l.outcome.code ++ beBytes 1 l.kind.code ++ beBytes 1 l.level ++ beBytes 4 l.endTime ++
    beBytes 4 l.lit ++ beBytes 2 (l.darkLevel.getD 0xFFFF)
  | none => List.replicate 13 0#8

/-- An event: kind, flags, bin, distance, step, peak. -/
def Event.bytes (e : Event) : List Byte :=
  beBytes 1 e.kind.code ++ beBytes 1 (flagsByte [e.step.isSome, e.peak.isSome]) ++ beBytes 2 e.bin ++
  beBytes 3 e.distance ++ signedBytes 2 (e.step.getD 0) ++ beBytes 2 (e.peak.getD 0)

/-- The comparison part, with its eight event places. -/
def comparisonBytes (c : Option Comparison) : List Byte :=
  match c with
  | some c =>
    beBytes 4 c.time ++ signedBytes 2 c.offset ++
    beBytes 1 (flagsByte [c.unanchored, c.more, c.windowed, c.quickOnly]) ++ beBytes 1 c.outcome.code ++
    beBytes 1 c.events.length ++ c.events.flatMap Event.bytes ++
    List.replicate (11 * (8 - c.events.length)) 0#8
  | none => List.replicate 97 0#8

/-- Presence bit 7: the EDGE latch is set, or the LEVEL re-raise timer runs (R64). -/
def alertBit (s : State) (span : Nat) : Bool :=
  decide (span ∈ s.alerts.latches) || s.alerts.timers.has span

/-- The body of READ-RESULT for a span (R128, R200, 12.4). -/
def resultBody (s : State) (span : Nat) (r : ResultRecord) : List Byte :=
  beBytes 1 span ++
  beBytes 1 (flagsByte [r.latest.isSome, r.comparison.isSome, r.held.isSome, s.sched.slots.has span,
    isOff s span, ctxIs s.engine.ctx span, ctxIs s.sched.save span, alertBit s span]) ++
  beBytes 1 (fpOf s span).code ++ beBytes 1 r.missed ++ signedBytes 2 (r.held.getD 0) ++
  slotBytes (s.sched.slots.find span) ++ latestBytes r.latest ++ comparisonBytes r.comparison

/-! ## READ-TRACE (12.4, R202) -/

/-- The descriptor of the result trace: 13 bytes. -/
def TraceDesc.bytes (d : TraceDesc) : List Byte :=
  beBytes 1 d.span ++ beBytes 2 d.len ++ beBytes 1 d.n ++ beBytes 2 d.darkLevel ++
  beBytes 1 (flagsByte [d.window.isSome]) ++ beBytes 2 (d.window.getD (0, 0)).1 ++
  beBytes 2 (d.window.getD (0, 0)).2 ++ beBytes 2 d.saturated

/-- An entry: level in bits 10..0, saturation mark in bit 15. -/
def entryBytes (e : Nat × Bool) : List Byte := beBytes 2 (e.1 % 2048 + (if e.2 then 32768 else 0))

/-- The bins of an accepted burst over a source of length len, in the order of R202. -/
def burstBins (q : TraceRequest) (len : Nat) : List Nat :=
  if q.burst = 0 then (List.range q.count).map fun i => (q.first + i) % len
  else
    let base := q.first - q.first % q.group
    (List.range q.count).map fun i => base + (q.first - base + i) % q.group

/-! ## READ-STATUS (12.5) -/

/-- The station section. -/
def stationBytes (s : State) : List Byte :=
  beBytes 1 s.line.id ++ beBytes 1 s.port.station.code ++ beBytes 1 (isLocked s).toNat ++
  beBytes 4 (remaining s s.peers.learning) ++
  beBytes 1 (flagsByte [s.notices.overflow, s.line.overrun, s.line.dupId, s.engine.laserFault.isSome]) ++
  beBytes 1 ((s.engine.laserFault.map laserCodeNo).getD 0) ++ beBytes 1 s.notices.fifo.length

/-- The clock section (R38). -/
def clockBytes (s : State) : List Byte :=
  beBytes 1 s.clock.state.code ++ beBytes 4 s.clock.tod ++ beBytes 1 s.clock.phase.code ++
  beBytes 1 s.clock.mask ++ beBytes 1 s.clock.dozeExpiry.isSome.toNat

/-- The span of the current selection, 0 for none (R64). -/
def selectionSpan (s : State) : Nat :=
  match s.sched.selection with
  | some (.slot n) => n
  | some .save => (s.engine.ctx.map (·.span)).getD 0
  | none => 0

/-- A sweep's span, kind and level; zeros for none. -/
def sweepBytes (c : Option Ctx) : List Byte :=
  match c with
  | some c => beBytes 1 c.span ++ beBytes 1 c.kind.code ++ beBytes 1 c.level
  | none => List.replicate 3 0#8

/-- A sweep's lit shots done; 0 for none. -/
def litBytes (c : Option Ctx) : List Byte := beBytes 4 ((c.map (·.litDone)).getD 0)

/-- The scheduler section (R64). -/
def schedBytes (s : State) : List Byte :=
  beBytes 1 s.sched.slots.length ++ beBytes 1 (selectionSpan s) ++ sweepBytes s.sched.save ++
  litBytes s.sched.save ++ beBytes 4 (remaining s s.sched.resumeExpiry)

/-- Switch state and its port or target (R93). -/
def switchBytes (w : Switch) : List Byte :=
  match w with
  | .unpositioned => [0#8, 0#8]
  | .travelling p _ => 1#8 :: beBytes 1 p
  | .settled p => 2#8 :: beBytes 1 p

/-- The engine section (R93). -/
def engineBytes (s : State) : List Byte :=
  beBytes 1 s.engine.state.code ++ sweepBytes s.engine.ctx ++
  beBytes 1 ((s.engine.ctx.map (·.phase.code)).getD 0) ++ litBytes s.engine.ctx ++ switchBytes s.switch

/-- One peer: 15 bytes. -/
def peerBytes (e : Nat × Peer) : List Byte :=
  beBytes 1 e.1 ++ beBytes 1 e.2.state.code ++ beBytes 4 e.2.lastHeard ++ beBytes 1 e.2.groups.length ++
  e.2.groups.flatMap (beBytes 1) ++ List.replicate (8 - e.2.groups.length) 0#8

/-- Frames in the transmit queue, the one in the attempt included (R136). -/
def queueCount (s : State) : Nat := s.line.queue.length + s.line.attempt.toList.length

/-- The rack line section (R154). -/
def lineBytes (s : State) : List Byte :=
  beBytes 1 s.line.state.code ++ beBytes 1 (queueCount s) ++ beBytes 1 s.line.inbox.length ++
  beBytes 1 s.peers.table.length ++ s.peers.table.flatMap peerBytes

/-- One claim entry: 9 bytes (R172). -/
def claimBytes (s : State) (e : Nat × ClaimEntry) : List Byte :=
  beBytes 1 e.1 ++
  (match e.2.state with
   | .free => [0#8, 0#8, 0#8] ++ beBytes 4 0
   | .held x l t => 1#8 :: beBytes 1 x ++ beBytes 1 l ++ beBytes 4 (remaining s (some t))
   | .claiming l none => [2#8, 0#8] ++ beBytes 1 l ++ beBytes 4 0xFFFFFFFF
   | .claiming l (some t) => [2#8, 0#8] ++ beBytes 1 l ++ beBytes 4 (remaining s (some t))
   | .opened l t => [3#8, 0#8] ++ beBytes 1 l ++ beBytes 4 (remaining s (some t))) ++
  beBytes 1 e.2.stale.isSome.toNat

/-- The claims section. -/
def claimsBytes (s : State) : List Byte := beBytes 1 s.claims.length ++ s.claims.flatMap (claimBytes s)

/-- One joined entry: id, kind, distance. -/
def joinedBytes (e : Nat × Report) : List Byte :=
  beBytes 1 e.1 ++ beBytes 1 e.2.kind.code ++ beBytes 3 (e.2.dist.getD 0)

/-- The joined list with its count. -/
def joinedListBytes (j : Table Report) : List Byte := beBytes 1 j.length ++ j.flatMap joinedBytes

/-- One corroboration record (R188). -/
def corrBytes (s : State) (e : Nat × CorrRecord) : List Byte :=
  beBytes 1 e.1 ++
  (match e.2 with
   | .idle => List.replicate 20 0#8
   | .opened r =>
     1#8 :: beBytes 1 r.openKind.code ++ beBytes 3 r.openDist ++ beBytes 4 r.openedAt ++
     beBytes 4 (remaining s (some r.expiry)) ++ beBytes 1 r.outstanding.length ++ beBytes 1 r.reported.toNat ++
     idMask (existsSet s e.1) ++ joinedListBytes r.joined
   | .settled r =>
     2#8 :: beBytes 1 r.openKind.code ++ beBytes 3 r.openDist ++ beBytes 4 r.openedAt ++
     beBytes 4 (remaining s (some r.expiry)) ++ [0#8, 0#8] ++ beBytes 4 0 ++ joinedListBytes r.joined)

/-- The corroboration section. -/
def roundsBytes (s : State) : List Byte := beBytes 1 s.corr.length ++ s.corr.flatMap (corrBytes s)

/-- The body of READ-STATUS (R196, 12.5). -/
def statusBody (s : State) : List Byte :=
  stationBytes s ++ clockBytes s ++ schedBytes s ++ engineBytes s ++ lineBytes s ++ claimsBytes s ++ roundsBytes s

end Sys2Proof.Machine
end

