-- ==== Sys2Proof/Machine/Host.lean ====
section
/-! DEFINITION. The remaining host commands (chapter 10, R43, R51, R52, R91) and what the port does with a command it
does not know (R189). -/

namespace Sys2Proof.Machine

/-- The station state lets RUN, HALT and SWEEP through: neither UNCONFIGURED nor ISOLATED (R193). -/
def isWorking (s : State) : Bool := decide (s.port.station ≠ .unconfigured) && decide (s.port.station ≠ .isolated)

/-! ## RUN and HALT (R194, R195) -/

/-- The state that RUN leads to from HALTED (R193). -/
def runTarget (s : State) : StationState := if s.peers.learning.isSome then .learning else .running

/-- The presence state changes: a PRESENCE is offered, now or, while the clock unit is DOZING, as it wakes (R147,
R194). -/
def announce (s : State) : State := if s.clock.state = .dozing then wake s else offerPresence s

/-- A RUN that changes the station state (R195). -/
def runStation (s : State) : State :=
  accept (settleSelect (announce { s with port := { s.port with station := runTarget s } }))

/-- RUN (R195). -/
def execRun (s : State) : Result :=
  .next <|
    if !isWorking s then refuse s .refusedState
    else if s.port.station = .halted then runStation s
    else accept s

/-- A HALT that changes the station state, in the order of R194. -/
def haltStation (s : State) : State :=
  accept (settle (announce (unableBegins
    (stopSweep { s with port := { s.port with station := .halted } } .aborted []))))

/-- HALT (R194). -/
def execHalt (s : State) : Result :=
  .next <|
    if !isWorking s then refuse s .refusedState
    else if s.port.station = .halted then accept s
    else haltStation s

/-! ## Reads -/

/-- READ_STATUS: the snapshot, then the two flags are cleared (R196). -/
def execReadStatus (s : State) : Result :=
  let r := answer s .accepted (statusBody s)
  .next { r with
    notices := { r.notices with overflow := false }
    line := { r.line with overrun := false } }

/-- READ_NOTICE: the oldest notice is removed and returned; the attention line is released with the last (R198,
R199). -/
def execReadNotice (s : State) : Result :=
  .next <|
    match s.notices.fifo with
    | [] => refuse s .refusedEmpty
    | n :: rest =>
      answer { s with notices := { s.notices with fifo := rest, attention := !rest.isEmpty } } .accepted n.bytes

/-- READ_RESULT (R200, R128). -/
def execReadResult (span : Nat) (s : State) : Result :=
  .next <|
    if s.port.station = .unconfigured then refuse s .refusedState
    else
      match enabledRec s span, s.comp.results.find span with
      | some _, some r => answer s .accepted (resultBody s span r)
      | _, _ => refuse s .refusedParam

/-- Check 1 of R201: the parameters name a source, a count and a burst kind. -/
def traceParamsOk (q : TraceRequest) : Bool :=
  (decide (q.source = 0) || (decide (q.source = 1) && within 1 Config.spans q.span)) &&
  within 1 1024 q.count &&
  (decide (q.burst = 0) || (decide (q.burst = 1) && decide (q.group ∈ [16, 64, 256, 1024])))

/-- Checks 3 and 4 of R201 over a source of length len: the start entry lies in it, and a WRAPPED burst stays in a
group that lies in it. -/
def burstOk (q : TraceRequest) (len : Nat) : Bool :=
  decide (q.first < len) &&
  (decide (q.burst = 0) ||
   (decide (q.count ≤ q.group) && decide (q.first - q.first % q.group + q.group ≤ len)))

/-- A READ-TRACE of the result trace (R108, R201). -/
def readResultTrace (s : State) (q : TraceRequest) : State :=
  if s.engine.state = .reducing then refuse s .refusedBusy
  else
    match s.trace.state, s.trace.desc with
    | .valid, some d =>
      if burstOk q d.len then
        answer s .accepted (d.bytes ++
          (burstBins q d.len).flatMap fun i => entryBytes (s.trace.entries.getD i noDataEntry))
      else refuse s .refusedParam
    | _, _ => refuse s .refusedEmpty

/-- A READ-TRACE of a span's fingerprint (R9, R201). -/
def readFingerprint (s : State) (q : TraceRequest) : State :=
  match fpOf s q.span, enabledRec s q.span with
  | .writing, _ => refuse s .refusedBusy
  | .present, some r =>
    if burstOk q r.len then
      answer s .accepted (beBytes 1 q.span ++ beBytes 2 r.len ++
        (burstBins q r.len).flatMap fun i => entryBytes (readLevel s r i, false))
    else refuse s .refusedParam
  | .present, none => refuse s .refusedEmpty
  | .absent, _ => refuse s .refusedEmpty

/-- READ_TRACE (R201, R202). -/
def execReadTrace (q : TraceRequest) (s : State) : Result :=
  .next <|
    if !traceParamsOk q then refuse s .refusedParam
    else if q.source = 0 then readResultTrace s q
    else readFingerprint s q

/-! ## Requests and spans -/

/-- SWEEP (R43): the checks in order, then the request is raised by R41. -/
def execSweep (span kind level : Nat) (s : State) : Result :=
  .next <|
    if !isWorking s then refuse s .refusedState
    else if !within 1 Config.spans span || !isEnabled s span || isOff s span then refuse s .refusedParam
    else
      match sweepKindOf kind with
      | none => refuse s .refusedParam
      | some k =>
        if !within 0 3 level then refuse s .refusedParam
        else if decide (k = .baseline) && s.sched.slots.has span then refuse s .refusedBusy
        else accept (settleSelect (raise s span ⟨k, level, none, none⟩))

/-- The refusal that SPAN-OFF and SPAN-ON share (R51, R52). -/
def spanRefusal (s : State) (span : Nat) : Option ReplyKind :=
  if s.port.station = .unconfigured then some .refusedState
  else if !within 1 Config.spans span || !isEnabled s span then some .refusedParam
  else none

/-- The notice of a BASELINE that SPAN-OFF removes, and the withdrawal of a CONFIRM (R51 step 2). -/
def tellRemoved (s : State) (span : Nat) (r : Request) : State :=
  match r.kind with
  | .baseline => post s (.baselineCancelled span .spanOff)
  | .confirm => decideSpan s span r.target r.round none
  | .routine => s
  | .host => s
  | .alert => s

/-- The engine's preparation for a slot that was removed is given up (R57). -/
def dropPreparation (s : State) (span : Nat) : State :=
  if s.sched.selection = some (.slot span) then
    let s1 := giveUpClaim s (lightGroupOf s span)
    { s1 with
      sched := { s1.sched with selection := none }
      engine := { s1.engine with state := .idle, ctx := none } }
  else s

/-- Step 2 of R51: the span's slot. -/
def removeRequest (s : State) (span : Nat) : State :=
  match s.sched.slots.find span with
  | some r => dropPreparation (tellRemoved (emptySlotOf s span) span r) span
  | none => s

/-- Step 3 of R51: the sweep of the span that the engine holds. -/
def stopRunning (s : State) (span : Nat) : State :=
  if ctxIs s.engine.ctx span then abort s .aborted [] else s

/-- Step 4 of R51: the suspended sweep of the span. -/
def stopSuspended (s : State) (span : Nat) : State :=
  if ctxIs s.sched.save span then endSuspended s .aborted else s

/-- A span is taken out of service, in the order of R51. -/
def spanOff (s : State) (span : Nat) : State :=
  let s1 := { s with sched := { s.sched with off := insertAsc span s.sched.off } }
  clearLatch (stopSuspended (stopRunning (removeRequest s1 span) span) span) span

/-- SPAN_OFF (R51). -/
def execSpanOff (span : Nat) (s : State) : Result :=
  .next <|
    match spanRefusal s span with
    | some k => refuse s k
    | none => if isOff s span then accept s else accept (settleSelect (spanOff s span))

/-- A span returns to service (R52): the mark is cleared, and the test of R45 is made. -/
def spanOn (s : State) (span : Nat) : State :=
  levelTest { s with sched := { s.sched with off := removeFrom span s.sched.off } } span

/-- SPAN_ON (R52). -/
def execSpanOn (span : Nat) (s : State) : Result :=
  .next <|
    match spanRefusal s span with
    | some k => refuse s k
    | none => if isOff s span then accept (settleSelect (spanOn s span)) else accept s

/-- CLEAR_FAULT (R91). -/
def execClearFault (s : State) : Result :=
  .next <|
    if s.port.station = .unconfigured then refuse s .refusedState
    else if s.engine.condition then refuse s .refusedBusy
    else if s.engine.laserFault.isNone then accept s
    else accept (settleSelect { s with engine := { s.engine with laserFault := none } })

/-! ## What the port does itself (R189) -/

/-- UNKNOWN_COMMAND: an unknown code or a wrong parameter length is refused REFUSED_PARAM (R189). Bytes that do spell a
command are no such event (log 3). -/
def execUnknownCommand (bytes : List Byte) (s : State) : Result :=
  .next <| if (parseCommand bytes).isNone then refuse s .refusedParam else s

/-- PARTIAL_COMMAND_DISCARDED: no effect and no reply (R189; log 13). -/
def execPartialCommandDiscarded (_bytes : List Byte) (s : State) : Result :=
  .next { s with port := { s.port with inProgress := none, reply := none } }

end Sys2Proof.Machine
end

