-- ==== Sys2Proof/Machine/LineRows.lean ====
section
/-! DEFINITION. The rack line unit's events (chapter 7): the idle gap, frame starts, arbitration, transmission, the
read-back error and reception, with duplicate-id detection (R144, R145). An event that cannot come in the present line
access state leaves the state as it is (log 3). -/

namespace Sys2Proof.Machine

/-- The line access state changes (R133). -/
def setLine (s : State) (st : LineState) : State := { s with line := { s.line with state := st } }

/-! ## The gap and the start of a frame (R133, R134) -/

/-- IDLE_GAP: 12 bit times of recessive line; an attempt starts if a frame waits (R133, R134; from BUSY: log 14). -/
def execIdleGap (s : State) : Result :=
  .next <|
    if s.line.state = .gap ∨ s.line.state = .busy then startAttempt (setLine s .idle) else s

/-- A dominant level in IDLE: the unit joins arbitration when a frame waits, and enters BUSY otherwise (R133). -/
def joinOrBusy (s : State) : State :=
  if canSend s && !s.line.queue.isEmpty then startAttempt s else setLine s .busy

/-- FRAME_START_HEARD (R133). -/
def execFrameStartHeard (s : State) : Result :=
  .next <|
    match s.line.state with
    | .gap => setLine s .busy
    | .idle => joinOrBusy s
    | .passive => s
    | .busy => s
    | .arbitrating => s
    | .sending => s

/-! ## The attempt (R134, R135, R168) -/

/-- ARBITRATION_WON (R134). -/
def execArbitrationWon (s : State) : Result :=
  .next <| if s.line.state = .arbitrating then setLine s .sending else s

/-- A stale CLAIM mark is cleared as its CLAIM's attempt ends (R168). -/
def clearStaleOf (s : State) (b : FrameBody) : State :=
  match b with
  | .claim g _ => setStale s g none
  | .presence .. => s
  | .hold .. => s
  | .release .. => s
  | .finding .. => s

/-- The queue that a frame returns to after a lost arbitration (R135, R138): a claim frame that finds two claim frames
waiting makes room as an offered one does, so that the limit of R136 holds (log 17; a HOLD that finds its replacement:
log 18). -/
def queueReturn (q : List TxFrame) (f : TxFrame) : List TxFrame :=
  if q.any fun x => sameFrame x.body f.body then q
  else if isClaimFrame f.body then enterClaimFrame q f
  else insertByAge f q

/-- The attempted frame is dropped because its removal was asked (R140, R168), or returns to the queue. -/
def loseArbitration (s : State) (f : TxFrame) : State :=
  let s1 := endAttempt s .busy
  if s.line.attemptDropped then clearStaleOf s1 f.body
  else { s1 with line := { s1.line with queue := queueReturn s.line.queue f } }

/-- ARBITRATION_LOST (R134, R135). -/
def execArbitrationLost (s : State) : Result :=
  .next <|
    match s.line.state, s.line.attempt with
    | .arbitrating, some f => loseArbitration s f
    | _, _ => s

/-- The owner's part of a transmitted report: a CLAIM starts its hold-off or is stale (R159, R168). -/
def reportTransmitted (s : State) (b : FrameBody) : State :=
  match b with
  | .claim g _ => claimTransmitted s g
  | .presence .. => s
  | .hold .. => s
  | .release .. => s
  | .finding .. => s

/-- FRAME_TRANSMITTED (R135): the frame leaves the queue, the unit enters GAP, the owner gets its report. -/
def execFrameTransmitted (s : State) : Result :=
  .next <|
    match s.line.state, s.line.attempt with
    | .sending, some f => reportTransmitted (endAttempt s .gap) f.body
    | _, _ => s

/-! ## Duplicate ids (R144, R145) -/

/-- Duplicate-id detection is possible: LEARNING, RUNNING or HALTED (R144). -/
def detectsDup (s : State) : Bool :=
  decide (s.port.station = .learning) || decide (s.port.station = .running) || decide (s.port.station = .halted)

/-- The line access state after the station stops driving (R145 step 1). -/
def stopDriving : LineState → LineState
  | .arbitrating => .busy
  | .sending => .busy
  | .passive => .passive
  | .busy => .busy
  | .gap => .gap
  | .idle => .idle

/-- Steps 1 to 3 of R145: flag, attempt, queue, ISOLATED, timers. -/
def isolate (s : State) : State :=
  let s1 := clearStale (endAttempt s (stopDriving s.line.state))
  { s1 with
    line := { s1.line with dupId := true, queue := [] }
    port := { s1.port with station := .isolated }
    peers := { s1.peers with presence := none, learning := none } }

/-- Duplicate-id detection, in the order of R145. -/
def detectDup (s : State) (cause : DupCause) : State :=
  settle (unableBegins (wake (stopSweep (post (isolate s) (.dupId s.line.id cause)) .aborted [])))

/-- READBACK_ERROR (R135, R144). -/
def execReadbackError (s : State) : Result :=
  .next <| if s.line.state = .sending ∧ detectsDup s = true then detectDup s .readback else s

/-! ## Reception (R141, R142) -/

/-- A check-valid frame of another station enters the inbox, or is discarded with the overrun flag set (R142). -/
def enterInbox (s : State) (f : Frame) : State :=
  if s.line.inbox.length < Config.inboxSize then
    { s with line := { s.line with
        inbox := s.line.inbox ++ [⟨f.sender, f.body, s.clock.tod, s.clock.now⟩] } }
  else { s with line := { s.line with overrun := true } }

/-- A check-valid frame (R141): own id is duplicate-id evidence, discarded in ISOLATED. -/
def takeFrame (s : State) (f : Frame) : State :=
  if f.sender = s.line.id then (if detectsDup s then detectDup s .received else s) else enterInbox s f

/-- FRAME_RECEIVED: the line's activity ends, and the bits are checked (R141, R203). -/
def execFrameReceived (bits : List Bool) (s : State) : Result :=
  .next <|
    if s.line.state = .busy then
      match parseFrame bits with
      | some f => takeFrame (setLine s .gap) f
      | none => setLine s .gap
    else s

end Sys2Proof.Machine
end

