-- ==== Sys2Proof/Machine/TimerRows.lean ====
section
/-! DEFINITION. The timers of the peer, claim and corroboration units (chapters 7 to 9). A timer that has not come due
leaves the state as it is (log 3). -/

namespace Sys2Proof.Machine

/-! ## Peer unit (R147, R151, R153) -/

/-- PRESENCE_TIMER_EXPIRY: a PRESENCE is offered, and the timer restarts (R147). -/
def execPresenceTimerExpiry (s : State) : Result :=
  .next <| if isDue s s.peers.presence then offerPresence s else s

/-- The learning timer stops. -/
def stopLearning (s : State) : State := { s with peers := { s.peers with learning := none } }

/-- The end of learning in LEARNING: RUNNING, with a PRESENCE that shows it (R153). -/
def endLearning (s : State) : State :=
  settleSelect (offerPresence
    { stopLearning s with port := { s.port with station := .running } })

/-- LEARNING_TIMER_EXPIRY (R153): in another station state the state stays as it is. -/
def execLearningTimerExpiry (s : State) : Result :=
  .next <|
    if isDue s s.peers.learning then
      (if s.port.station = .learning then endLearning s else stopLearning s)
    else s

/-- The age timer of a peer has run out (R151). -/
def ageDue (s : State) (x : Nat) : Bool :=
  match s.peers.table.find x with
  | some p => decide (p.ageExpiry ≤ s.clock.now)
  | none => false

/-- The entry is removed, with its notice and the peer-table change (R151, R152). -/
def ageOut (s : State) (x : Nat) : State :=
  peerTableChange
    (post { s with peers := { s.peers with table := s.peers.table.erase x } } (.peerChange x .agedOut)) []

/-- AGE_TIMER_EXPIRY (R151). -/
def execAgeTimerExpiry (id : Nat) (s : State) : Result :=
  .next <| if ageDue s id then settle (ageOut s id) else s

/-! ## Claim unit (R160, R165) -/

/-- The state of a group's entry. -/
def claimOf (s : State) (g : Nat) : Option ClaimState := (s.claims.find g).map (·.state)

/-- HOLD_OFF_EXPIRY: the entry becomes OPEN, the sweep is taken (R160, R56). -/
def execHoldOffExpiry (group : Nat) (s : State) : Result :=
  .next <|
    match claimOf s group with
    | some (.claiming l (some t)) =>
      if t ≤ s.clock.now then claimOpened (setClaim s group (.opened l (t + quarterLife s))) group else s
    | _ => s

/-- HOLD_REPETITION: a HOLD at the own level, and the next HOLD time advances (R160). -/
def execHoldRepetition (group : Nat) (s : State) : Result :=
  .next <|
    match claimOf s group with
    | some (.opened l t) =>
      if t ≤ s.clock.now then
        offer (setClaim s group (.opened l (t + quarterLife s))) l (.hold group l)
      else s
    | _ => s

/-- HELD_EXPIRY: the entry becomes FREE, an occasion for selection (R165, R161). -/
def execHeldExpiry (group : Nat) (s : State) : Result :=
  .next <|
    match claimOf s group with
    | some (.held _ _ t) => if t ≤ s.clock.now then settleSelect (setClaim s group .free) else s
    | _ => s

/-! ## Corroboration unit (R185, R187) -/

/-- ROUND_TIMER_EXPIRY: the round completes with the PARTIAL flag (R185). -/
def execRoundTimerExpiry (group : Nat) (s : State) : Result :=
  .next <|
    match s.corr.find group with
    | some (.opened r) => if r.expiry ≤ s.clock.now then settle (issueVerdict s group r true) else s
    | _ => s

/-- HOLD_DOWN_EXPIRY: the record becomes IDLE (R187). -/
def execHoldDownExpiry (group : Nat) (s : State) : Result :=
  .next <|
    match s.corr.find group with
    | some (.settled r) => if r.expiry ≤ s.clock.now then putRound s group .idle else s
    | _ => s

end Sys2Proof.Machine
end

