-- ==== Sys2Proof/Machine/Dispatch.lean ====
section
/-! DEFINITION. The dispatch: one arm for each row of spec/opcode_table.json. -/

namespace Sys2Proof.Machine

/-- The effect of a command on everything but the queue. -/
def exec (i : Instr) (s : State) : Host.Outcome State Fault Refusal :=
  match i with
  | .coldReset straps => Sys2Proof.Machine.execColdReset straps s
  | .warmReset straps => Sys2Proof.Machine.execWarmReset straps s
  | .configWriteSpan span record => Sys2Proof.Machine.execConfigWriteSpan span record s
  | .configWriteStation block => Sys2Proof.Machine.execConfigWriteStation block s
  | .start tod => Sys2Proof.Machine.execStart tod s
  | .run => Sys2Proof.Machine.execRun s
  | .halt => Sys2Proof.Machine.execHalt s
  | .readStatus => Sys2Proof.Machine.execReadStatus s
  | .readNotice => Sys2Proof.Machine.execReadNotice s
  | .readResult span => Sys2Proof.Machine.execReadResult span s
  | .readTrace request => Sys2Proof.Machine.execReadTrace request s
  | .sweep span kind level => Sys2Proof.Machine.execSweep span kind level s
  | .spanOff span => Sys2Proof.Machine.execSpanOff span s
  | .spanOn span => Sys2Proof.Machine.execSpanOn span s
  | .clearFault => Sys2Proof.Machine.execClearFault s
  | .fpBegin span => Sys2Proof.Machine.execFpBegin span s
  | .fpData span levels => Sys2Proof.Machine.execFpData span levels s
  | .fpEnd span => Sys2Proof.Machine.execFpEnd span s
  | .unknownCommand bytes => Sys2Proof.Machine.execUnknownCommand bytes s
  | .partialCommandDiscarded bytes => Sys2Proof.Machine.execPartialCommandDiscarded bytes s
  | .endOfLocking => Sys2Proof.Machine.execEndOfLocking s
  | .windowStart => Sys2Proof.Machine.execWindowStart s
  | .windowEnd => Sys2Proof.Machine.execWindowEnd s
  | .dozeEntry => Sys2Proof.Machine.execDozeEntry s
  | .alertLineAsserted span => Sys2Proof.Machine.execAlertLineAsserted span s
  | .alertLineReleased span => Sys2Proof.Machine.execAlertLineReleased span s
  | .reRaiseTimerExpiry span => Sys2Proof.Machine.execReRaiseTimerExpiry span s
  | .switchSettleExpiry => Sys2Proof.Machine.execSwitchSettleExpiry s
  | .darkShotComplete samples => Sys2Proof.Machine.execDarkShotComplete samples s
  | .litShotComplete samples => Sys2Proof.Machine.execLitShotComplete samples s
  | .interleavedDarkShotCheck samples => Sys2Proof.Machine.execInterleavedDarkShotCheck samples s
  | .reductionComplete => Sys2Proof.Machine.execReductionComplete s
  | .comparisonComplete => Sys2Proof.Machine.execComparisonComplete s
  | .baselineWriteComplete => Sys2Proof.Machine.execBaselineWriteComplete s
  | .resumeTimerExpiry => Sys2Proof.Machine.execResumeTimerExpiry s
  | .laserFaultReport code => Sys2Proof.Machine.execLaserFaultReport code s
  | .laserFaultConditionClears => Sys2Proof.Machine.execLaserFaultConditionClears s
  | .idleGap => Sys2Proof.Machine.execIdleGap s
  | .arbitrationLost => Sys2Proof.Machine.execArbitrationLost s
  | .frameTransmitted => Sys2Proof.Machine.execFrameTransmitted s
  | .readbackError => Sys2Proof.Machine.execReadbackError s
  | .frameReceived bits => Sys2Proof.Machine.execFrameReceived bits s
  | .presenceDelivered => Sys2Proof.Machine.execPresenceDelivered s
  | .claimDelivered => Sys2Proof.Machine.execClaimDelivered s
  | .holdDelivered => Sys2Proof.Machine.execHoldDelivered s
  | .releaseDelivered => Sys2Proof.Machine.execReleaseDelivered s
  | .findingDelivered => Sys2Proof.Machine.execFindingDelivered s
  | .presenceTimerExpiry => Sys2Proof.Machine.execPresenceTimerExpiry s
  | .learningTimerExpiry => Sys2Proof.Machine.execLearningTimerExpiry s
  | .ageTimerExpiry id => Sys2Proof.Machine.execAgeTimerExpiry id s
  | .holdOffExpiry group => Sys2Proof.Machine.execHoldOffExpiry group s
  | .holdRepetition group => Sys2Proof.Machine.execHoldRepetition group s
  | .heldExpiry group => Sys2Proof.Machine.execHeldExpiry group s
  | .roundTimerExpiry group => Sys2Proof.Machine.execRoundTimerExpiry group s
  | .holdDownExpiry group => Sys2Proof.Machine.execHoldDownExpiry group s
  | .frameStartHeard => Sys2Proof.Machine.execFrameStartHeard s
  | .arbitrationWon => Sys2Proof.Machine.execArbitrationWon s

end Sys2Proof.Machine
end

