-- ==== Sys2Proof/Machine/Time.lean ====
section
/-! DEFINITION. What the station does with no command waiting (log 1): a timer event that has come due is taken, and
with none due one millisecond of the time base passes, unless the reference input has stopped (R23, R28). -/

namespace Sys2Proof.Machine

/-- The time base stands: no START since the last reset (R23). -/
def clockStands (s : State) : Bool := decide (s.clock.state = .stopped)

/-- The reference input runs in the coming millisecond (R23; log 28). -/
def referenceRuns (s : State) : Bool := s.reference.headD true

/-- The time base and the time of day advance by one millisecond (R23, R28). -/
def advance (s : State) : State :=
  { s with clock := { s.clock with
      now := s.clock.now + 1
      tod := if s.clock.tod + 1 < Config.msPerDay then s.clock.tod + 1 else 0 } }

/-- A millisecond passes: the time base, and with it the time of day and every timer, advances while the reference input
runs and stands still while it has stopped (R23). -/
def tick (s : State) : State :=
  if clockStands s then s
  else if referenceRuns s then advance { s with reference := s.reference.drop 1 }
  else { s with reference := s.reference.drop 1 }

/-- An event, if it is due. -/
def whenDue (due : Bool) (i : Instr) : List Instr := if due then [i] else []

/-- The switch has reached its settle expiry (R68). -/
def switchDue (s : State) : Bool :=
  match s.switch with
  | .travelling _ e => decide (e ≤ s.clock.now)
  | .settled _ => false
  | .unpositioned => false

/-- The timer event of a claim entry that is due (R160, R165). -/
def claimDue (s : State) (e : Nat × ClaimEntry) : List Instr :=
  match e.2.state with
  | .free => []
  | .held _ _ t => whenDue (decide (t ≤ s.clock.now)) (.heldExpiry e.1)
  | .claiming _ none => []
  | .claiming _ (some t) => whenDue (decide (t ≤ s.clock.now)) (.holdOffExpiry e.1)
  | .opened _ t => whenDue (decide (t ≤ s.clock.now)) (.holdRepetition e.1)

/-- The timer event of a corroboration record that is due (R185, R187). -/
def roundDue (s : State) (e : Nat × CorrRecord) : List Instr :=
  match e.2 with
  | .idle => []
  | .opened r => whenDue (decide (r.expiry ≤ s.clock.now)) (.roundTimerExpiry e.1)
  | .settled r => whenDue (decide (r.expiry ≤ s.clock.now)) (.holdDownExpiry e.1)

/-- The timer events that are due. -/
def dueEvents (s : State) : List Instr :=
  whenDue (lockingOver s) .endOfLocking ++
  whenDue (windowOpens s) .windowStart ++
  whenDue (windowCloses s) .windowEnd ++
  whenDue (dozeDue s) .dozeEntry ++
  s.alerts.timers.flatMap (fun e => whenDue (decide (e.2 ≤ s.clock.now)) (.reRaiseTimerExpiry e.1)) ++
  whenDue (switchDue s) .switchSettleExpiry ++
  whenDue (isDue s s.sched.resumeExpiry && s.sched.save.isSome) .resumeTimerExpiry ++
  whenDue (isDue s s.peers.presence) .presenceTimerExpiry ++
  whenDue (isDue s s.peers.learning) .learningTimerExpiry ++
  s.peers.table.flatMap (fun e => whenDue (decide (e.2.ageExpiry ≤ s.clock.now)) (.ageTimerExpiry e.1)) ++
  s.claims.flatMap (claimDue s) ++
  s.corr.flatMap (roundDue s)

/-- The event that an empty queue leads to, of those due: the manual leaves the order open, so a free choice (log 2). -/
def chosenEvent (s : State) : Option Instr :=
  (dueEvents s)[Config.dueChoice s.free % (dueEvents s).length]?

/-- A step with no command waiting (log 1). -/
def idleStep (s : State) : Host.Outcome State Fault Refusal :=
  match dueEvents s with
  | [] => .next (tick s)
  | [i] => exec i s
  | _ :: _ :: _ =>
    match chosenEvent s with
    | some i => exec i (bumpFree s)
    | none => .next s

/-- A step that takes the command at the front of the queue. -/
def frontStep (i : Instr) (rest : List Instr) (s : State) : Host.Outcome State Fault Refusal :=
  exec i { s with pending := rest }

/-- s with what a table word spells at the front of its queue (log 27). -/
def withWord (s : State) (nbits w : Nat) : State :=
  match decodeTableWord nbits w with
  | some i => { s with pending := i :: s.pending }
  | none => s

end Sys2Proof.Machine
end

