-- ==== Sys2Proof/Machine/Step.lean ====
section
/-! DEFINITION. One step of the station, and the host's way of putting a command at the front of the queue. -/

namespace Sys2Proof.Machine

/-- One step: the command at the front of the queue, or, with none waiting, a due timer event or a millisecond. -/
def step (s : State) : Host.Outcome State Fault Refusal :=
  match s.pending with
  | i :: rest => frontStep i rest s
  | [] => idleStep s

/-- s with the command that a table word spells at the front of its queue. -/
def State.withFetchWord (s : State) (nbits w : Nat) : State := withWord s nbits w

end Sys2Proof.Machine
end

