-- ==== Sys2Proof/Safety.lean ====
section
/-! DEFINITION. What counts as a sound station: every table in its canonical form, the FIFO within its size with the
attention line following it (R197, R198), the inbox within its size (R142), no frame of the own id taken for a peer's
(R141, R148), the transmit queue within its limits and in order of age (R136), the clock's counters in their ranges (R28,
R33), one sweep with one claim in the engine (R65, R158), no shot but with the switch settled and the claim open (R69,
R73), and a fingerprint state that the page directory bears out (R7). Then, for the statements, what a cut write, a
given-up or released claim, an ended sweep, an own report and a verdict leave behind, the comparator's scans as
relations, and the layouts of chapter 12 as tables of fields. -/

namespace Sys2Proof.Machine

/-- The canonical form of the fingerprint memory: addresses strictly rising, so one cell for one address. -/
abbrev Memory.wf (m : Memory) : Prop := Table.wf m

/-- Every table of the fingerprint store is in canonical form. -/
abbrev Store.sound (s : Store) : Prop := Memory.wf s.mem ∧ Table.wf s.dir ∧ Table.wf s.fp

/-- The joined list and the outstanding spans of a corroboration record, where its state has them, are in ascending order
with one entry for one id or span (R173). -/
def CorrRecord.tablesSound : CorrRecord → Bool
  | .idle => true
  | .opened r => decide (Table.wf r.joined) && decide (Table.wf r.outstanding)
  | .settled r => decide (Table.wf r.joined)

/-- Every other table of the station is in canonical form, those within the corroboration records among them. -/
abbrev State.tablesSound (s : State) : Prop :=
  Table.wf s.port.stagedSpans ∧ Table.wf s.cfg.spans ∧ Table.wf s.clock.countdowns ∧ Table.wf s.alerts.timers ∧
  Table.wf s.sched.slots ∧ Table.wf s.comp.results ∧ Table.wf s.peers.table ∧ Table.wf s.claims ∧
  Table.wf s.corr ∧ ∀ e ∈ s.corr, e.2.tablesSound = true

/-- The FIFO holds at most 32 notices (R197), and the attention line is asserted while it holds one (R198). -/
abbrev Notices.sound (n : Notices) : Prop :=
  n.fifo.length ≤ Config.fifoSize ∧ n.attention = !n.fifo.isEmpty

/-- A station id that can be another station's: 1..31 and not the own id (R141, R148). -/
def isOther (own x : Nat) : Bool := decide (1 ≤ x) && decide (x ≤ 31) && decide (x ≠ own)

/-- The inbox holds at most 8 frames, all of other stations (R142, R141), and the peer table only other stations
(R148). -/
abbrev State.peersSound (s : State) : Prop :=
  s.line.inbox.length ≤ Config.inboxSize ∧ (∀ f ∈ s.line.inbox, isOther s.line.id f.sender = true) ∧
  ∀ x ∈ s.peers.table.keys, isOther s.line.id x = true

/-- No two waiting frames of which one replaces the other: at most one PRESENCE, one FINDING for each sheath group, one
HOLD for each light group (R136, R138, R139). -/
abbrev Line.queueSound (l : Line) : Prop := l.queue.Pairwise fun f g => sameFrame f.body g.body = false

/-- Every frame in the queue or in the attempt has an age of its own, earlier than the next frame's, and the waiting frames
stand in order of age (R136, R137). -/
abbrev Line.agesSound (l : Line) : Prop :=
  l.queue.Pairwise (fun f g => f.age < g.age) ∧ (∀ f ∈ l.queue ++ l.attempt.toList, f.age < l.nextAge) ∧
  ∀ a ∈ l.attempt.toList, ∀ f ∈ l.queue, f.age ≠ a.age

/-- The sheath group that a FINDING concerns (R136). -/
def findingGroup : FrameBody → Option Nat
  | .presence .. => none
  | .claim .. => none
  | .hold .. => none
  | .release .. => none
  | .finding h _ _ => some h

/-- The limits of R136: no two waiting frames of which one replaces the other, at most two waiting claim frames, and every
FINDING for a group of one of the at most 8 corroboration records (R4, R173). -/
abbrev State.queueBounded (s : State) : Prop :=
  s.line.queueSound ∧ (claimFrames s.line.queue).length ≤ 2 ∧ s.corr.length ≤ 8 ∧
  ∀ f ∈ s.line.queue ++ s.line.attempt.toList, ∀ h ∈ findingGroup f.body, s.corr.has h = true

/-- The line access state fits the attempt and the queue: a frame is in an attempt exactly in ARBITRATING and SENDING, in IDLE
no frame waits (R133, R134), and in ISOLATED there is none at all (R145). -/
abbrev State.lineSound (s : State) : Prop :=
  (s.line.attempt ≠ none ↔ s.line.state = .arbitrating ∨ s.line.state = .sending) ∧
  (s.line.state = .idle → s.line.queue = []) ∧
  (s.port.station = .isolated → s.line.queue = [] ∧ s.line.attempt = none)

/-- Time of day below 86,400,000 (R28) and a mask of 0..3 (R33), also after the mask the configuration gives. -/
abbrev State.clockSound (s : State) : Prop :=
  s.clock.tod < Config.msPerDay ∧ s.clock.mask ≤ 3 ∧ s.cfg.block.dayFloor ≤ 3

/-- Every bin sum is at most 4095 times the lit shots accumulated into its slot (R96). -/
abbrev Acc.sound (a : Acc) : Prop :=
  (∀ x ∈ a.slot0.sums, x ≤ 4095 * a.slot0.lit) ∧ ∀ x ∈ a.slot1.sums, x ≤ 4095 * a.slot1.lit

/-- The engine holds no sweep: OFF or IDLE (R65). -/
def atRest : EngineState → Bool
  | .off => true
  | .idle => true
  | .preparing => false
  | .dark => false
  | .quick => false
  | .full => false
  | .reducing => false
  | .storing => false

/-- The states of a sweep in which its claim may still be OPEN: up to the last lit shot, and through a quick reduction
and comparison (R75, R81). -/
def mayHoldClaim (c : Ctx) : EngineState → Bool
  | .preparing => true
  | .dark => true
  | .quick => true
  | .full => true
  | .reducing => c.quickOnly
  | .storing => false
  | .off => false
  | .idle => false

/-- An entry that the station itself claims: CLAIMING or OPEN (R155). -/
def ownClaim : ClaimState → Bool
  | .free => false
  | .held .. => false
  | .claiming .. => true
  | .opened .. => true

/-- A claim entry fits the engine's work: CLAIMING for the untaken sweep's group, OPEN for the taken sweep's
(R158, R70). -/
def claimFits (s : State) (e : Nat × ClaimEntry) : Bool :=
  match e.2.state with
  | .free => true
  | .held .. => true
  | .claiming .. =>
    isUntaken s && decide ((engineSpan s).map (lightGroupOf s) = some e.1)
  | .opened .. =>
    !isUntaken s &&
    match s.engine.ctx with
    | some c => decide (lightGroupOf s c.span = e.1) && mayHoldClaim c s.engine.state
    | none => false

/-- The current selection fits the tables and the engine: a selected slot holds its request, marked, on an enabled span
and the engine holds no context; a selected save slot stands in the context (R55, R60, R66). -/
def selectionFits (s : State) : Bool :=
  match s.sched.selection with
  | none => true
  | some (.slot n) =>
    decide (s.engine.state = .preparing) && s.engine.ctx.isNone && isEnabled s n &&
    (match s.sched.slots.find n with
     | some r => r.selected
     | none => false)
  | some .save => decide (s.engine.state = .preparing) && s.engine.ctx.any (·.resumed)

/-- The quick-only flag fits the sweep's path (R66, R67): a quick look has a fingerprint to compare with, QUICK is entered
with the flag set and FULL with it clear, and a resumed or suspended sweep is a FULL one. -/
def contextFits (s : State) : Bool :=
  (match s.engine.ctx with
   | none => true
   | some c =>
     (!c.quickOnly || (c.refPresent && !c.resumed)) &&
     (match s.engine.state with
      | .quick => c.quickOnly
      | .full => !c.quickOnly
      | _ => true)) &&
  s.sched.save.all fun c => !c.quickOnly

/-- The engine is OFF exactly while the clock unit is not AWAKE (R24, R65), holds a sweep exactly when it is neither OFF
nor IDLE, and every claim of the station is that of its sweep (R158). -/
abbrev State.engineSound (s : State) : Prop :=
  (s.port.station = .unconfigured → s.clock.state = .stopped) ∧
  (s.engine.state = .off ↔ s.clock.state ≠ .awake) ∧
  (atRest s.engine.state = true ↔ s.engine.ctx = none ∧ s.sched.selection = none) ∧
  selectionFits s = true ∧ contextFits s = true ∧ ∀ e ∈ s.claims, claimFits s e = true

/-- While a sweep seeks its claim LASER_FAULT is clear (R54, R71). A taken sweep that may still fire has LASER_FAULT clear
and its light group private or OPEN (R70, R73, R86), and once out of PREPARING the switch SETTLED on its span's port (R69). -/
abbrev State.firingSound (s : State) : Prop :=
  (s.sched.selection ≠ none → s.engine.laserFault = none) ∧
  ∀ c ∈ s.engine.ctx, s.sched.selection = none → mayHoldClaim c s.engine.state = true →
    s.engine.laserFault = none ∧ (lightGroupOf s c.span = 0 ∨ isOpen s (lightGroupOf s c.span) = true) ∧
    (s.engine.state ≠ .preparing → s.switch = .settled c.span)

/-- Page p holds an entry that names span n, the page's ordinal in the range of r, and the L of r (R7). -/
abbrev pageOf (s : State) (n : Nat) (r : SpanRecord) (p : Nat) : Prop :=
  s.store.dir.find p = some ⟨n, p - r.firstPage, r.len⟩

/-- R7 for one enabled span: PRESENT exactly when every page of its range holds its entry; and no entry names a span that is
not PRESENT (R8, R10, R14, R18). -/
abbrev fingerprintFits (s : State) (n : Nat) (r : SpanRecord) : Prop :=
  r.pages ≠ [] ∧ (fpOf s n = .present ↔ ∀ p ∈ r.pages, pageOf s n r p) ∧
  (fpOf s n ≠ .present → ∀ d ∈ s.store.dir, d.2.owner ≠ n)

/-- The enabled spans share no page (R3), their states follow the directory (R7), only enabled spans are other than ABSENT
(R7), and whatever writes does so on its own span, which is WRITING (R10, R14). -/
abbrev State.pagesSound (s : State) : Prop :=
  ((enabledSpans s).Pairwise fun e f => ∀ p ∈ e.2.pages, p ∉ f.2.pages) ∧
  (∀ e ∈ enabledSpans s, fingerprintFits s e.1 e.2) ∧
  (∀ x ∈ s.store.fp.keys, isEnabled s x = true) ∧
  (s.port.station = .unconfigured → s.store.load = none) ∧
  (∀ l ∈ s.store.load,
    fpOf s l.span = .writing ∧ engineSpan s ≠ some l.span ∧ ctxIs s.sched.save l.span = false) ∧
  (∀ c ∈ s.engine.ctx, s.engine.state = .storing → fpOf s c.span = .writing)

/-! ## What several rows leave behind -/

/-- Frames can be offered: the line access state is not PASSIVE and the station not ISOLATED (R136). -/
abbrev State.onLine (s : State) : Prop := s.line.state ≠ .passive ∧ s.port.station ≠ .isolated

/-- A frame of this urgency and contents waits or is in the attempt (R136). -/
abbrev State.hasFrame (s : State) (urgency : Nat) (body : FrameBody) : Prop :=
  ∃ f ∈ s.line.queue ++ s.line.attempt.toList, f.urgency = urgency ∧ f.body = body

/-- The baseline write of span n was stopped on the way from s to t (R12): n is ABSENT, the directory and the load stay,
and of the cells the first k bins of the trace were written, for some k; no other cell changes. -/
def writeWasCut (s t : State) (n : Nat) (r : SpanRecord) : Prop :=
  fpOf t n = .absent ∧ (∀ m, m ≠ n → fpOf t m = fpOf s m) ∧ t.store.dir = s.store.dir ∧ t.store.load = s.store.load ∧
  ∃ k, k ≤ s.trace.entries.length ∧
    (∀ i, i < k → t.store.mem.find (r.cell i) = some (s.trace.entries.getD i (2047, false)).1) ∧
    ∀ a, (∀ i, i < k → a ≠ r.cell i) → t.store.mem.find a = s.store.mem.find a

/-- The CLAIMING claim on g was given up on the way from s to t (R167): the entry is FREE; with the hold-off running a RELEASE
at the own level is offered; otherwise none is, a waiting CLAIM is gone, and a CLAIM in an attempt carries the mark
GIVEN_UP; a waiting HOLD is gone in either case. -/
def claimGivenUp (s t : State) (g : Nat) : Prop :=
  (∀ k, k ≠ g → t.claims.find k = s.claims.find k) ∧
  (∀ l e m, s.claims.find g = some ⟨.claiming l (some e), m⟩ →
    t.claims.find g = some ⟨.free, m⟩ ∧
    (s.onLine → t.hasFrame l (.release g l) ∧
      ∀ f ∈ t.line.queue, isClaimOf g f.body = false ∧ isHoldOf g f.body = false)) ∧
  ∀ l m, s.claims.find g = some ⟨.claiming l none, m⟩ →
    t.claims.find g =
      some ⟨.free, if m = none ∧ inAttempt s (isClaimOf g) = true then some (.givenUp, l) else m⟩ ∧
    (∀ f ∈ t.line.queue, isClaimOf g f.body = false ∧ isHoldOf g f.body = false) ∧
    ∀ f ∈ t.line.queue ++ t.line.attempt.toList, isReleaseOf g f.body = true →
      f ∈ s.line.queue ++ s.line.attempt.toList

/-- The stale CLAIM mark m of group g is n after a withdrawal from s (R162 step 2): WITHDRAWN with its level for a CLAIM of g
in an attempt, whatever mark it carried, and as it was with no CLAIM of g in an attempt. -/
def markedWithdrawn (s : State) (g : Nat) (m n : Option (StaleMark × Nat)) : Prop :=
  (∀ f l, s.line.attempt = some f → f.body = .claim g l → n = some (.withdrawn, l)) ∧
  (inAttempt s (isClaimOf g) = false → n = m)

/-- The engine released its claim on g on the way from s to t (R166): an OPEN entry is FREE and keeps its mark, a RELEASE at
the own level is offered, and no CLAIM or HOLD of the group waits; in any other state no entry changes. -/
def claimReleased (s t : State) (g : Nat) : Prop :=
  (∀ k, k ≠ g → t.claims.find k = s.claims.find k) ∧
  (∀ l e m, s.claims.find g = some ⟨.opened l e, m⟩ →
    t.claims.find g = some ⟨.free, m⟩ ∧
    (s.onLine → t.hasFrame l (.release g l) ∧
      ∀ f ∈ t.line.queue, isClaimOf g f.body = false ∧ isHoldOf g f.body = false)) ∧
  ((∀ l e m, s.claims.find g ≠ some ⟨.opened l e, m⟩) → t.claims = s.claims)

/-- A resume that was not yet taken went back to the save slot on the way from s to t, c being its context (R60): the
context stands there with its flags, the resume timer runs for what remained of it, the engine is IDLE, and the
accumulator slot with the sweep's sums takes the save role. -/
def resumeReturned (s t : State) (c : Ctx) : Prop :=
  t.sched.save = some { c with phase := .full } ∧ t.sched.selection = none ∧
  t.sched.resumeExpiry = some (s.clock.now + s.sched.resumeLeft) ∧
  t.engine.state = .idle ∧ t.engine.ctx = none ∧
  t.acc.slot t.acc.saved = { s.acc.current with owner := .suspended } ∧ t.acc.current = s.acc.slot s.acc.saved

/-- Step 4 of R85 for the sweep of context c on the way from s to t: its span's EDGE latch is clear if the sweep answers it
(R44), and the re-raise timer of a LEVEL span runs for the whole interval (R45); no other latch or timer changes. -/
def alertAnswered (s t : State) (c : Ctx) : Prop :=
  t.alerts.asserted = s.alerts.asserted ∧
  (∀ n, n ∈ t.alerts.latches ↔ n ∈ s.alerts.latches ∧ ¬ (c.answersLatch = true ∧ n = c.span)) ∧
  ∀ n, t.alerts.timers.find n =
    if n = c.span ∧ alertModeOfSpan s n = .level then some (s.clock.now + s.cfg.block.alertInterval * 1000)
    else s.alerts.timers.find n

/-- Steps 4 and 5 of R85 for the sweep of context c in the engine, on the way from s to t, before the selection that the
end is an occasion for: alert input answered, accumulator slot released, context and working result gone, engine IDLE. -/
def sweepEnded (s t : State) (c : Ctx) : Prop :=
  alertAnswered s t c ∧ t.engine.state = .idle ∧ t.engine.ctx = none ∧ t.sched.selection = none ∧
  t.acc.active = s.acc.active ∧ t.acc.current.owner = .none ∧
  t.acc.slot t.acc.saved = s.acc.slot s.acc.saved ∧ t.comp.working = none

/-- The eight conditions of R34, under which the doze delay timer runs. -/
abbrev State.mayDoze (s : State) : Prop :=
  s.cfg.block.dozeEnable = true ∧ s.clock.state = .awake ∧ s.port.station = .running ∧ s.clock.phase = .outside ∧
  (∀ e ∈ s.sched.slots, slotCandidate s e.1 e.2 = false) ∧ s.engine.state = .idle ∧ s.sched.save = none ∧
  ∀ e ∈ s.corr, ∀ r, e.2 ≠ .opened r

/-- A joined entry of kind BREAK or BEND at a distance that p allows (R186). -/
def faultAt (p : Nat → Bool) (e : Nat × Report) : Bool :=
  match e.2.kind, e.2.dist with
  | .brk, some x => p x
  | .bend, some x => p x
  | _, _ => false

/-- F of R186: joined faults within the tolerance of the opening distance d. -/
def nearFaults (tol d : Nat) (joined : Table Report) : Nat :=
  (joined.filter (faultAt fun x => decide (x ≤ d + tol ∧ d ≤ x + tol))).length

/-- G of R186: joined faults beyond the tolerance. -/
def farFaults (tol d : Nat) (joined : Table Report) : Nat :=
  (joined.filter (faultAt fun x => decide (d + tol < x ∨ x + tol < d))).length

/-- The round o of group h was completed with a joined list on the way from s to t (R186): the record is SETTLED, and the
VERDICT notice is posted, when the FIFO has room for what the row may post. -/
def verdictIssued (s t : State) (h : Nat) (o : OpenRound) (joined : Table Report) (timedOut : Bool) : Prop :=
  t.corr.find h = some (.settled ⟨o.openKind, o.openDist, o.openedAt, joined,
    s.clock.now + s.cfg.block.holdDown * 1000⟩) ∧
  (s.notices.fifo.length + s.corr.length + 2 ≤ Config.fifoSize →
    ⟨.verdict h (decide (2 ≤ nearFaults s.cfg.block.tolerance o.openDist joined))
      (nearFaults s.cfg.block.tolerance o.openDist joined) (farFaults s.cfg.block.tolerance o.openDist joined)
      timedOut joined.keys (existsSet t h), s.clock.tod⟩ ∈ t.notices.fifo)

/-- The completion check of R184 was made on the way from s to t, on the round o of group h with a joined list: completed
without PARTIAL when every id of the exists set has joined, otherwise OPEN still. -/
def checkedForCompletion (s t : State) (h : Nat) (o : OpenRound) (joined : Table Report) : Prop :=
  ((∀ i ∈ existsSet t h, joined.find i ≠ none) → verdictIssued s t h o joined false) ∧
  ((∃ i ∈ existsSet t h, joined.find i = none) → t.corr.find h = some (.opened { o with joined := joined }))

/-- The own report was made in the round o of group h on the way from s to t (R181): the FINDING is offered, the own id
joins with its kind and distance, and the completion check is made. -/
def reportMade (s t : State) (h : Nat) (o : OpenRound) (rep : Report) : Prop :=
  (s.onLine → t.hasFrame (if rep.kind = .brk ∨ rep.kind = .bend then 3 else 2)
    (.finding h rep.kind.code (rep.dist.getD 0))) ∧
  checkedForCompletion s t h { o with reported := true } (o.joined.put s.line.id rep)

/-- Candidate b is chosen before candidate x as best own finding, d being the opening distance (R181). -/
def chosenBefore (d : Nat) (b x : Best) : Prop :=
  (b.kind = .brk ∧ x.kind = .bend) ∨
  (b.kind = x.kind ∧ (gapOf b.dist d < gapOf x.dist d ∨
    (gapOf b.dist d = gapOf x.dist d ∧ (b.dist < x.dist ∨ (b.dist = x.dist ∧ b.span ≤ x.span)))))

/-- `best` is the best own finding among candidates, all BREAK or BEND; none when there is no candidate (R181). -/
def bestAmong (d : Nat) (cands : List Best) (best : Option Best) : Prop :=
  (best = none ↔ cands = []) ∧
  ∀ b, best = some b → b ∈ cands ∧ ∀ x ∈ cands, chosenBefore d b x

/-- The report that R181's table chooses, as a relation: with a best own finding, with a comparison seen, with every span out
of range at opening, otherwise. -/
def chosenReport (o : OpenRound) (rep : Report) : Prop :=
  (∀ b, o.best = some b → rep = ⟨b.kind, some b.dist⟩) ∧
  (o.best = none → o.seen = true → rep = ⟨.clear, none⟩) ∧
  (o.best = none → o.seen = false → o.allOut = true → rep = ⟨.outOfRange, none⟩) ∧
  (o.best = none → o.seen = false → o.allOut = false → rep = ⟨.outOfService, none⟩)

/-! ## The comparator's scans, as relations -/

/-- Bin e is a departure start against base b (R115). -/
def departsAt (p : Problem) (off b : Int) (e : Nat) : Prop :=
  e + 10 ≤ p.last ∧ p.saturated e = false ∧
  ((∀ i, i < 4 → (p.theta : Int) ≤ p.smooth off (e + i) - b) ∨
   ∀ i, i < 4 → p.smooth off (e + i) - b ≤ -(p.theta : Int))

/-- Bin e is the first departure start at or beyond a scan point (R115). -/
def firstDeparture (p : Problem) (off b : Int) (point e : Nat) : Prop :=
  point ≤ e ∧ departsAt p off b e ∧ ∀ x, point ≤ x → x < e → ¬ departsAt p off b x

/-- The number of bins of m..E whose level exceeds the floor level (R117). -/
def brightBins (p : Problem) (m : Nat) : Nat :=
  ((List.range (p.last + 1)).filter fun j => decide (m ≤ j) && decide (p.floorLevel < p.level j)).length

/-- The loss and gain scan from a base and a scan point records these events, and this break bin (R115 to R117): GAIN, BEND
and BREAK by the step at the step point, no event for a step below θ, and no further scan after a BREAK. -/
inductive Scanned (p : Problem) (off : Int) : Int → Nat → List Event → Option Nat → Prop where
  | over (b : Int) (point : Nat) : (∀ e, point ≤ e → ¬ departsAt p off b e) → Scanned p off b point [] none
  | gain (b : Int) (point e m : Nat) (evs : List Event) (brk : Option Nat) :
    firstDeparture p off b point e → m = min (e + 12) (p.last - 7) →
    (p.theta : Int) ≤ p.smooth off m - b → Scanned p off (p.smooth off m) (m + 1) evs brk →
    Scanned p off b point (p.event .gain e (some (p.smooth off m - b)) (p.peak e) :: evs) brk
  | bend (b : Int) (point e m : Nat) (evs : List Event) (brk : Option Nat) :
    firstDeparture p off b point e → m = min (e + 12) (p.last - 7) →
    p.smooth off m - b ≤ -(p.theta : Int) → 9 ≤ brightBins p m →
    Scanned p off (p.smooth off m) (m + 1) evs brk →
    Scanned p off b point (p.event .bend e (some (p.smooth off m - b)) (p.peak e) :: evs) brk
  | dark (b : Int) (point e m : Nat) :
    firstDeparture p off b point e → m = min (e + 12) (p.last - 7) →
    p.smooth off m - b ≤ -(p.theta : Int) → brightBins p m ≤ 8 →
    Scanned p off b point [p.event .brk e none (p.peak e)] (some e)
  | passed (b : Int) (point e m : Nat) (evs : List Event) (brk : Option Nat) :
    firstDeparture p off b point e → m = min (e + 12) (p.last - 7) →
    -(p.theta : Int) < p.smooth off m - b → p.smooth off m - b < p.theta →
    Scanned p off (p.smooth off m) (m + 1) evs brk → Scanned p off b point evs brk

/-- Bin j qualifies as reflective beside the events and the break bin of the loss and gain scan (R119). -/
def reflectsAt (p : Problem) (off : Int) (steps : List Event) (brk : Option Nat) (j : Nat) : Prop :=
  p.first ≤ j ∧ j ≤ p.last ∧ (∀ x, brk = some x → j < x) ∧
  (p.rho : Int) ≤ (p.level j : Int) - p.ref j - off ∧
  2 * ((p.ref j : Int) - p.ref (j - 1)) < p.rho ∧
  ∀ e ∈ steps, j + 4 < e.bin ∨ e.bin + 4 < j

/-- Bin b is the one a REFLECTION names (R120): in a run lo..hi of reflective bins that no further bin extends, the lowest
bin of the largest departure. -/
def topsItsRun (p : Problem) (off : Int) (steps : List Event) (brk : Option Nat) (b : Nat) : Prop :=
  ∃ lo hi, lo ≤ b ∧ b ≤ hi ∧ (∀ j, lo ≤ j → j ≤ hi → reflectsAt p off steps brk j) ∧
    ¬ reflectsAt p off steps brk (hi + 1) ∧ (∀ j, j + 1 = lo → ¬ reflectsAt p off steps brk j) ∧
    (∀ j, lo ≤ j → j < b → p.departure off j < p.departure off b) ∧
    ∀ j, b < j → j ≤ hi → p.departure off j ≤ p.departure off b

/-! ## The layouts of chapter 12, as tables of fields: the width in bytes and the value of each, in the order sent -/

/-- A number whose bit i is the i-th flag. -/
def flagBits (fs : List Bool) : Nat := (fs.zipIdx.map fun e => if e.1 then 2 ^ e.2 else 0).sum

/-- A set of station ids as a number whose bit i is set for id i, ids 0..31. -/
def idBits (ids : List Nat) : Nat := (((List.range 32).filter fun i => decide (i ∈ ids)).map fun i => 2 ^ i).sum

/-- A signed number in two bytes: two's complement. -/
def twosComplement (v : Int) : Nat := (v % 65536).toNat

/-- Outcomes in the order of 12.3, numbered from 1. -/
def outcomeNo (o : SweepOutcome) : Nat :=
  [SweepOutcome.clean, .changed, .broken, .noReference, .baselined, .foreignLight, .disturbed, .overload, .fault, .abandoned,
    .aborted].idxOf o + 1

/-- Request kinds in the order of 12.3, numbered from 1. -/
def requestNo (k : ReqKind) : Nat := [ReqKind.routine, .host, .alert, .confirm, .baseline].idxOf k + 1

/-- Laser fault codes in the order of the notice table (10.5), numbered from 1. -/
def laserNo (c : LaserCode) : Nat := [LaserCode.pulseMissing, .pulseExcess, .drive, .temperature].idxOf c + 1

/-- Reported kinds in the order of 12.1, numbered from 1. -/
def reportNo (k : ReportKind) : Nat := [ReportKind.brk, .bend, .clear, .outOfRange, .outOfService].idxOf k + 1

/-- Engine states in the order of R65, numbered from 0. -/
def engineNo (e : EngineState) : Nat :=
  [EngineState.off, .idle, .preparing, .dark, .quick, .full, .reducing, .storing].idxOf e

/-- The fields of a notice (12.3): kind, subject, code, time of day, and for a VERDICT F, G, flags and the two masks. -/
def noticeFields (n : Notice) : List (Nat × Nat) :=
  match n.body with
  | .sweepDone x o => [(1, 1), (1, x), (2, outcomeNo o), (4, n.time)]
  | .verdict h sheath f g timedOut joined members =>
    [(1, 2), (1, h), (2, if sheath then 1 else 2), (4, n.time), (1, f), (1, g), (1, if timedOut then 1 else 0),
      (4, idBits joined), (4, idBits members)]
  | .fpLost x c =>
    [(1, 3), (1, x), (2, [LostCause.retention, .writeCut, .loadCancelled].idxOf c + 1), (4, n.time)]
  | .baselineCancelled x c =>
    [(1, 4), (1, x), (2, [CancelCause.replacedByConfirm, .replacedByAlert, .spanOff].idxOf c + 1), (4, n.time)]
  | .windowEnd k => [(1, 5), (1, 0), (2, k), (4, n.time)]
  | .laserFault x c => [(1, 6), (1, x), (2, laserNo c), (4, n.time)]
  | .dupId x c => [(1, 7), (1, x), (2, [DupCause.received, .readback].idxOf c + 1), (4, n.time)]
  | .peerChange x c =>
    [(1, 8), (1, x), (2, [PeerChange.joined, .agedOut, .stateChanged, .groupsChanged].idxOf c + 1), (4, n.time)]

/-- The slot part of READ-RESULT (12.4): kind, level, flags, target bin, raised time; zeros for an empty slot (an absent
field is sent as 0). -/
def slotFields : Option Request → List (Nat × Nat)
  | none => [(1, 0), (1, 0), (1, 0), (2, 0), (4, 0)]
  | some r =>
    [(1, requestNo r.kind), (1, r.level), (1, flagBits [r.windowed, r.selected, r.target.isSome]), (2, r.target.getD 0),
      (4, r.raised)]

/-- The latest part (12.4): outcome, kind, level, end time, lit shots, D; zeros when absent, the bytes of D
too (log 36). -/
def latestFields : Option Latest → List (Nat × Nat)
  | none => [(1, 0), (1, 0), (1, 0), (4, 0), (4, 0), (2, 0)]
  | some l =>
    [(1, outcomeNo l.outcome), (1, requestNo l.kind), (1, l.level), (4, l.endTime), (4, l.lit),
      (2, l.darkLevel.getD 0xFFFF)]

/-- An event (12.4): kind, flags, bin, distance, step, peak. -/
def eventFields (e : Event) : List (Nat × Nat) :=
  [(1, [EventKind.brk, .bend, .reflection, .gain].idxOf e.kind + 1), (1, flagBits [e.step.isSome, e.peak.isSome]),
    (2, e.bin), (3, e.distance), (2, twosComplement (e.step.getD 0)), (2, e.peak.getD 0)]

/-- The comparison part (12.4): completion time, offset, flags, outcome, event count, and 8 events of 11 bytes, the unused ones
zero; zeros when absent. -/
def comparisonFields : Option Comparison → List (Nat × Nat)
  | none => List.replicate 97 (1, 0)
  | some c =>
    [(4, c.time), (2, twosComplement c.offset), (1, flagBits [c.unanchored, c.more, c.windowed, c.quickOnly]),
      (1, outcomeNo c.outcome), (1, c.events.length)] ++
    c.events.flatMap eventFields ++ List.replicate (11 * (8 - c.events.length)) (1, 0)

/-- The body of READ-RESULT for span n with result record r (12.4). -/
def resultFields (s : State) (n : Nat) (r : ResultRecord) : List (Nat × Nat) :=
  [(1, n),
    (1, flagBits [r.latest.isSome, r.comparison.isSome, r.held.isSome, decide (s.sched.slots.find n ≠ none),
      decide (n ∈ s.sched.off), ctxIs s.engine.ctx n, ctxIs s.sched.save n,
      decide (n ∈ s.alerts.latches ∨ s.alerts.timers.find n ≠ none)]),
    (1, [FpState.absent, .writing, .present].idxOf (fpOf s n)), (1, r.missed), (2, twosComplement (r.held.getD 0))] ++
  slotFields (s.sched.slots.find n) ++ latestFields r.latest ++ comparisonFields r.comparison

/-- What remains of a timer in ms; 0 for one that is not running (12.5). -/
def timeLeft (s : State) (t : Option Nat) : Nat := t.elim 0 fun e => e - s.clock.now

/-- The station and clock sections of READ-STATUS (12.5). -/
def stationClockFields (s : State) : List (Nat × Nat) :=
  [(1, s.line.id), (1, [StationState.unconfigured, .learning, .running, .halted, .isolated].idxOf s.port.station),
    (1, if s.port.station = .unconfigured then 0 else 1), (4, timeLeft s s.peers.learning),
    (1, flagBits [s.notices.overflow, s.line.overrun, s.line.dupId, s.engine.laserFault.isSome]),
    (1, s.engine.laserFault.elim 0 laserNo), (1, s.notices.fifo.length),
    (1, [ClockState.stopped, .locking, .awake, .dozing].idxOf s.clock.state), (4, s.clock.tod),
    (1, [Phase.outside, .inside].idxOf s.clock.phase), (1, s.clock.mask), (1, if s.clock.dozeExpiry = none then 0 else 1)]

/-- The scheduler and engine sections of READ-STATUS (12.5): span, kind and level 0 for no sweep. -/
def schedulerEngineFields (s : State) : List (Nat × Nat) :=
  [(1, s.sched.slots.length),
    (1, match s.sched.selection with
      | none => 0
      | some (.slot n) => n
      | some .save => s.engine.ctx.elim 0 Ctx.span),
    (1, s.sched.save.elim 0 Ctx.span), (1, s.sched.save.elim 0 fun c => requestNo c.kind),
    (1, s.sched.save.elim 0 Ctx.level), (4, s.sched.save.elim 0 Ctx.litDone), (4, timeLeft s s.sched.resumeExpiry),
    (1, engineNo s.engine.state), (1, s.engine.ctx.elim 0 Ctx.span),
    (1, s.engine.ctx.elim 0 fun c => requestNo c.kind), (1, s.engine.ctx.elim 0 Ctx.level),
    (1, s.engine.ctx.elim 0 fun c => engineNo c.phase), (4, s.engine.ctx.elim 0 Ctx.litDone)] ++
  match s.switch with
  | .unpositioned => [(1, 0), (1, 0)]
  | .travelling p _ => [(1, 1), (1, p)]
  | .settled p => [(1, 2), (1, p)]

/-- A peer in READ-STATUS (12.5): id, presence state, last heard, group count, 8 groups. -/
def peerFields (e : Nat × Peer) : List (Nat × Nat) :=
  [(1, e.1), (1, [PresenceState.learning, .running, .dozing, .halted].idxOf e.2.state), (4, e.2.lastHeard),
    (1, e.2.groups.length)] ++ e.2.groups.map (fun g => (1, g)) ++ List.replicate (8 - e.2.groups.length) (1, 0)

/-- The rack line section of READ-STATUS (12.5); the frame in the attempt counts in the queue (R136). -/
def lineFields (s : State) : List (Nat × Nat) :=
  [(1, [LineState.passive, .busy, .gap, .idle, .arbitrating, .sending].idxOf s.line.state),
    (1, (s.line.queue ++ s.line.attempt.toList).length), (1, s.line.inbox.length), (1, s.peers.table.length)] ++
  s.peers.table.flatMap peerFields

/-- A claim entry in READ-STATUS (12.5): group, state, holder, level, remaining time, stale mark set. -/
def claimFields (s : State) (e : Nat × ClaimEntry) : List (Nat × Nat) :=
  (1, e.1) ::
  (match e.2.state with
   | .free => [(1, 0), (1, 0), (1, 0), (4, 0)]
   | .held x l t => [(1, 1), (1, x), (1, l), (4, t - s.clock.now)]
   | .claiming l none => [(1, 2), (1, 0), (1, l), (4, 0xFFFFFFFF)]
   | .claiming l (some t) => [(1, 2), (1, 0), (1, l), (4, t - s.clock.now)]
   | .opened l t => [(1, 3), (1, 0), (1, l), (4, t - s.clock.now)]) ++
  [(1, if e.2.stale = none then 0 else 1)]

/-- The joined count and the joined entries of a record (12.5): id, kind, distance. -/
def joinedFields (joined : Table Report) : List (Nat × Nat) :=
  (1, joined.length) :: joined.flatMap fun e => [(1, e.1), (1, reportNo e.2.kind), (3, e.2.dist.getD 0)]

/-- A corroboration record in READ-STATUS (12.5): group, state, opening kind and distance, opened time, remaining time,
outstanding spans, own report made, exists mask, joined list; the fields a record does not have are zero (log 29). -/
def recordFields (s : State) (e : Nat × CorrRecord) : List (Nat × Nat) :=
  (1, e.1) ::
  match e.2 with
  | .idle => [(1, 0), (1, 0), (3, 0), (4, 0), (4, 0), (1, 0), (1, 0), (4, 0)] ++ joinedFields []
  | .opened r =>
    [(1, 1), (1, reportNo r.openKind), (3, r.openDist), (4, r.openedAt), (4, r.expiry - s.clock.now),
      (1, r.outstanding.length), (1, if r.reported then 1 else 0), (4, idBits (existsSet s e.1))] ++ joinedFields r.joined
  | .settled r =>
    [(1, 2), (1, reportNo r.openKind), (3, r.openDist), (4, r.openedAt), (4, r.expiry - s.clock.now), (1, 0), (1, 0),
      (4, 0)] ++ joinedFields r.joined

/-- The body of READ-STATUS: the seven sections of 12.5. -/
def statusFields (s : State) : List (Nat × Nat) :=
  stationClockFields s ++ schedulerEngineFields s ++ lineFields s ++
  (1, s.claims.length) :: s.claims.flatMap (claimFields s) ++ (1, s.corr.length) :: s.corr.flatMap (recordFields s)

/-- The descriptor of a result trace (12.4): span, L, n, D, window flag, window first bin and count, saturated count. -/
def traceFields (d : TraceDesc) : List (Nat × Nat) :=
  [(1, d.span), (2, d.len), (1, d.n), (2, d.darkLevel), (1, if d.window = none then 0 else 1),
    (2, d.window.elim 0 Prod.fst), (2, d.window.elim 0 Prod.snd), (2, d.saturated)]

/-- A sweep is in the engine and the clock unit runs: a row's own effect is then followed by no selection and no wake. -/
abbrev State.occupied (s : State) : Prop := s.engine.state ≠ .idle ∧ s.clock.state = .awake

end Sys2Proof.Machine
end

