-- ==== Sys2Proof/Certificates/Slice0/Obligations.lean ====
section
/-! DEFINITION. The statements for the provers. `answer s k body` is s with the reply of kind k and body ready and the
command in progress emptied (R189). Where a statement asks for an engine that is not IDLE and a clock unit that is AWAKE,
no selection and no wake follows the row's own effect, and the doze delay timer stands still. -/

section
open Sys2Proof Sys2Proof.Machine

/-! ## The step -/

/-- A step with a command waiting runs the command at the front of the queue on the state with the rest of the queue. -/
def Obligations.StepRunsTheFrontCommand : Prop :=
  ∀ (c : Instr) (rest : List Instr) (s : State),
    step { s with pending := c :: rest } = exec c { s with pending := rest }

/-- With no command waiting, a step takes a due timer event, or one millisecond passes on a running time base: time base
and time of day advance while the reference input runs, and stand still while it has stopped; several due events are
taken in some order. Model's choices: what an empty queue leads to (log 1, log 2); how a stopped reference input is
given (log 28). -/
def Obligations.EmptyQueueTakesADueEventOrAMillisecond : Prop :=
  ∀ s : State, s.pending = [] →
    (∀ rest, dueEvents s = [] → s.clock.state ≠ .stopped →
      ((s.reference = true :: rest ∨ (s.reference = [] ∧ rest = [])) → s.clock.tod < 86400000 →
        step s = .next { s with
          reference := rest
          clock := { s.clock with now := s.clock.now + 1, tod := (s.clock.tod + 1) % 86400000 } }) ∧
      (s.reference = false :: rest → step s = .next { s with reference := rest })) ∧
    (dueEvents s = [] → s.clock.state = .stopped → step s = .next s) ∧
    (∀ c, dueEvents s = [c] → step s = exec c s) ∧
    (2 ≤ (dueEvents s).length → ∃ c ∈ dueEvents s, ∃ n, step s = exec c { s with free := n })

/-! ## Reset -/

/-- State.reset meets every invariant of Safety.lean. -/
def Obligations.ResetIsSound : Prop :=
  State.reset.store.sound ∧ State.reset.tablesSound ∧ State.reset.notices.sound ∧ State.reset.peersSound ∧
  State.reset.line.queueSound ∧ State.reset.clockSound ∧ State.reset.acc.sound ∧ State.reset.engineSound ∧
  State.reset.firingSound ∧ State.reset.pagesSound ∧ State.reset.queueBounded ∧ State.reset.line.agesSound ∧
  State.reset.lineSound

/-- COLD_RESET leaves the reset values of every block: UNCONFIGURED, clock STOPPED, engine OFF, switch UNPOSITIONED,
line PASSIVE, no LASER_FAULT, an empty directory; the id comes from the straps. The queue and the alert lines are
outside the part (log 6). Model's choices: bins of an empty accumulator slot (log 11); what a reset does to lines, queue
and reply (log 6, log 13); the reference input goes on (log 28). -/
def Obligations.ColdResetLeavesTheResetValues : Prop :=
  ∀ (straps : BitVec 5) (s : State), ∃ t : State, exec (.coldReset straps) s = .next t ∧
    t.port = ⟨none, none, .unconfigured, [],
      { refKHz := 0, mulM := 0, divP := 0, groupIndex := 0, quietStart := 0, quietEnd := 0, dayFloor := 3,
        holdOff := 50, claimLifetime := 10, roundTimeout := 60, holdDown := 120, resumeLimit := 30,
        tolerance := 500, reflection := 300, floorLevel := 240, foreignLight := 200, disturbance := 100,
        retention := 0, dozeEnable := false, alertInterval := 60 }⟩ ∧
    t.cfg.spans = [] ∧ t.cfg.lightGroups = [] ∧ t.cfg.sheathGroups = [] ∧
    t.clock.state = .stopped ∧ t.clock.tod = 0 ∧ t.clock.phase = .outside ∧ t.clock.mask = 3 ∧
    t.clock.countdowns = [] ∧ t.clock.dozeExpiry = none ∧ t.clock.lockExpiry = none ∧
    t.alerts = ⟨s.alerts.asserted, [], []⟩ ∧
    t.sched.slots = [] ∧ t.sched.off = [] ∧ t.sched.save = none ∧ t.sched.resumeExpiry = none ∧
    t.sched.selection = none ∧
    t.engine.state = .off ∧ t.engine.ctx = none ∧ t.engine.laserFault = none ∧ t.engine.condition = false ∧
    t.switch = .unpositioned ∧ t.acc.active = 0 ∧ t.acc.slot0.owner = .none ∧ t.acc.slot1.owner = .none ∧
    t.acc.slot0.lit = 0 ∧ t.acc.slot1.lit = 0 ∧ t.trace.state = .empty ∧
    t.comp = ⟨[], none⟩ ∧ t.store.dir = [] ∧ t.store.fp = [] ∧ t.store.load = none ∧
    t.line.id = straps.toNat ∧ t.line.state = .passive ∧ t.line.queue = [] ∧ t.line.attempt = none ∧
    t.line.inbox = [] ∧ t.line.overrun = false ∧ t.line.dupId = false ∧
    t.peers = ⟨[], none, none⟩ ∧ t.claims = [] ∧ t.corr = [] ∧ t.notices = ⟨[], false, false⟩ ∧
    t.pending = s.pending ∧ t.reference = s.reference

/-- WARM_RESET is always taken. It keeps the page directory, LASER_FAULT with its code, and every page cell outside the
range of a baseline write that it stops; everything else is as State.reset and a cold reset leave it, the id again from
the straps. Model's choices: how much a stopped baseline write had copied is free (log 8); what a reset does to lines,
queue and reply (log 6, log 13); the bin spacing before START (log 10); bins of an empty accumulator slot (log 11); the
locked block before START (log 12); the first frame age (log 24); dark counters, remaining resume time and the other
fields no rule names (log 26); the reference input goes on (log 28). -/
def Obligations.WarmResetKeepsDirectoryPagesAndFault : Prop :=
  ∀ (straps : BitVec 5) (s : State), ∃ t : State, exec (.warmReset straps) s = .next t ∧
    t = { State.reset with
      pending := s.pending, reference := s.reference
      alerts := ⟨s.alerts.asserted, [], []⟩
      line := { State.reset.line with id := straps.toNat }
      store := ⟨t.store.mem, s.store.dir, [], none⟩
      engine := ⟨.off, none, s.engine.laserFault, false, 0, 0⟩, free := t.free } ∧
    (∀ u, exec (.coldReset straps) s = .next u → t = { u with
      store := { u.store with mem := t.store.mem, dir := s.store.dir }
      engine := { u.engine with laserFault := s.engine.laserFault } }) ∧
    (s.engine.state ≠ .storing → t.store.mem = s.store.mem) ∧
    (∀ c r a, s.engine.ctx = some c → enabledRec s c.span = some r →
      (a < r.cell 0 ∨ r.cell 0 + s.trace.entries.length ≤ a) → t.store.mem.find a = s.store.mem.find a)

/-! ## Configuration and START -/

/-- CONFIG-WRITE replaces one staged record or the staged block, with the values as given, only while UNCONFIGURED. -/
def Obligations.ConfigWriteReplacesStagedValues : Prop :=
  ∀ s : State,
    (s.port.station = .unconfigured → ∀ (n : Nat) (r : SpanRecord), 1 ≤ n → n ≤ 48 →
      ∃ t, exec (.configWriteSpan n r) s = .next t ∧
        t = answer { s with port := { s.port with stagedSpans := t.port.stagedSpans } } .accepted [] ∧
        t.port.stagedSpans.find n = some r ∧
        ∀ m, m ≠ n → t.port.stagedSpans.find m = s.port.stagedSpans.find m) ∧
    (s.port.station = .unconfigured → ∀ (n : Nat) (r : SpanRecord), (n = 0 ∨ 48 < n) →
      exec (.configWriteSpan n r) s = .next (answer s .refusedParam [])) ∧
    (s.port.station = .unconfigured → ∀ b : StationBlock,
      exec (.configWriteStation b) s =
        .next (answer { s with port := { s.port with stagedStation := b } } .accepted [])) ∧
    (s.port.station ≠ .unconfigured → ∀ (n : Nat) (r : SpanRecord) (b : StationBlock),
      exec (.configWriteSpan n r) s = .next (answer s .refusedState []) ∧
      exec (.configWriteStation b) s = .next (answer s .refusedState []))

/-- START finds no fault exactly when every station-wide bound of R191, R22, R171 and R176, every bound of R3 for each
enabled record, at most 16 light groups and 8 sheath groups, and no shared page allow it. A refused START: REFUSED_STATE
unless UNCONFIGURED; otherwise REFUSED_PARAM with the number of the first failing check and the first bad span, and
nothing else changes. -/
def Obligations.StartChecksEveryBound : Prop :=
  (∀ (s : State) (tod : Nat), startFault s tod = none ↔
     ((1 ≤ s.line.id ∧ s.line.id ≤ 31) ∧
      (10000 ≤ s.port.stagedStation.refKHz ∧ s.port.stagedStation.refKHz ≤ 40000) ∧
      (1 ≤ s.port.stagedStation.mulM ∧ s.port.stagedStation.mulM ≤ 64) ∧
      (1 ≤ s.port.stagedStation.divP ∧ s.port.stagedStation.divP ≤ 16) ∧
      (50000 * s.port.stagedStation.divP ≤ s.port.stagedStation.refKHz * s.port.stagedStation.mulM ∧
       s.port.stagedStation.refKHz * s.port.stagedStation.mulM ≤ 250000 * s.port.stagedStation.divP) ∧
      (14000 ≤ s.port.stagedStation.groupIndex ∧ s.port.stagedStation.groupIndex ≤ 15000) ∧
      s.port.stagedStation.quietStart ≤ 1439 ∧ s.port.stagedStation.quietEnd ≤ 1439 ∧
      (1 ≤ s.port.stagedStation.dayFloor ∧ s.port.stagedStation.dayFloor ≤ 3) ∧
      tod ≤ 86399999 ∧
      (5 ≤ s.port.stagedStation.resumeLimit ∧ s.port.stagedStation.resumeLimit ≤ 120) ∧
      (10 ≤ s.port.stagedStation.alertInterval ∧ s.port.stagedStation.alertInterval ≤ 3600) ∧
      (8 ≤ s.port.stagedStation.foreignLight ∧ s.port.stagedStation.foreignLight ≤ 4095) ∧
      (8 ≤ s.port.stagedStation.disturbance ∧ s.port.stagedStation.disturbance ≤ 4095) ∧
      (100 ≤ s.port.stagedStation.reflection ∧ s.port.stagedStation.reflection ≤ 1000) ∧
      s.port.stagedStation.floorLevel ≤ 1000 ∧
      (20 ≤ s.port.stagedStation.holdOff ∧ s.port.stagedStation.holdOff ≤ 200) ∧
      (2 ≤ s.port.stagedStation.claimLifetime ∧ s.port.stagedStation.claimLifetime ≤ 60) ∧
      (10 ≤ s.port.stagedStation.roundTimeout ∧ s.port.stagedStation.roundTimeout ≤ 600) ∧
      (10 ≤ s.port.stagedStation.holdDown ∧ s.port.stagedStation.holdDown ≤ 600) ∧
      (10 ≤ s.port.stagedStation.tolerance ∧ s.port.stagedStation.tolerance ≤ 10000)) ∧
     (∀ e ∈ stagedEnabled s,
       (256 ≤ e.2.len ∧ e.2.len ≤ 16384 ∧ e.2.len % 256 = 0) ∧ (16 ≤ e.2.anchor ∧ e.2.anchor + 112 ≤ e.2.len) ∧
       (10 ≤ e.2.tau ∧ e.2.tau ≤ 1000) ∧ (8 ≤ e.2.shots ∧ e.2.shots ≤ 16) ∧ e.2.cycle ≤ 255 ∧
       e.2.alertMode ≤ 2 ∧ (1 ≤ e.2.alertLevel ∧ e.2.alertLevel ≤ 3) ∧ e.2.offset ≤ 327670 ∧
       e.2.firstPage ≤ 127 ∧ e.2.firstPage + (e.2.len + 4095) / 4096 ≤ 128) ∧
     (groupsOf (·.lightGroup) (stagedEnabled s)).length ≤ 16 ∧
     (groupsOf (·.sheathGroup) (stagedEnabled s)).length ≤ 8 ∧
     (stagedEnabled s).Pairwise fun e f => ∀ p ∈ e.2.pages, p ∉ f.2.pages) ∧
  (∀ (s : State) (tod : Nat),
     (s.port.station ≠ .unconfigured → exec (.start tod) s = .next (answer s .refusedState [])) ∧
     (∀ code span, s.port.station = .unconfigured → startFault s tod = some (code, span) →
       exec (.start tod) s =
         .next (answer s .refusedParam [BitVec.ofNat 8 code, BitVec.ofNat 8 span])) ∧
     (∀ k, (∀ j, j < k → (stationChecks s.line.id tod s.port.stagedStation)[j]? = some true) →
       (stationChecks s.line.id tod s.port.stagedStation)[k]? = some false →
       startFault s tod = some (k + 1, 0)) ∧
     (∀ pre e post k, stagedEnabled s = pre ++ e :: post →
       (∀ b ∈ stationChecks s.line.id tod s.port.stagedStation, b = true) →
       (∀ p x q, pre = p ++ x :: q → ∀ b ∈ spanChecks p x.1 x.2, b = true) →
       (∀ j, j < k → (spanChecks pre e.1 e.2)[j]? = some true) → (spanChecks pre e.1 e.2)[k]? = some false →
       startFault s tod = some (20 + k, e.1)))

/-- An accepted START: the staged configuration is locked, the clock unit enters LOCKING with spacing, time of day,
phase, mask and countdowns, records and entries are created, the line unit enters BUSY with the first PRESENCE waiting,
the station is LEARNING, and a LEVEL input whose line is asserted has its ALERT in the pending table, which is empty
otherwise. Model's choices: the first frame age (log 24); the remaining resume time is 0 (log 26). -/
def Obligations.StartStartsTheStation : Prop :=
  ∀ (s : State) (tod : Nat), s.port.station = .unconfigured → startFault s tod = none →
    ∃ t, exec (.start tod) s = .next t ∧
      t.port = { s.port with station := .learning, reply := some ⟨.accepted, []⟩, inProgress := none } ∧
      t.cfg = ⟨s.port.stagedSpans, s.port.stagedStation, groupsOf (·.lightGroup) (stagedEnabled s),
        groupsOf (·.sheathGroup) (stagedEnabled s)⟩ ∧
      t.clock = { state := .locking, now := 0, tod := tod, spacing := binSpacing s.port.stagedStation
                  phase := phaseAt s.port.stagedStation tod
                  mask := if phaseAt s.port.stagedStation tod = .inside then 0
                    else s.port.stagedStation.dayFloor
                  countdowns := ((stagedEnabled s).filter fun e => decide (1 ≤ e.2.cycle)).map
                    fun e => (e.1, e.2.cycle)
                  lockExpiry := some 2, dozeExpiry := none } ∧
      t.alerts = ⟨s.alerts.asserted, [], []⟩ ∧
      t.sched = { slots := t.sched.slots, off := [], save := none, resumeExpiry := none, resumeLeft := 0,
                  selection := none } ∧
      (s.engine.ctx = none → ∀ n, t.sched.slots.find n =
        if alertModeOfSpan t n = .level ∧ n ∈ s.alerts.asserted
        then some ⟨.alert, alertLevelOf t n, false, none, none, tod, false⟩ else none) ∧
      t.comp = ⟨(stagedEnabled s).map fun e => (e.1, ⟨none, none, 0, none⟩), none⟩ ∧
      t.claims = t.cfg.lightGroups.map (fun g => (g, ⟨.free, none⟩)) ∧
      t.corr = t.cfg.sheathGroups.map (fun h => (h, .idle)) ∧
      t.peers = ⟨[], some 1000, some 3000⟩ ∧
      (∃ age, t.line = { s.line with
        state := .busy, attempt := none, attemptDropped := false, driving := [], inbox := []
        queue := [⟨age, 0, .presence .learning t.cfg.sheathGroups⟩], nextAge := age + 1 }) ∧
      t.store.mem = s.store.mem ∧ t.store.load = s.store.load ∧
      t = { s with port := t.port, cfg := t.cfg, clock := t.clock, alerts := t.alerts, sched := t.sched,
                   comp := t.comp, claims := t.claims, corr := t.corr, peers := t.peers, line := t.line,
                   store := t.store }

/-- The reconciliation of the directory at START: an enabled span becomes PRESENT when every page of its range holds an
entry naming the span, the page's ordinal and the span's L, and ABSENT otherwise; the entries of PRESENT spans stay, and
every other entry is cleared. -/
def Obligations.StartReconcilesTheDirectory : Prop :=
  ∀ (s t : State) (tod : Nat), s.port.station = .unconfigured → startFault s tod = none →
    Table.wf s.store.dir → Table.wf s.port.stagedSpans → exec (.start tod) s = .next t →
    (∀ n r, (n, r) ∈ stagedEnabled s →
      ((∀ p ∈ r.pages, s.store.dir.find p = some ⟨n, p - r.firstPage, r.len⟩) → fpOf t n = .present) ∧
      ((¬ ∀ p ∈ r.pages, s.store.dir.find p = some ⟨n, p - r.firstPage, r.len⟩) → fpOf t n = .absent)) ∧
    (∀ n, (∀ r, (n, r) ∉ stagedEnabled s) → fpOf t n = .absent) ∧
    (∀ p e, t.store.dir.find p = some e ↔
      s.store.dir.find p = some e ∧ ∃ r, (e.owner, r) ∈ stagedEnabled s ∧ p ∈ r.pages ∧
        ∀ q ∈ r.pages, s.store.dir.find q = some ⟨e.owner, q - r.firstPage, r.len⟩) ∧
    t.store.mem = s.store.mem ∧ t.notices = s.notices

/-! ## RUN, HALT and the reads -/

/-- RUN: refused in UNCONFIGURED and ISOLATED, without effect in LEARNING and RUNNING; from HALTED it leads to RUNNING,
or to LEARNING while the learning timer runs, and a PRESENCE that shows the new state is queued. -/
def Obligations.RunResumesTheStation : Prop :=
  ∀ s : State,
    (s.port.station = .unconfigured ∨ s.port.station = .isolated →
      exec .run s = .next (answer s .refusedState [])) ∧
    (s.port.station = .learning ∨ s.port.station = .running → exec .run s = .next (answer s .accepted [])) ∧
    (s.port.station = .halted → ∃ t, exec .run s = .next t ∧
      t.port = { s.port with station := if s.peers.learning.isSome then .learning else .running
                             reply := some ⟨.accepted, []⟩, inProgress := none } ∧
      t.peers = { s.peers with presence := some (s.clock.now + 1000) } ∧
      (s.line.state ≠ .passive → t.hasFrame 0 (.presence
        (if s.peers.learning.isSome then .learning else .running) s.cfg.sheathGroups)) ∧
      t.clock.state = (if s.clock.state = .dozing then .locking else s.clock.state) ∧
      (s.engine.state ≠ .idle → t.engine = s.engine ∧ t.sched = s.sched ∧ t.claims = s.claims ∧ t.acc = s.acc ∧
        t.switch = s.switch) ∧
      t = { s with port := t.port, peers := t.peers, clock := t.clock, engine := t.engine, sched := t.sched,
                   claims := t.claims, acc := t.acc, switch := t.switch, line := t.line })

/-- HALT: from LEARNING or RUNNING the station becomes HALTED, the engine holds no sweep, a taken sweep's latest part
shows ABORTED, a baseline write is cut with its notice, a claim still sought is given up, a resume not yet taken goes
back to the save slot, an OPEN claim is released with its RELEASE, a suspended sweep stays, the switch is not moved, a
dozing clock unit wakes, and a PRESENCE that shows HALTED is queued. Model's choices: how much a stopped baseline write
had copied is free (log 8); what remains of the stopped resume timer (log 26). -/
def Obligations.HaltStopsTheWork : Prop :=
  ∀ s : State,
    (s.port.station = .unconfigured ∨ s.port.station = .isolated →
      exec .halt s = .next (answer s .refusedState [])) ∧
    (s.port.station = .halted → exec .halt s = .next (answer s .accepted [])) ∧
    (s.port.station = .learning ∨ s.port.station = .running → s.engineSound → ∃ t, exec .halt s = .next t ∧
      t.port = { s.port with station := .halted, reply := some ⟨.accepted, []⟩, inProgress := none } ∧
      t.engine.ctx = none ∧ t.sched.selection = none ∧ atRest t.engine.state = true ∧
      t.peers.presence = some (s.clock.now + 1000) ∧
      (s.line.state ≠ .passive → t.hasFrame 0 (.presence .halted s.cfg.sheathGroups)) ∧
      t.clock.state = (if s.clock.state = .dozing then .locking else s.clock.state) ∧
      (∀ c r, s.engine.ctx = some c → s.sched.selection = none → s.comp.results.find c.span = some r →
        t.comp.results.find c.span = some { r with
          latest := some ⟨.aborted, c.kind, c.level, s.clock.tod, s.acc.current.lit, c.darkLevel⟩ }) ∧
      (∀ c, s.engine.ctx = some c → s.sched.selection = none →
        s.notices.fifo.length + (if s.engine.state = .storing then 2 else 1) ≤ 32 →
        ⟨.sweepDone c.span .aborted, s.clock.tod⟩ ∈ t.notices.fifo) ∧
      (s.sched.selection ≠ some .save → t.sched.save = s.sched.save ∧
        t.sched.resumeExpiry = s.sched.resumeExpiry) ∧
      (∀ n, s.sched.selection ≠ none → engineSpan s = some n → claimGivenUp s t (lightGroupOf s n)) ∧
      (∀ c, s.engine.ctx = some c → s.sched.selection = some .save → resumeReturned s t c) ∧
      (∀ c, s.engine.ctx = some c → s.sched.selection = none →
        sweepEnded s t c ∧ claimReleased s t (lightGroupOf s c.span)) ∧
      (s.engine.state ≠ .storing → t.store = s.store) ∧
      (∀ c r, s.engine.ctx = some c → s.sched.selection = none → s.engine.state = .storing →
        enabledRec s c.span = some r → writeWasCut s t c.span r ∧
        (s.notices.fifo.length < 32 → ⟨.fpLost c.span .writeCut, s.clock.tod⟩ ∈ t.notices.fifo)) ∧
      t = { s with port := t.port, peers := t.peers, clock := t.clock, engine := t.engine, sched := t.sched,
                   claims := t.claims, acc := t.acc, line := t.line, comp := t.comp, notices := t.notices,
                   corr := t.corr, alerts := t.alerts, store := t.store, trace := t.trace, free := t.free })

/-- READ-STATUS returns the snapshot, the seven sections of 12.5 field by field, and clears the notice overflow flag and
the inbox overrun flag; READ-RESULT returns the record of a span, the 125 bytes of 12.4 field by field, and changes
nothing. A reply is its kind's code, then its body; a number wider than a byte is sent most significant byte first.
Model's choices: the fields of a record that is not OPEN (log 29); the bytes of D in an absent latest part (log 36). -/
def Obligations.StatusAndResultReads : Prop :=
  ∀ s : State,
    exec .readStatus s = .next { answer s .accepted (statusBody s) with
      notices := { s.notices with overflow := false }, line := { s.line with overrun := false } } ∧
    ∀ n : Nat,
      (s.port.station = .unconfigured → exec (.readResult n) s = .next (answer s .refusedState [])) ∧
      (s.port.station ≠ .unconfigured → enabledRec s n = none →
        exec (.readResult n) s = .next (answer s .refusedParam [])) ∧
      (∀ c r, s.port.station ≠ .unconfigured → enabledRec s n = some c → s.comp.results.find n = some r →
        exec (.readResult n) s = .next (answer s .accepted (resultBody s n r)) ∧
        ((∀ w, r.comparison = some w → w.events.length ≤ 8) → (resultBody s n r).length = 125)) ∧
      exec .readStatus s = .next { answer s .accepted (joinFields (statusFields s)) with
        notices := { s.notices with overflow := false }, line := { s.line with overrun := false } } ∧
      (∀ c r, s.port.station ≠ .unconfigured → enabledRec s n = some c → s.comp.results.find n = some r →
        exec (.readResult n) s = .next (answer s .accepted (joinFields (resultFields s n r)))) ∧
      (∀ (k : ReplyKind) (body : List Byte), (⟨k, body⟩ : Reply).bytes = joinFields
        [(1, [ReplyKind.accepted, .refusedState, .refusedParam, .refusedBusy, .refusedEmpty].idxOf k)] ++ body) ∧
      ∀ fs : List (Nat × Nat),
        joinFields fs = fs.flatMap fun f => (List.range f.1).map fun i =>
          BitVec.ofNat 8 (f.2 / 256 ^ (f.1 - 1 - i))

/-- READ-NOTICE removes and returns the oldest notice, releasing the attention line with the last one; an empty FIFO is
refused REFUSED_EMPTY. The bytes of a notice are the fields of 12.3 in their order: 8 of them, 19 for a VERDICT. -/
def Obligations.ReadNoticeRemovesTheOldest : Prop :=
  ∀ s : State,
    (s.notices.fifo = [] → exec .readNotice s = .next (answer s .refusedEmpty [])) ∧
    (∀ n rest, s.notices.fifo = n :: rest →
      exec .readNotice s =
        .next (answer { s with notices :=
          { s.notices with fifo := rest, attention := decide (rest ≠ []) } } .accepted n.bytes)) ∧
    (∀ n : Notice, n.bytes.length = 8 ∨
      (n.bytes.length = 19 ∧ ∃ h v f g p j m, n.body = .verdict h v f g p j m)) ∧
    (∀ n rest, s.notices.fifo = n :: rest →
      exec .readNotice s =
        .next (answer { s with notices :=
          { s.notices with fifo := rest, attention := decide (rest ≠ []) } } .accepted (joinFields (noticeFields n))))

/-- READ-TRACE, of the result trace and of a fingerprint, with descriptor and entries as 12.4 lays them out: bad
parameters and bad bursts are refused REFUSED_PARAM, an occupied source REFUSED_BUSY, an absent one, a disabled span's
among them, REFUSED_EMPTY; a LINEAR burst runs on past the last entry to entry 0, a WRAPPED one stays in its group. -/
def Obligations.ReadTraceReturnsTheBurst : Prop :=
  ∀ (s : State) (q : TraceRequest),
    ((2 ≤ q.source ∨ (q.source = 1 ∧ (q.span = 0 ∨ 48 < q.span)) ∨ q.count = 0 ∨ 1024 < q.count ∨ 2 ≤ q.burst ∨
        (q.burst = 1 ∧ q.group ∉ [16, 64, 256, 1024])) →
      exec (.readTrace q) s = .next (answer s .refusedParam [])) ∧
    (q.source = 0 → 1 ≤ q.count → q.count ≤ 1024 →
      (q.burst = 0 ∨ (q.burst = 1 ∧ q.group ∈ [16, 64, 256, 1024])) →
      (s.engine.state = .reducing → exec (.readTrace q) s = .next (answer s .refusedBusy [])) ∧
      (s.engine.state ≠ .reducing → s.trace.state = .empty →
        exec (.readTrace q) s = .next (answer s .refusedEmpty [])) ∧
      (∀ d, s.engine.state ≠ .reducing → s.trace.state = .valid → s.trace.desc = some d →
        (d.len ≤ q.first → exec (.readTrace q) s = .next (answer s .refusedParam [])) ∧
        (q.first < d.len → q.burst = 0 →
          exec (.readTrace q) s = .next (answer s .accepted (d.bytes ++ (List.range q.count).flatMap fun i =>
            entryBytes (s.trace.entries.getD ((q.first + i) % d.len) (2047, false))))) ∧
        (q.first < d.len → q.burst = 1 → q.count ≤ q.group →
          q.first / q.group * q.group + q.group ≤ d.len →
          exec (.readTrace q) s = .next (answer s .accepted (d.bytes ++ (List.range q.count).flatMap fun i =>
            entryBytes (s.trace.entries.getD
              (q.first / q.group * q.group + (q.first % q.group + i) % q.group) (2047, false))))) ∧
        (q.burst = 1 → (q.group < q.count ∨ d.len < q.first / q.group * q.group + q.group) →
          exec (.readTrace q) s = .next (answer s .refusedParam [])))) ∧
    (q.source = 1 → 1 ≤ q.span → q.span ≤ 48 → 1 ≤ q.count → q.count ≤ 1024 →
      (q.burst = 0 ∨ (q.burst = 1 ∧ q.group ∈ [16, 64, 256, 1024])) →
      (fpOf s q.span = .writing → exec (.readTrace q) s = .next (answer s .refusedBusy [])) ∧
      (fpOf s q.span = .absent → exec (.readTrace q) s = .next (answer s .refusedEmpty [])) ∧
      (enabledRec s q.span = none → fpOf s q.span ≠ .writing →
        exec (.readTrace q) s = .next (answer s .refusedEmpty [])) ∧
      (∀ r, enabledRec s q.span = some r → fpOf s q.span = .present →
        (r.len ≤ q.first → exec (.readTrace q) s = .next (answer s .refusedParam [])) ∧
        (q.burst = 1 → (q.group < q.count ∨ r.len < q.first / q.group * q.group + q.group) →
          exec (.readTrace q) s = .next (answer s .refusedParam [])) ∧
        (∀ v : Nat → Nat, q.first < r.len →
          (∀ p, p < r.len → s.store.mem.find (4096 * (r.firstPage + p / 4096) + p % 4096) = some (v p)) →
          (q.burst = 0 → exec (.readTrace q) s = .next (answer s .accepted
            (beBytes 1 q.span ++ beBytes 2 r.len ++ (List.range q.count).flatMap fun i =>
              entryBytes (v ((q.first + i) % r.len), false)))) ∧
          (q.burst = 1 → q.count ≤ q.group → q.first / q.group * q.group + q.group ≤ r.len →
            exec (.readTrace q) s = .next (answer s .accepted
              (beBytes 1 q.span ++ beBytes 2 r.len ++ (List.range q.count).flatMap fun i =>
                entryBytes (v (q.first / q.group * q.group + (q.first % q.group + i) % q.group), false))))))) ∧
    (∀ d : TraceDesc, d.bytes = joinFields (traceFields d)) ∧
    ∀ (level : Nat) (mark : Bool), level ≤ 2047 →
      entryBytes (level, mark) = joinFields [(2, level + if mark then 32768 else 0)]

/-! ## Requests -/

/-- SWEEP: the checks of R43 in order; an accepted SWEEP raises its request, which fills an empty slot. Model's choices:
selection once, at the end of the row (log 4). -/
def Obligations.SweepRaisesARequest : Prop :=
  ∀ (s : State) (n k l : Nat),
    (s.port.station = .unconfigured ∨ s.port.station = .isolated →
      exec (.sweep n k l) s = .next (answer s .refusedState [])) ∧
    (s.port.station ≠ .unconfigured → s.port.station ≠ .isolated →
      (n = 0 ∨ 48 < n ∨ isEnabled s n = false ∨ n ∈ s.sched.off ∨ (k ≠ 2 ∧ k ≠ 5) ∨ 3 < l →
        exec (.sweep n k l) s = .next (answer s .refusedParam [])) ∧
      (1 ≤ n → n ≤ 48 → isEnabled s n = true → n ∉ s.sched.off → l ≤ 3 →
        (∀ r, k = 5 → s.sched.slots.find n = some r →
          exec (.sweep n k l) s = .next (answer s .refusedBusy [])) ∧
        (k = 2 → exec (.sweep n k l) s =
          .next (answer (settleSelect (raise s n ⟨.host, l, none, none⟩)) .accepted [])) ∧
        (k = 5 → s.sched.slots.find n = none → exec (.sweep n k l) s =
          .next (answer (settleSelect (raise s n ⟨.baseline, l, none, none⟩)) .accepted [])) ∧
        (k = 2 ∨ k = 5 → s.sched.slots.find n = none → s.engine.state ≠ .idle → s.clock.state = .awake →
          ∃ t, exec (.sweep n k l) s = .next t ∧
            t = answer { s with clock := { s.clock with dozeExpiry := none }
                                sched := { s.sched with slots := t.sched.slots } } .accepted [] ∧
            t.sched.slots.find n =
              some ⟨if k = 2 then .host else .baseline, l, false, none, none, s.clock.tod, false⟩ ∧
            ∀ m, m ≠ n → t.sched.slots.find m = s.sched.slots.find m)))

/-- A new request of an enabled span in service fills an empty slot, or is merged: level and kind become the higher, a
new CONFIRM's target and round replace the old ones, windowed stands only between two CONFIRMs, raised time and selected
mark stay. -/
def Obligations.RequestsFillOrMerge : Prop :=
  ∀ (s : State) (n : Nat) (new : Raised), isEnabled s n = true → n ∉ s.sched.off →
    (s.sched.slots.find n = none →
      raise s n new = { s with sched := { s.sched with
        slots := s.sched.slots.put n
          (⟨new.kind, new.level, decide (new.kind = .confirm), new.target, new.round, s.clock.tod, false⟩ : Request) } }) ∧
    (∀ old, s.sched.slots.find n = some old → old.kind ≠ .baseline → new.kind ≠ .baseline →
      ∃ m : Request, raise s n new = { s with sched := { s.sched with slots := s.sched.slots.put n m } } ∧
        m.level = max old.level new.level ∧
        (new.kind = .confirm ∨ old.kind = .confirm → m.kind = .confirm) ∧
        (new.kind ≠ .confirm → old.kind ≠ .confirm → new.kind = .alert ∨ old.kind = .alert → m.kind = .alert) ∧
        (new.kind ∈ [.host, .routine] → old.kind ∈ [.host, .routine] → new.kind = .host ∨ old.kind = .host →
          m.kind = .host) ∧
        (new.kind = .routine → old.kind = .routine → m.kind = .routine) ∧
        (new.kind = .confirm → m.target = new.target ∧ m.round = new.round) ∧
        (new.kind ≠ .confirm → m.target = old.target ∧ m.round = old.round) ∧
        (m.windowed = true ↔ new.kind = .confirm ∧ old.kind = .confirm ∧ old.windowed = true) ∧
        m.raised = old.raised ∧ m.selected = old.selected) ∧
    (∀ old, s.sched.slots.find n = some old → old.kind = .baseline →
      (new.kind = .routine ∨ new.kind = .host →
        raise s n new = { s with sched := { s.sched with
          slots := s.sched.slots.put n { old with level := max old.level new.level } } }) ∧
      (new.kind = .confirm ∨ new.kind = .alert →
        raise s n new = post { s with sched := { s.sched with
          slots := s.sched.slots.put n
            (⟨new.kind, max old.level new.level, decide (new.kind = .confirm), new.target, new.round, s.clock.tod,
            old.selected⟩ : Request) } }
          (.baselineCancelled n (if new.kind = .confirm then .replacedByConfirm else .replacedByAlert))))

/-- SPAN-OFF: refused as R51 says; accepted, the span carries the off mark, its slot is empty, its latch clear, and no
sweep of it runs or waits: a running or suspended sweep of it ends ABORTED, with its latest part and its SWEEP_DONE
notice, a pending BASELINE with its BASELINE_CANCELLED notice, code SPAN_OFF; its baseline write is cut with its notice,
its claim still sought is given up, an OPEN one is released with its RELEASE; other spans' slots, latches and timers, an
engine that works for another span, the configuration and otherwise the fingerprint store stay. SPAN-ON clears the off
mark; for a span in LEVEL mode it is an occasion of the test of R45, otherwise it changes nothing else, and for one
without the mark nothing at all. Model's choices: how much a stopped baseline write had copied is free (log 8); the
fields of a discarded accumulator slot (log 11); selection once, at the end of the row (log 4). -/
def Obligations.SpansLeaveAndReturnToService : Prop :=
  (∀ (s : State) (n : Nat),
     (s.port.station = .unconfigured → exec (.spanOff n) s = .next (answer s .refusedState [])) ∧
     (s.port.station ≠ .unconfigured → (n = 0 ∨ 48 < n ∨ isEnabled s n = false) →
       exec (.spanOff n) s = .next (answer s .refusedParam [])) ∧
     (s.port.station ≠ .unconfigured → 1 ≤ n → n ≤ 48 → isEnabled s n = true →
       (n ∈ s.sched.off → exec (.spanOff n) s = .next (answer s .accepted [])) ∧
       (n ∉ s.sched.off → ∃ t, exec (.spanOff n) s = .next t ∧
         t.port = { s.port with reply := some ⟨.accepted, []⟩, inProgress := none } ∧
         (∀ m, m ∈ t.sched.off ↔ m = n ∨ m ∈ s.sched.off) ∧
         t.sched.slots.find n = none ∧ n ∉ t.alerts.latches ∧
         ctxIs t.engine.ctx n = false ∧ ctxIs t.sched.save n = false ∧
         (s.engine.state ≠ .storing → t.store = s.store) ∧
         (s.engine.state = .storing → s.sched.selection = none → ∀ c, s.engine.ctx = some c →
           (c.span ≠ n → t.store = s.store) ∧
           (∀ r, c.span = n → enabledRec s n = some r → writeWasCut s t n r ∧
             (s.notices.fifo.length < 31 → ⟨.fpLost n .writeCut, s.clock.tod⟩ ∈ t.notices.fifo))) ∧
         (s.sched.selection = some (.slot n) → s.engine.ctx = none → s.sched.slots.find n ≠ none →
           (∀ e ∈ s.sched.slots, e.1 ≠ n → slotCandidate s e.1 e.2 = false) → saveCandidate s = false →
           (s.line.state = .idle → s.line.queue = [] ∧ s.line.attempt = none) →
           claimGivenUp s t (lightGroupOf s n)) ∧
         (∀ c, s.engine.ctx = some c → c.span = n →
           ∃ u, t = answer (settleSelect u) .accepted [] ∧ u.engine.state = .idle ∧ u.engine.ctx = none ∧
             u.sched.selection = none ∧
             (s.sched.selection = some .save → s.lineSound → claimGivenUp s u (lightGroupOf s n)) ∧
             (s.sched.selection = none → claimReleased s u (lightGroupOf s n))) ∧
         (∃ u, t = answer (settleSelect u) .accepted [] ∧
           (∀ m, u.sched.slots.find m = if m = n then none else s.sched.slots.find m) ∧
           (∀ m, m ∈ u.alerts.latches ↔ m ∈ s.alerts.latches ∧ m ≠ n) ∧
           (∀ m, m ≠ n → u.alerts.timers.find m = s.alerts.timers.find m) ∧
           (ctxIs s.engine.ctx n = false → s.sched.selection ≠ some (.slot n) →
             u.engine = s.engine ∧ u.claims = s.claims ∧ u.sched.selection = s.sched.selection) ∧
           (ctxIs s.sched.save n = false →
             u.sched.save = s.sched.save ∧ u.sched.resumeExpiry = s.sched.resumeExpiry) ∧
           (∀ q, s.sched.slots.find n = some q → q.kind = .baseline → s.notices.fifo.length < 32 →
             ⟨.baselineCancelled n .spanOff, s.clock.tod⟩ ∈ u.notices.fifo) ∧
           (s.sched.selection = some (.slot n) → s.engine.ctx = none → s.sched.slots.find n ≠ none → s.lineSound →
             u.engine.state = .idle ∧ u.engine.ctx = none ∧ u.sched.selection = none ∧
             claimGivenUp s u (lightGroupOf s n)) ∧
           (∀ c, s.engine.ctx = some c → c.span = n → s.sched.selection ≠ some (.slot n) →
             (s.notices.fifo.length < 30 → ⟨.sweepDone n .aborted, s.clock.tod⟩ ∈ u.notices.fifo) ∧
             u.acc.active = s.acc.active ∧ u.acc.current.owner = .none ∧ u.comp.working = none ∧
             u.alerts.timers.find n = (if alertModeOfSpan s n = .level
               then some (s.clock.now + s.cfg.block.alertInterval * 1000) else s.alerts.timers.find n) ∧
             (ctxIs s.sched.save n = false → u.acc.slot u.acc.saved = s.acc.slot s.acc.saved ∧
               ∀ x, s.comp.results.find n = some x → u.comp.results.find n = some { x with
                 latest := some ⟨.aborted, c.kind, c.level, s.clock.tod, s.acc.current.lit, c.darkLevel⟩ })) ∧
           (∀ c, s.sched.save = some c → c.span = n →
             u.sched.save = none ∧ u.sched.resumeExpiry = none ∧
             u.acc.slot u.acc.saved = ⟨.none, 0, 0, 0, [], []⟩ ∧
             (s.notices.fifo.length < 30 → ⟨.sweepDone n .aborted, s.clock.tod⟩ ∈ u.notices.fifo) ∧
             u.alerts.timers.find n = (if alertModeOfSpan s n = .level
               then some (s.clock.now + s.cfg.block.alertInterval * 1000) else s.alerts.timers.find n) ∧
             ∀ x, s.comp.results.find n = some x → u.comp.results.find n = some { x with
               latest := some ⟨.aborted, c.kind, c.level, s.clock.tod, c.litDone, c.darkLevel⟩ })) ∧
         t = { s with port := t.port, clock := t.clock, alerts := t.alerts, sched := t.sched, engine := t.engine,
                      switch := t.switch, acc := t.acc, trace := t.trace, comp := t.comp, store := t.store,
                      line := t.line, peers := t.peers, claims := t.claims, corr := t.corr, notices := t.notices,
                      free := t.free }))) ∧
  (∀ (s : State) (n : Nat),
     (s.port.station = .unconfigured → exec (.spanOn n) s = .next (answer s .refusedState [])) ∧
     (s.port.station ≠ .unconfigured → (n = 0 ∨ 48 < n ∨ isEnabled s n = false) →
       exec (.spanOn n) s = .next (answer s .refusedParam [])) ∧
     (s.port.station ≠ .unconfigured → 1 ≤ n → n ≤ 48 → isEnabled s n = true →
       (n ∉ s.sched.off → exec (.spanOn n) s = .next (answer s .accepted [])) ∧
       (n ∈ s.sched.off → s.engine.state ≠ .idle → s.clock.state = .awake → alertModeOfSpan s n ≠ .level →
         exec (.spanOn n) s = .next (answer { s with
           clock := { s.clock with dozeExpiry := none }
           sched := { s.sched with off := s.sched.off.filter fun m => decide (m ≠ n) } } .accepted [])) ∧
       (n ∈ s.sched.off → s.engine.state ≠ .idle → s.clock.state = .awake → alertModeOfSpan s n = .level →
         n ∈ s.alerts.asserted → s.sched.slots.find n = none → ctxIs s.engine.ctx n = false →
         ctxIs s.sched.save n = false → s.alerts.timers.find n = none →
         exec (.spanOn n) s = .next (answer { s with
           clock := { s.clock with dozeExpiry := none }
           sched := { s.sched with
             off := s.sched.off.filter fun m => decide (m ≠ n)
             slots := s.sched.slots.put n
               (⟨.alert, alertLevelOf s n, false, none, none, s.clock.tod, false⟩ : Request) } } .accepted [])) ∧
       (n ∈ s.sched.off → alertModeOfSpan s n = .level → n ∈ s.alerts.asserted → s.sched.slots.find n = none →
         ctxIs s.engine.ctx n = false → ctxIs s.sched.save n = false → s.alerts.timers.find n = none →
         exec (.spanOn n) s = .next (answer (settleSelect { s with
           sched := { s.sched with
             off := s.sched.off.filter fun m => decide (m ≠ n)
             slots := s.sched.slots.put n
               (⟨.alert, alertLevelOf s n, false, none, none, s.clock.tod, false⟩ : Request) } }) .accepted [])) ∧
       (n ∈ s.sched.off → (alertModeOfSpan s n ≠ .level ∨ n ∉ s.alerts.asserted ∨ s.sched.slots.find n ≠ none ∨
           ctxIs s.engine.ctx n = true ∨ ctxIs s.sched.save n = true ∨ s.alerts.timers.find n ≠ none) →
         exec (.spanOn n) s = .next (answer (settleSelect { s with
           sched := { s.sched with off := s.sched.off.filter fun m => decide (m ≠ n) } }) .accepted []))))

/-- CLEAR-FAULT: refused while UNCONFIGURED or while the fault condition is present; otherwise LASER_FAULT is cleared,
an occasion for selection. Model's choices: selection once, at the end of the row (log 4). -/
def Obligations.ClearFaultClearsTheFlag : Prop :=
  ∀ s : State,
    (s.port.station = .unconfigured → exec .clearFault s = .next (answer s .refusedState [])) ∧
    (s.port.station ≠ .unconfigured → s.engine.condition = true →
      exec .clearFault s = .next (answer s .refusedBusy [])) ∧
    (s.port.station ≠ .unconfigured → s.engine.condition = false → s.engine.laserFault = none →
      exec .clearFault s = .next (answer s .accepted [])) ∧
    (∀ code, s.port.station ≠ .unconfigured → s.engine.condition = false → s.engine.laserFault = some code →
      exec .clearFault s = .next (answer
        (settleSelect { s with engine := { s.engine with laserFault := none } }) .accepted []) ∧
      ∀ t, exec .clearFault s = .next t → t.engine.laserFault = none)

/-! ## Host fingerprint loads -/

/-- FP-BEGIN: the checks of R14 in order; accepted, every directory entry of the span is cleared, the span is WRITING,
the load context takes it with count 0, and its held offset is removed. FP-DATA: refused REFUSED_STATE without an open
load for the span, whatever the block, and then REFUSED_PARAM for a bad block; an accepted block is written at bins
count, count + 1, … and every other cell stays. FP-END: a full load makes the span PRESENT with its directory entries
set; a short one ends ABSENT and is refused REFUSED_PARAM. Model's choices: the order of FP-DATA's two refusals (log
32). -/
def Obligations.HostLoadsReplaceTheFingerprint : Prop :=
  (∀ (s : State) (n : Nat),
     (s.port.station = .unconfigured → exec (.fpBegin n) s = .next (answer s .refusedState [])) ∧
     (s.port.station ≠ .unconfigured → (n = 0 ∨ 48 < n ∨ isEnabled s n = false) →
       exec (.fpBegin n) s = .next (answer s .refusedParam [])) ∧
     (∀ r, s.port.station ≠ .unconfigured → 1 ≤ n → n ≤ 48 → enabledRec s n = some r →
       (s.clock.state = .dozing → (∃ p ∈ r.pages, s.cfg.block.retention.getLsbD (p / 16) = false) →
         exec (.fpBegin n) s = .next (answer s .refusedState [])) ∧
       ((s.clock.state ≠ .dozing ∨ ∀ p ∈ r.pages, s.cfg.block.retention.getLsbD (p / 16) = true) →
         ((∃ m, (m, FpState.writing) ∈ s.store.fp) ∨ engineSpan s = some n ∨ ctxIs s.sched.save n = true →
           exec (.fpBegin n) s = .next (answer s .refusedBusy [])) ∧
         ((∀ m, (m, FpState.writing) ∉ s.store.fp) → engineSpan s ≠ some n → ctxIs s.sched.save n = false →
           ∃ t, exec (.fpBegin n) s = .next t ∧
             t.port = { s.port with reply := some ⟨.accepted, []⟩, inProgress := none } ∧
             t.store = { s.store with
               dir := s.store.dir.filter fun e => decide (e.2.owner ≠ n)
               fp := s.store.fp.put n .writing, load := some ⟨n, 0⟩ } ∧
             (∀ m, t.comp.results.find m = if m = n
               then (s.comp.results.find n).map fun x => { x with held := none }
               else s.comp.results.find m) ∧
             t = { s with port := t.port, store := t.store, clock := t.clock, line := t.line, peers := t.peers
                          comp := { s.comp with results := t.comp.results } })))) ∧
  (∀ (s : State) (n : Nat) (vs : List Nat),
     ((∀ c, s.store.load ≠ some ⟨n, c⟩) → exec (.fpData n vs) s = .next (answer s .refusedState [])) ∧
     (∀ c r, s.store.load = some ⟨n, c⟩ → enabledRec s n = some r →
       (vs = [] ∨ 1024 < vs.length ∨ (∃ v ∈ vs, 1806 < v) ∨ r.len < c + vs.length →
         exec (.fpData n vs) s = .next (answer s .refusedParam [])) ∧
       (vs ≠ [] → vs.length ≤ 1024 → (∀ v ∈ vs, v ≤ 1806) → c + vs.length ≤ r.len →
         ∃ t, exec (.fpData n vs) s = .next t ∧
           t = answer { s with store :=
             { s.store with mem := t.store.mem, load := some ⟨n, c + vs.length⟩ } } .accepted [] ∧
           (∀ i, i < vs.length →
             t.store.mem.find (4096 * (r.firstPage + (c + i) / 4096) + (c + i) % 4096) = vs[i]?) ∧
           (∀ a, (∀ i, i < vs.length → a ≠ 4096 * (r.firstPage + (c + i) / 4096) + (c + i) % 4096) →
             t.store.mem.find a = s.store.mem.find a)))) ∧
  (∀ (s : State) (n : Nat),
     ((∀ c, s.store.load ≠ some ⟨n, c⟩) → exec (.fpEnd n) s = .next (answer s .refusedState [])) ∧
     (∀ c r, s.store.load = some ⟨n, c⟩ → enabledRec s n = some r →
       (c = r.len → ∃ t, exec (.fpEnd n) s = .next t ∧
         t.port = { s.port with reply := some ⟨.accepted, []⟩, inProgress := none } ∧
         t.store = { s.store with load := none, dir := t.store.dir, fp := t.store.fp } ∧
         (∀ m, fpOf t m = if m = n then .present else fpOf s m) ∧
         (∀ o, o < (r.len + 4095) / 4096 → t.store.dir.find (r.firstPage + o) = some ⟨n, o, r.len⟩) ∧
         (∀ p, (p < r.firstPage ∨ r.firstPage + (r.len + 4095) / 4096 ≤ p) →
           t.store.dir.find p = s.store.dir.find p)) ∧
       (c ≠ r.len → ∃ t, exec (.fpEnd n) s = .next t ∧
         t.port = { s.port with reply := some ⟨.refusedParam, []⟩, inProgress := none } ∧
         t.store = { s.store with load := none, fp := t.store.fp } ∧
         (∀ m, fpOf t m = if m = n then .absent else fpOf s m))))

/-- What the port does itself: an unknown code or a wrong parameter length is refused REFUSED_PARAM without effect, a
partial command is discarded without effect or reply. Model's choices: a discarded command leaves no reply (log 13). -/
def Obligations.PortRefusesWhatItDoesNotKnow : Prop :=
  (∀ (s : State) (bs : List Byte), parseCommand bs = none →
    exec (.unknownCommand bs) s = .next (answer s .refusedParam [])) ∧
  (∀ (s : State) (bs : List Byte),
    exec (.partialCommandDiscarded bs) s =
      .next { s with port := { s.port with reply := none, inProgress := none } }) ∧
  (∀ (code : Byte) (ps : List Byte),
    code.toNat ∉ [0x10, 0x11, 0x12, 0x13, 0x14, 0x15, 0x16, 0x17, 0x18, 0x20, 0x21, 0x22, 0x23, 0x30, 0x31, 0x32] →
    parseCommand (code :: ps) = none)

/-! ## Invariants that every step keeps -/

/-- Every step keeps the three tables of the fingerprint store (cells, directory, states) and every other table, those
within the corroboration records among them, in canonical form. -/
def Obligations.TablesStaySound : Prop :=
  (∀ s t : State, s.tablesSound → step s = .next t → t.tablesSound) ∧
  (∀ s t : State, s.store.sound → step s = .next t → t.store.sound)

/-- Every step keeps the notice FIFO at 32 notices or fewer, with the attention line asserted exactly while it holds
one, and the transmit queue within its limits: no two waiting frames of which one replaces the other, at most two
waiting claim frames, 12 frames in all, in order of age; and the line access state fits the attempt. A replacement takes
the place and the age of the frame it replaces, a HOLD is absorbed by a waiting CLAIM of its group, a RELEASE removes
CLAIM and HOLD of its group, a third claim frame removes the earliest RELEASE, and any other frame enters last. Model's
choices: a claim frame that returns from a lost attempt (log 17, log 18). -/
def Obligations.NoticesAndQueueStaySound : Prop :=
  (∀ s t : State, s.notices.sound → step s = .next t → t.notices.sound) ∧
  (∀ s t : State, s.line.queueSound → step s = .next t → t.line.queueSound) ∧
  (∀ s t : State, s.tablesSound → s.queueBounded → step s = .next t → t.queueBounded) ∧
  (∀ s t : State, s.line.agesSound → step s = .next t → t.line.agesSound) ∧
  (∀ s t : State, s.lineSound → step s = .next t → t.lineSound) ∧
  (∀ s : State, s.queueBounded → s.line.queue.length + s.line.attempt.toList.length ≤ 12) ∧
  ∀ (s : State) (u : Nat) (b : FrameBody),
    (s.onLine → s.line.state ≠ .idle → s.line.queueSound → s.line.agesSound →
      (∀ g l, b = .hold g l → ∀ f ∈ s.line.queue, isClaimOf g f.body = false) →
      (∀ pre x post, s.line.queue = pre ++ x :: post → sameFrame x.body b = true →
        offer s u b = { s with line := { s.line with
          nextAge := s.line.nextAge + 1, queue := pre ++ ⟨x.age, u, b⟩ :: post } }) ∧
      ((∀ f ∈ s.line.queue, sameFrame f.body b = false) → ∀ rest : List TxFrame,
        (s.line.queue.filter fun f => !(isRelease b && (claimGroup b).any fun g =>
          isClaimOf g f.body || isHoldOf g f.body)) = rest →
        ((isClaimFrame b = false ∨ (claimFrames rest).length < 2) →
          offer s u b = { s with line := { s.line with
            nextAge := s.line.nextAge + 1, queue := rest ++ [⟨s.line.nextAge, u, b⟩] } }) ∧
        (∀ pre x post, isClaimFrame b = true → (claimFrames rest).length = 2 → rest = pre ++ x :: post →
          isRelease x.body = true → (∀ f ∈ rest, isRelease f.body = true → x.age ≤ f.age) →
          offer s u b = { s with line := { s.line with
            nextAge := s.line.nextAge + 1, queue := pre ++ post ++ [⟨s.line.nextAge, u, b⟩] } }))) ∧
    (∀ g l pre x post, s.onLine → s.line.state ≠ .idle → b = .hold g l → s.line.queue = pre ++ x :: post →
      isClaimOf g x.body = true → (∀ f ∈ pre ++ post, isClaimOf g f.body = false) →
      offer s u b = { s with line := { s.line with
        nextAge := s.line.nextAge + 1, queue := pre ++ { x with urgency := max x.urgency u } :: post } }) ∧
    (¬ s.onLine → offer s u b = s)

/-- Every step keeps the inbox at 8 frames or fewer and the own id out of inbox and peer table; such a peer table has at
most 30 entries. -/
def Obligations.PeersStaySound : Prop :=
  (∀ s t : State, s.peersSound → step s = .next t → t.peersSound) ∧
  (∀ s : State, s.peersSound → Table.wf s.peers.table → 1 ≤ s.line.id → s.line.id ≤ 31 →
    s.peers.table.length ≤ 30)

/-- Every step keeps time of day below 86,400,000 and the mask at 0..3, and every bin sum at most 4095 times the lit
shots accumulated into its slot. -/
def Obligations.ClockAndSumsStaySound : Prop :=
  (∀ s t : State, s.clockSound → step s = .next t → t.clockSound) ∧
  (∀ s t : State, s.acc.sound → step s = .next t → t.acc.sound)

/-- Every step keeps the engine sound: OFF exactly while the clock unit is not AWAKE, holding a sweep exactly when
neither OFF nor IDLE, every claim of the station that of its sweep; so at most one entry is CLAIMING or OPEN. -/
def Obligations.EngineStaysSound : Prop :=
  (∀ s t : State, s.tablesSound → s.engineSound → step s = .next t → t.engineSound) ∧
  (∀ s : State, s.tablesSound → s.engineSound → ∀ e ∈ s.claims, ∀ f ∈ s.claims,
    ownClaim e.2.state = true → ownClaim f.2.state = true → e = f)

/-- Every step keeps the laser safe: a taken sweep that may still fire has LASER_FAULT clear, its light group private or
OPEN and, once out of PREPARING, the switch SETTLED on its port; and a lit shot counts under these conditions only. -/
def Obligations.FiringStaysSafe : Prop :=
  (∀ s t : State, s.tablesSound → s.engineSound → s.firingSound → step s = .next t → t.firingSound) ∧
  (∀ (s t : State) (xs : List Adc), exec (.litShotComplete xs) s = .next t → t ≠ s →
    ∃ c, s.engine.ctx = some c ∧ (s.engine.state = .quick ∨ s.engine.state = .full) ∧
      s.switch = .settled c.span ∧ (lightGroupOf s c.span = 0 ∨ isOpen s (lightGroupOf s c.span) = true) ∧
      s.engine.laserFault = none)

/-- Every step keeps R7: an enabled span is PRESENT exactly when every page of its range holds an entry naming the span,
the page's ordinal and the span's L; no entry names a span that is not PRESENT; whatever is written is WRITING. -/
def Obligations.PresentMatchesTheDirectory : Prop :=
  ∀ s t : State, s.tablesSound → s.store.sound → s.engineSound → s.pagesSound → step s = .next t → t.pagesSound

/-! ## Layouts of chapter 12 -/

/-- The bytes of every well-formed host command spell that command, and what bytes spell is a well-formed host command.
-/
def Obligations.CommandRoundTrip : Prop :=
  (∀ (i : Instr) (bs : List Byte), i.wellFormed = true → encodeCommand i = some bs → parseCommand bs = some i) ∧
  (∀ (i : Instr) (bs : List Byte), parseCommand bs = some i → i.wellFormed = true ∧ encodeCommand i ≠ none)

/-- The line bits of every well-formed frame are received as that frame, and no six bits of one level stand in a row in
them; a received frame has a sender of 1..31. Model's choices: no stuff bit after the last bit of the check sequence
(log 15). -/
def Obligations.FrameRoundTrip : Prop :=
  (∀ f : Frame, f.wellFormed = true → parseFrame f.lineBits = some f) ∧
  (∀ (f : Frame) (pre post : List Bool) (b : Bool), f.lineBits ≠ pre ++ List.replicate 6 b ++ post) ∧
  (∀ (bits : List Bool) (f : Frame), parseFrame bits = some f → f.urgency ≤ 3 ∧ 1 ≤ f.sender ∧ f.sender ≤ 31)

/-! ## Arithmetic -/

/-- Bin spacing (R25), distance of a bin (R26) and bin of a distance (R27), each rounded half up; at the legal limits
the spacing lies in 399,723..2,141,375 and is fixed from START until the next reset; bin to distance to bin gives the
bin again. -/
def Obligations.SpacingAndConversions : Prop :=
  (∀ b : StationBlock, 1 ≤ b.divP → 14000 ≤ b.groupIndex → b.groupIndex ≤ 15000 →
    50000 * b.divP ≤ b.refKHz * b.mulM → b.refKHz * b.mulM ≤ 250000 * b.divP →
    2 * (2 * b.groupIndex * b.refKHz * b.mulM) * binSpacing b ≤
      2 * (2997924580000000 * b.divP) + 2 * b.groupIndex * b.refKHz * b.mulM ∧
    2 * (2997924580000000 * b.divP) + 2 * b.groupIndex * b.refKHz * b.mulM <
      2 * (2 * b.groupIndex * b.refKHz * b.mulM) * (binSpacing b + 1) ∧
    399723 ≤ binSpacing b ∧ binSpacing b ≤ 2141375) ∧
  (∀ (s t : State) (tod : Nat), s.port.station = .unconfigured → startFault s tod = none →
    exec (.start tod) s = .next t → t.clock.spacing = binSpacing s.port.stagedStation) ∧
  (∀ (s t : State) (c : Instr), exec c s = .next t → (∀ x, c ≠ .coldReset x) → (∀ x, c ≠ .warmReset x) →
    (∀ x, c = .start x → s.port.station ≠ .unconfigured) → t.clock.spacing = s.clock.spacing) ∧
  (∀ sp i : Nat, 100000 * distanceOf sp i ≤ i * sp + 50000 ∧ i * sp + 50000 < 100000 * (distanceOf sp i + 1)) ∧
  (∀ (p : Problem) (k : EventKind) (i : Nat) (step : Option Int) (peak : Option Nat),
    (p.event k i step peak).distance = distanceOf p.spacing i) ∧
  (∀ sp i : Nat, sp ≤ 2141375 → i ≤ 16383 → distanceOf sp i ≤ 350821) ∧ distanceOf 2141375 16383 = 350821 ∧
  (∀ sp d : Nat, 0 < sp → 2 * sp * binOf sp d ≤ 2 * (d * 100000) + sp ∧
    2 * (d * 100000) + sp < 2 * sp * (binOf sp d + 1)) ∧
  (∀ (sp d : Nat) (r : SpanRecord), confirmTarget sp r d = binOf sp (d + r.offset)) ∧
  (∀ sp i : Nat, 399723 ≤ sp → binOf sp (distanceOf sp i) = i) ∧
  binOf 1020952 51257 = binOf 1020952 51258 ∧
  (∀ (r : SpanRecord) (t : Nat), inCompRange r t = true ↔ r.anchor + 64 ≤ t ∧ t + 17 ≤ r.len)

/-- The mean of a bin (R101), its net value (R102) and its level (R103): 500 × log10 of the net value to the nearest
whole number, exactly, never halfway: t − 1/2 < 500 × log10 v < t + 1/2. -/
def Obligations.MeansNetValuesAndLevels : Prop :=
  (∀ n sum : Nat, 1 ≤ n → 2 ^ n * meanOf n sum ≤ sum + 2 ^ (n - 1) ∧
    sum + 2 ^ (n - 1) < 2 ^ n * (meanOf n sum + 1) ∧ (sum ≤ 4095 * 2 ^ n → meanOf n sum ≤ 4095)) ∧
  (∀ mean dark : Nat, (mean < dark + 1 → netValue mean dark = 1) ∧
    (dark + 1 ≤ mean → netValue mean dark + dark = mean) ∧
    (mean ≤ 4095 → 1 ≤ netValue mean dark ∧ netValue mean dark ≤ 4095)) ∧
  (∀ v : Nat, 1 ≤ v → v ≤ 4095 → levelOf v ≤ 1806 ∧
    (levelOf v = 0 ∨ 10 ^ (2 * levelOf v - 1) < v ^ 1000) ∧ v ^ 1000 < 10 ^ (2 * levelOf v + 1)) ∧
  levelOf 1 = 0 ∧ levelOf 10 = 500 ∧ levelOf 100 = 1000 ∧ levelOf 1000 = 1500 ∧ levelOf 4095 = 1806

/-- The window of a windowed CONFIRM: 1024 bins that start on a block of 256 and hold the target with 512 bins below and
256 above it or the span's end; and the comparison range, windowed or not, holds at least 32 bins. -/
def Obligations.ConfirmWindowHoldsTheTarget : Prop :=
  (∀ len t : Nat, len ≤ 1024 → confirmWindow len t = (0, len)) ∧
  (∀ len t : Nat, 1024 < len → len % 256 = 0 → t < len → ∃ base, confirmWindow len t = (base, 1024) ∧
    base % 256 = 0 ∧ base + 1024 ≤ len ∧ (base = 0 ∨ base + 512 ≤ t) ∧
    (base + 1024 = len ∨ t + 256 ≤ base + 1023) ∧
    (512 ≤ t - t % 256 → t - t % 256 + 512 ≤ len → base = t - t % 256 - 512)) ∧
  (∀ (r : SpanRecord) (t : Nat), r.len % 256 = 0 → r.anchor + 112 ≤ r.len → inCompRange r t = true →
    (compRange r none).1 + 31 ≤ (compRange r none).2 ∧
    (compRange r (some (confirmWindow r.len t))).1 + 31 ≤ (compRange r (some (confirmWindow r.len t))).2 ∧
    (compRange r (some (confirmWindow r.len t))).1 ≤ t ∧ t ≤ (compRange r (some (confirmWindow r.len t))).2)

/-- The smoothed values, and the peak of a departure. The events are those of the loss and gain scan (departure starts,
steps, GAIN, BEND and BREAK by R115 to R117) and one REFLECTION for each run of reflective bins (R119, R120), in
ascending bin order. The event list of every comparison: at most 8 events inside the range in strictly ascending bin
order, at most one BREAK, which is last; distance, step and peak as R121 gives them; the outcome by R123; MORE_EVENTS
only with a full list. -/
def Obligations.EventListsAreBounded : Prop :=
  (∀ (p : Problem) (off : Int),
    (∀ i, 8 * p.smooth off i ≤ ((List.range 8).map fun k => (p.level (i + k) : Int) - p.ref (i + k) - off).sum ∧
      ((List.range 8).map fun k => (p.level (i + k) : Int) - p.ref (i + k) - off).sum <
        8 * (p.smooth off i + 1)) ∧
    (∀ e d, 3 ≤ e → (p.peak e = some d ↔ p.rho ≤ d ∧
      (∃ j, e - 2 ≤ j ∧ j ≤ e + 2 ∧ p.level j ≠ 2047 ∧ p.level (j - 1) ≠ 2047 ∧
        p.level j = p.level (j - 1) + d) ∧
      ∀ j, e - 2 ≤ j → j ≤ e + 2 → p.level j ≠ 2047 → p.level (j - 1) ≠ 2047 →
        p.level j ≤ p.level (j - 1) + d))) ∧
  ∀ (p : Problem) (tod : Nat) (windowed quick : Bool), 1 ≤ p.theta →
    (∃ (steps refl all : List Event) (brk : Option Nat), Scanned p p.offset 0 p.first steps brk ∧
      (∀ e, e ∈ refl ↔ ∃ b, topsItsRun p p.offset steps brk b ∧
        e = p.event .reflection b none (some (p.departure p.offset b).toNat)) ∧
      refl.Pairwise (fun a b => a.bin < b.bin) ∧ all.Perm (steps ++ refl) ∧
      all.Pairwise (fun a b => a.bin < b.bin) ∧
      (all.length ≤ 8 → (p.result tod windowed quick).events = all ∧
        (p.result tod windowed quick).more = false) ∧
      (8 < all.length → (p.result tod windowed quick).more = true ∧
        (∀ e ∈ all, e.kind = .brk → (p.result tod windowed quick).events = all.take 7 ++ [e]) ∧
        ((∀ e ∈ all, e.kind ≠ .brk) → (p.result tod windowed quick).events = all.take 8))) ∧
    (p.result tod windowed quick).events.length ≤ 8 ∧
    (p.result tod windowed quick).events.Pairwise (fun a b => a.bin < b.bin) ∧
    (∀ pre e post, (p.result tod windowed quick).events = pre ++ e :: post → e.kind = .brk → post = []) ∧
    (∀ e ∈ (p.result tod windowed quick).events,
      p.first ≤ e.bin ∧ e.bin ≤ p.last ∧ e.distance = distanceOf p.spacing e.bin ∧
      (e.kind = .brk ∨ e.kind = .reflection → e.step = none) ∧
      (e.kind = .bend → ∃ x, e.step = some x ∧ x ≤ -(p.theta : Int)) ∧
      (e.kind = .gain → ∃ x, e.step = some x ∧ (p.theta : Int) ≤ x) ∧
      (e.kind = .reflection → e.peak ≠ none) ∧ (∀ x, e.peak = some x → p.rho ≤ x)) ∧
    ((p.result tod windowed quick).outcome = .broken ↔
      ∃ e ∈ (p.result tod windowed quick).events, e.kind = .brk) ∧
    ((p.result tod windowed quick).outcome = .clean ↔ (p.result tod windowed quick).events = []) ∧
    ((p.result tod windowed quick).outcome ∈ [.clean, .changed, .broken]) ∧
    ((p.result tod windowed quick).more = true → (p.result tod windowed quick).events.length = 8) ∧
    (p.result tod windowed quick).windowed = windowed ∧ (p.result tod windowed quick).quickOnly = quick ∧
    (32 ≤ p.anchorBins.length → (p.result tod windowed quick).unanchored = false ∧
      (p.result tod windowed quick).offset = (p.sumDiff p.anchorBins).tdiv p.anchorBins.length) ∧
    (p.anchorBins.length < 32 → (p.result tod windowed quick).unanchored = true ∧
      (p.result tod windowed quick).offset = p.held.getD 0)

/-! ## Selection and preparation -/

/-- Selection: a candidate is what R54 says; with the engine IDLE the candidate of highest level wins, the suspended
sweep first at equal level, then the lowest span number; without a candidate, or with the engine busy, nothing changes.
After the selection, a pending request that is a candidate takes a DOZING clock unit to LOCKING for 2 ms, with a
PRESENCE; the doze delay timer starts at 10 s when all eight conditions of R34 have come to hold, runs on while they
hold, and stops when one fails. Model's choices: selection once, at the end of the row (log 4). -/
def Obligations.SelectionTakesTheBestCandidate : Prop :=
  ∀ s : State,
    (∀ n r, slotCandidate s n r = true ↔
      r.selected = false ∧ s.clock.mask ≤ r.level ∧ isEnabled s n = true ∧ n ∉ s.sched.off ∧
      fpOf s n ≠ .writing ∧ (lightGroupOf s n = 0 ∨ isHeld s (lightGroupOf s n) = false) ∧
      s.engine.laserFault = none ∧ s.port.station = .running ∧ ctxIs s.sched.save n = false) ∧
    (∀ c, s.sched.save = some c → (saveCandidate s = true ↔
      s.clock.mask ≤ c.level ∧ isEnabled s c.span = true ∧ c.span ∉ s.sched.off ∧ fpOf s c.span ≠ .writing ∧
      (lightGroupOf s c.span = 0 ∨ isHeld s (lightGroupOf s c.span) = false) ∧
      s.engine.laserFault = none ∧ s.port.station = .running)) ∧
    (s.engine.state ≠ .idle → select s = s) ∧
    ((∀ e ∈ s.sched.slots, slotCandidate s e.1 e.2 = false) → saveCandidate s = false → select s = s) ∧
    (∀ c, s.engine.state = .idle → s.sched.save = some c → saveCandidate s = true →
      (∀ e ∈ s.sched.slots, slotCandidate s e.1 e.2 = true → e.2.level ≤ c.level) →
      select s = beginResume s c) ∧
    (∀ n r, s.engine.state = .idle → Table.wf s.sched.slots → (n, r) ∈ s.sched.slots →
      slotCandidate s n r = true →
      (∀ e ∈ s.sched.slots, slotCandidate s e.1 e.2 = true → e.1 ≠ n →
        e.2.level < r.level ∨ (e.2.level = r.level ∧ n < e.1)) →
      (∀ c, s.sched.save = some c → saveCandidate s = true → c.level < r.level) →
      select s = beginSlot s n r.level) ∧
    settleSelect s = settle (select s) ∧
    (pendingCandidate s = true ↔ ∃ e ∈ s.sched.slots, slotCandidate s e.1 e.2 = true) ∧
    (s.clock.state = .dozing → pendingCandidate s = true →
      (settle s).clock = { s.clock with
        state := .locking, lockExpiry := some (s.clock.now + 2), dozeExpiry := none } ∧
      (settle s).peers = { s.peers with presence := some (s.clock.now + 1000) } ∧
      (s.line.state ≠ .passive → (settle s).hasFrame 0 (.presence .running s.cfg.sheathGroups)) ∧
      settle s = { s with clock := (settle s).clock, peers := (settle s).peers, line := (settle s).line }) ∧
    (s.clock.state ≠ .dozing ∨ pendingCandidate s = false →
      (s.mayDoze → s.clock.dozeExpiry = none →
        settle s = { s with clock := { s.clock with dozeExpiry := some (s.clock.now + 10000) } }) ∧
      (s.mayDoze → s.clock.dozeExpiry ≠ none → settle s = s) ∧
      (¬ s.mayDoze → settle s = { s with clock := { s.clock with dozeExpiry := none } }))

/-- What selecting a pending request does: the switch is sent to the span's port, whatever its light group; a private
span is taken at once, with the context of R66 and the active accumulator slot cleared for its acquired bins, all bins
or those of a CONFIRM's window; for a FREE group the claim is asked for and the request waits, selected, in its slot;
for a HELD group it goes back to waiting. Model's choices: the last three fields of the context (log 20, log 26); an ask
that finds HELD (log 25). -/
def Obligations.SelectedRequestIsPrepared : Prop :=
  ∀ (s : State) (n : Nat) (r : Request) (rec : SpanRecord), s.sched.slots.find n = some r →
    enabledRec s n = some rec →
    (s.switch = .settled n → (beginSlot s n r.level).switch = .settled n) ∧
    (∀ x, s.switch = .travelling n x → (beginSlot s n r.level).switch = .travelling n x) ∧
    (s.switch ≠ .settled n → (∀ x, s.switch ≠ .travelling n x) →
      (beginSlot s n r.level).switch = .travelling n (s.clock.now + 25)) ∧
    (rec.lightGroup = 0 →
      (beginSlot s n r.level).engine.state = (if s.switch = .settled n then .dark else .preparing) ∧
      (beginSlot s n r.level).engine.ctx = some
        { span := n, kind := r.kind, level := r.level
          window := if r.windowed then r.target.map (confirmWindow rec.len) else none
          target := if r.kind = .confirm then r.target else none
          round := if r.kind = .confirm then r.round else none
          phase := if s.switch = .settled n then .dark else .preparing
          litDone := 0, darkLevel := none, disturbed := 0
          quickOnly := decide (r.kind ∈ [.routine, .host, .alert]) && decide (fpOf s n = .present)
          accSlot := s.acc.active, resumed := false, interleavedDue := false
          refPresent := decide (fpOf s n = .present), answersLatch := decide (n ∈ s.alerts.latches) } ∧
      (beginSlot s n r.level).acc.current.owner = .running ∧ (beginSlot s n r.level).acc.current.lit = 0 ∧
      (∀ x ∈ (beginSlot s n r.level).acc.current.sums, x = 0) ∧
      (∀ m ∈ (beginSlot s n r.level).acc.current.marks, m = false) ∧
      (r.windowed = false → (beginSlot s n r.level).acc.current.first = 0 ∧
        (beginSlot s n r.level).acc.current.count = rec.len ∧
        (beginSlot s n r.level).acc.current.sums.length = rec.len ∧
        (beginSlot s n r.level).acc.current.marks.length = rec.len) ∧
      (∀ x base count, r.windowed = true → r.target = some x → confirmWindow rec.len x = (base, count) →
        (beginSlot s n r.level).acc.current.first = base ∧
        (beginSlot s n r.level).acc.current.count = count ∧
        (beginSlot s n r.level).acc.current.sums.length = count ∧
        (beginSlot s n r.level).acc.current.marks.length = count) ∧
      (beginSlot s n r.level).acc.slot (beginSlot s n r.level).acc.saved = s.acc.slot s.acc.saved ∧
      beginSlot s n r.level = { stopDoze s with
        sched := { s.sched with slots := s.sched.slots.erase n, selection := none }
        engine := (beginSlot s n r.level).engine, switch := (beginSlot s n r.level).switch
        acc := (beginSlot s n r.level).acc }) ∧
    (∀ stale, rec.lightGroup ≠ 0 → s.claims.find rec.lightGroup = some ⟨.free, stale⟩ →
      (beginSlot s n r.level).sched =
        { s.sched with slots := s.sched.slots.adjust n (fun x => { x with selected := true })
                       selection := some (.slot n) } ∧
      (beginSlot s n r.level).engine = { s.engine with state := .preparing } ∧
      (beginSlot s n r.level).claims.find rec.lightGroup = some ⟨.claiming r.level none, stale⟩ ∧
      (∀ g, g ≠ rec.lightGroup → (beginSlot s n r.level).claims.find g = s.claims.find g) ∧
      (s.line.state ≠ .idle → s.line.state ≠ .passive → s.port.station ≠ .isolated →
        (∃ f ∈ (beginSlot s n r.level).line.queue,
          f.urgency = r.level ∧ f.body = .claim rec.lightGroup r.level) ∧
        ∀ f ∈ (beginSlot s n r.level).line.queue, isReleaseOf rec.lightGroup f.body = false) ∧
      beginSlot s n r.level = { stopDoze s with
        sched := (beginSlot s n r.level).sched, engine := (beginSlot s n r.level).engine
        switch := (beginSlot s n r.level).switch, claims := (beginSlot s n r.level).claims
        line := (beginSlot s n r.level).line }) ∧
    (∀ x l e stale, rec.lightGroup ≠ 0 → s.claims.find rec.lightGroup = some ⟨.held x l e, stale⟩ →
      (beginSlot s n r.level).sched =
        { s.sched with slots := s.sched.slots.adjust n (fun x => { x with selected := false }), selection := none } ∧
      (beginSlot s n r.level).engine = { s.engine with state := .idle, ctx := none } ∧
      (beginSlot s n r.level).claims = s.claims ∧ (beginSlot s n r.level).line = s.line ∧
      beginSlot s n r.level = { stopDoze s with
        sched := (beginSlot s n r.level).sched, engine := (beginSlot s n r.level).engine
        switch := (beginSlot s n r.level).switch })

/-- Suspension and resume: at suspension the context, with phase FULL, moves to the save slot, its accumulator slot
takes the save role, an OPEN claim becomes FREE with a RELEASE at the own level and the resume timer starts; at resume
the context comes back with its resumed flag set and its accumulator slot active, the timer stops with what remains, and
for a shared group the claim is asked for at the sweep's level. Model's choices: the latch a resumed sweep answers (log
20); what remains of the stopped resume timer (log 26). -/
def Obligations.SuspensionAndResumeMoveTheSweep : Prop :=
  (∀ (s : State) (c : Ctx), s.engine.ctx = some c →
    (suspend s).sched = { s.sched with
      save := some { c with phase := .full }
      resumeExpiry := some (s.clock.now + s.cfg.block.resumeLimit * 1000) } ∧
    (suspend s).engine = { s.engine with state := .idle, ctx := none } ∧
    (suspend s).acc.slot (suspend s).acc.saved = { s.acc.current with owner := .suspended } ∧
    (suspend s).acc.current = s.acc.slot s.acc.saved ∧
    claimReleased s (suspend s) (lightGroupOf s c.span) ∧
    (suspend s).notices = s.notices ∧ (suspend s).comp = s.comp ∧
    suspend s = { s with sched := (suspend s).sched, engine := (suspend s).engine, acc := (suspend s).acc,
                         claims := (suspend s).claims, line := (suspend s).line }) ∧
  (∀ (s : State) (c : Ctx) (e : Nat), s.sched.save = some c → s.sched.resumeExpiry = some e →
    lightGroupOf s c.span = 0 →
    (beginResume s c).sched = { s.sched with
      save := none, selection := none, resumeExpiry := none, resumeLeft := e - s.clock.now } ∧
    (beginResume s c).engine = { s.engine with
      state := if s.switch = .settled c.span then .full else .preparing
      ctx := some { c with
        resumed := true, phase := if s.switch = .settled c.span then .full else .preparing
        answersLatch := c.answersLatch || decide (c.span ∈ s.alerts.latches) } } ∧
    (beginResume s c).acc.current = { s.acc.slot s.acc.saved with owner := .running } ∧
    (beginResume s c).acc.slot (beginResume s c).acc.saved = s.acc.current ∧
    beginResume s c = { stopDoze s with sched := (beginResume s c).sched, engine := (beginResume s c).engine,
                                        acc := (beginResume s c).acc, switch := (beginResume s c).switch }) ∧
  (∀ (s : State) (c : Ctx) (e : Nat) (stale : Option (StaleMark × Nat)), s.sched.save = some c →
    s.sched.resumeExpiry = some e → lightGroupOf s c.span ≠ 0 →
    s.claims.find (lightGroupOf s c.span) = some ⟨.free, stale⟩ →
    (beginResume s c).sched = { s.sched with
      save := none, selection := some .save, resumeExpiry := none, resumeLeft := e - s.clock.now } ∧
    (beginResume s c).engine = { s.engine with
      state := .preparing
      ctx := some { c with
        resumed := true, phase := .preparing
        answersLatch := c.answersLatch || decide (c.span ∈ s.alerts.latches) } } ∧
    (beginResume s c).claims.find (lightGroupOf s c.span) = some ⟨.claiming c.level none, stale⟩ ∧
    (∀ g, g ≠ lightGroupOf s c.span → (beginResume s c).claims.find g = s.claims.find g) ∧
    (beginResume s c).acc.current = { s.acc.slot s.acc.saved with owner := .running } ∧
    (beginResume s c).acc.slot (beginResume s c).acc.saved = s.acc.current ∧
    (s.line.state ≠ .idle → s.onLine →
      (∃ f ∈ (beginResume s c).line.queue,
        f.urgency = c.level ∧ f.body = .claim (lightGroupOf s c.span) c.level) ∧
      ∀ f ∈ (beginResume s c).line.queue, isReleaseOf (lightGroupOf s c.span) f.body = false) ∧
    (s.switch = .settled c.span → (beginResume s c).switch = .settled c.span) ∧
    (s.switch ≠ .settled c.span → (∀ x, s.switch ≠ .travelling c.span x) →
      (beginResume s c).switch = .travelling c.span (s.clock.now + 25)) ∧
    beginResume s c = { stopDoze s with sched := (beginResume s c).sched, engine := (beginResume s c).engine,
                                        acc := (beginResume s c).acc, switch := (beginResume s c).switch,
                                        claims := (beginResume s c).claims, line := (beginResume s c).line })

/-! ## The clock unit's events -/

/-- END_OF_LOCKING: 2 ms after entry to LOCKING the clock unit is AWAKE, the engine IDLE and the accumulator as after a
reset, an occasion for selection; in any other clock state the event does not arise. Model's choices: no effect where
the event cannot arise (log 3); the fields of an empty accumulator slot (log 11); selection once, at the end of the row
(log 4). -/
def Obligations.EndOfLockingWakesTheEngine : Prop :=
  ∀ s : State,
    (∀ e, s.clock.state = .locking → s.clock.lockExpiry = some e → e ≤ s.clock.now →
      exec .endOfLocking s = .next (settleSelect { s with
        clock := { s.clock with state := .awake, lockExpiry := none }
        engine := { s.engine with state := .idle }
        acc := ⟨⟨.none, 0, 0, 0, [], []⟩, ⟨.none, 0, 0, 0, [], []⟩, 0⟩ }) ∧
      (s.port.station ≠ .running → exec .endOfLocking s = .next { s with
        clock := { s.clock with state := .awake, lockExpiry := none, dozeExpiry := none }
        engine := { s.engine with state := .idle }
        acc := ⟨⟨.none, 0, 0, 0, [], []⟩, ⟨.none, 0, 0, 0, [], []⟩, 0⟩ })) ∧
    (s.clock.state ≠ .locking → exec .endOfLocking s = .next s)

/-- The window phase of R29's table, and WINDOW_START: phase INSIDE, mask 0, countdowns advanced, a level-0 ROUTINE for
each span that comes due, merged where a request is already pending, the doze timer stopped; a dozing clock unit enters
LOCKING with its PRESENCE; then the selection that the row is an occasion for. Model's choices: no effect where the
event cannot arise (log 3); selection once, at the end of the row (log 4). -/
def Obligations.WindowStartRaisesRoutines : Prop :=
  (∀ (b : StationBlock) (t : Nat), phaseAt b t = .inside ↔
    (b.quietStart < b.quietEnd ∧ b.quietStart * 60000 ≤ t ∧ t < b.quietEnd * 60000) ∨
    (b.quietEnd < b.quietStart ∧ (b.quietStart * 60000 ≤ t ∨ t < b.quietEnd * 60000))) ∧
  ∀ s : State,
    (s.clock.phase = .inside ∨ phaseAt s.cfg.block s.clock.tod = .outside → exec .windowStart s = .next s) ∧
    (s.clock.phase = .outside → phaseAt s.cfg.block s.clock.tod = .inside →
      (s.occupied → ∃ t, exec .windowStart s = .next t ∧
        t.clock = { s.clock with
          phase := .inside, mask := 0, dozeExpiry := none
          countdowns := s.clock.countdowns.map fun e =>
            (e.1, if e.2 ≤ 1 then ((enabledRec s e.1).map (·.cycle)).getD 0 else e.2 - 1) } ∧
        (∀ e ∈ s.clock.countdowns, e.2 ≤ 1 → isEnabled s e.1 = true → e.1 ∉ s.sched.off →
          s.sched.slots.find e.1 = none →
          t.sched.slots.find e.1 = some ⟨.routine, 0, false, none, none, s.clock.tod, false⟩) ∧
        (∀ n, (isEnabled s n = false ∨ n ∈ s.sched.off ∨ ∀ e ∈ s.clock.countdowns, e.2 ≤ 1 → e.1 ≠ n) →
          t.sched.slots.find n = s.sched.slots.find n) ∧
        t = { s with clock := t.clock, sched := { s.sched with slots := t.sched.slots } }) ∧
      (s.clock.state = .dozing → s.port.station ≠ .isolated → ∃ t, exec .windowStart s = .next t ∧
        t.clock.state = .locking ∧ t.clock.lockExpiry = some (s.clock.now + 2) ∧ t.clock.phase = .inside ∧
        t.clock.mask = 0 ∧ t.peers.presence = some (s.clock.now + 1000)) ∧
      ∃ u, exec .windowStart s = .next (settleSelect u) ∧
        u.clock = { s.clock with
          phase := .inside, mask := 0, dozeExpiry := none
          state := if s.clock.state = .dozing then .locking else s.clock.state
          lockExpiry := if s.clock.state = .dozing then some (s.clock.now + 2) else s.clock.lockExpiry
          countdowns := s.clock.countdowns.map fun e =>
            (e.1, if e.2 ≤ 1 then ((enabledRec s e.1).map (·.cycle)).getD 0 else e.2 - 1) } ∧
        (∀ e ∈ s.clock.countdowns, e.2 ≤ 1 → isEnabled s e.1 = true → e.1 ∉ s.sched.off →
          (s.sched.slots.find e.1 = none →
            u.sched.slots.find e.1 = some ⟨.routine, 0, false, none, none, s.clock.tod, false⟩) ∧
          (∀ old, s.sched.slots.find e.1 = some old → old.kind ≠ .baseline →
            u.sched.slots.find e.1 = some { old with windowed := false }) ∧
          (∀ old, s.sched.slots.find e.1 = some old → old.kind = .baseline →
            u.sched.slots.find e.1 = some old)) ∧
        (∀ n, (isEnabled s n = false ∨ n ∈ s.sched.off ∨ ∀ e ∈ s.clock.countdowns, e.2 ≤ 1 → e.1 ≠ n) →
          u.sched.slots.find n = s.sched.slots.find n) ∧
        (s.clock.state = .dozing → s.port.station = .running →
          u.peers = { s.peers with presence := some (s.clock.now + 1000) } ∧
          (s.line.state ≠ .passive → u.hasFrame 0 (.presence .running s.cfg.sheathGroups))) ∧
        (s.clock.state ≠ .dozing → u.peers = s.peers ∧ u.line = s.line) ∧
        u = { s with clock := u.clock, sched := { s.sched with slots := u.sched.slots }, peers := u.peers
                     line := u.line })

/-- WINDOW_END: phase OUTSIDE, mask the daytime floor, every pending ROUTINE that is not selected cancelled and counted
up to 255, one WINDOW_END notice with the number; a LEVEL input whose test holds raises its ALERT in the emptied slot;
then the selection that the row is an occasion for. Model's choices: no effect where the event cannot arise (log 3);
selection once, at the end of the row (log 4). -/
def Obligations.WindowEndCancelsRoutines : Prop :=
  ∀ s : State,
    (s.clock.phase = .outside ∨ phaseAt s.cfg.block s.clock.tod = .inside → exec .windowEnd s = .next s) ∧
    (s.clock.phase = .inside → phaseAt s.cfg.block s.clock.tod = .outside → s.occupied →
      Table.wf s.sched.slots → ∃ t, exec .windowEnd s = .next t ∧
        t.clock = { s.clock with phase := .outside, mask := s.cfg.block.dayFloor, dozeExpiry := none } ∧
        (∀ n r, s.sched.slots.find n = some r → r.kind = .routine → r.selected = false →
          (alertModeOfSpan s n ≠ .level → t.sched.slots.find n = none) ∧
          (alertModeOfSpan s n = .level → n ∉ s.sched.off → n ∈ s.alerts.asserted →
            ctxIs s.engine.ctx n = false → ctxIs s.sched.save n = false → s.alerts.timers.find n = none →
            t.sched.slots.find n =
              some ⟨.alert, alertLevelOf s n, false, none, none, s.clock.tod, false⟩) ∧
          t.comp.results.find n =
            (s.comp.results.find n).map fun x => { x with missed := min 255 (x.missed + 1) }) ∧
        (∀ n, (∀ r, s.sched.slots.find n = some r → r.kind ≠ .routine ∨ r.selected = true) →
          t.sched.slots.find n = s.sched.slots.find n ∧ t.comp.results.find n = s.comp.results.find n) ∧
        t.notices = (post s (.windowEnd
          (s.sched.slots.filter fun e => decide (e.2.kind = .routine) && !e.2.selected).length)).notices ∧
        t = { s with clock := t.clock, sched := { s.sched with slots := t.sched.slots }, notices := t.notices
                     comp := { s.comp with results := t.comp.results } }) ∧
    (s.clock.phase = .inside → phaseAt s.cfg.block s.clock.tod = .outside → Table.wf s.sched.slots →
      ∃ u, exec .windowEnd s = .next (settleSelect u) ∧
        u.clock = { s.clock with phase := .outside, mask := s.cfg.block.dayFloor } ∧
        (∀ n r, s.sched.slots.find n = some r → r.kind = .routine → r.selected = false →
          ((alertModeOfSpan s n ≠ .level ∨ n ∈ s.sched.off ∨ n ∉ s.alerts.asserted ∨
              ctxIs s.engine.ctx n = true ∨ ctxIs s.sched.save n = true ∨ s.alerts.timers.find n ≠ none) →
            u.sched.slots.find n = none) ∧
          (alertModeOfSpan s n = .level → n ∉ s.sched.off → n ∈ s.alerts.asserted →
            ctxIs s.engine.ctx n = false → ctxIs s.sched.save n = false → s.alerts.timers.find n = none →
            u.sched.slots.find n =
              some ⟨.alert, alertLevelOf s n, false, none, none, s.clock.tod, false⟩) ∧
          u.comp.results.find n =
            (s.comp.results.find n).map fun x => { x with missed := min 255 (x.missed + 1) }) ∧
        (∀ n, (∀ r, s.sched.slots.find n = some r → r.kind ≠ .routine ∨ r.selected = true) →
          u.sched.slots.find n = s.sched.slots.find n ∧ u.comp.results.find n = s.comp.results.find n) ∧
        u.notices = (post s (.windowEnd
          (s.sched.slots.filter fun e => decide (e.2.kind = .routine) && !e.2.selected).length)).notices ∧
        u = { s with clock := u.clock, sched := { s.sched with slots := u.sched.slots }, notices := u.notices
                     comp := { s.comp with results := u.comp.results } })

/-- DOZE_ENTRY with every condition of R34 holding and the timer run out: DOZING, engine OFF, accumulator and result
trace lost; each PRESENT span with a page outside the retained banks is ABSENT without directory entry and held offset,
with an FP_LOST notice RETENTION in span order; an open load with such a page is cancelled with its notice
LOAD_CANCELLED; cells of retained banks stay; a PRESENCE that shows the presence state is queued. The clock unit then
dozes, but for a cancelled load whose span has a pending request that nothing else bars: it is a wake cause, and the
unit is LOCKING. Model's choices: no effect where the event cannot arise (log 3); undefined cells are unlisted (log 7);
a cancelled load may wake the clock unit in the same row (log 9); the fields of an empty accumulator slot, and the
active role of slot 0 from doze entry on (log 11); RETENTION notices before LOAD_CANCELLED (log 33). -/
def Obligations.DozeEntryTakesItsLosses : Prop :=
  ∀ s : State,
    (s.cfg.block.dozeEnable = false ∨ s.clock.state ≠ .awake ∨ s.port.station ≠ .running ∨
      s.clock.phase = .inside ∨ pendingCandidate s = true ∨ s.engine.state ≠ .idle ∨ s.sched.save ≠ none ∨
      (∃ h r, (h, CorrRecord.opened r) ∈ s.corr) ∨ s.clock.dozeExpiry = none →
      exec .dozeEntry s = .next s) ∧
    (∀ e, s.cfg.block.dozeEnable = true → s.clock.state = .awake → s.port.station = .running →
      s.clock.phase = .outside → pendingCandidate s = false → s.engine.state = .idle → s.sched.save = none →
      (∀ h r, (h, CorrRecord.opened r) ∉ s.corr) → s.clock.dozeExpiry = some e → e ≤ s.clock.now →
      Table.wf s.cfg.spans →
      ∃ t, exec .dozeEntry s = .next t ∧
        t.engine = { s.engine with state := .off } ∧
        t.acc = ⟨⟨.none, 0, 0, 0, [], []⟩, ⟨.none, 0, 0, 0, [], []⟩, 0⟩ ∧ t.trace = ⟨.empty, none, []⟩ ∧
        t.peers = { s.peers with presence := some (s.clock.now + 1000) } ∧
        (s.line.state ≠ .passive → t.hasFrame 0 (.presence
          (if t.clock.state = .dozing then .dozing else .running) s.cfg.sheathGroups)) ∧
        (∀ gone : List (Nat × SpanRecord),
          ((enabledSpans s).filter fun x => decide (fpOf s x.1 = .present ∧
            ∃ p ∈ x.2.pages, s.cfg.block.retention.getLsbD (p / 16) = false)) = gone →
          (∀ l r, s.store.load = some l → enabledRec s l.span = some r →
            (∃ p ∈ r.pages, s.cfg.block.retention.getLsbD (p / 16) = false) →
            t.notices = (postAll s (gone.map (fun x => .fpLost x.1 .retention) ++
              [.fpLost l.span .loadCancelled])).notices) ∧
          ((∀ l r, s.store.load = some l → enabledRec s l.span = some r →
              ∀ p ∈ r.pages, s.cfg.block.retention.getLsbD (p / 16) = true) →
            t.notices = (postAll s (gone.map fun x => .fpLost x.1 .retention)).notices)) ∧
        (∀ a, s.cfg.block.retention.getLsbD (a / 65536) = true → t.store.mem.find a = s.store.mem.find a) ∧
        (∀ a, s.cfg.block.retention.getLsbD (a / 65536) = false → t.store.mem.find a = none) ∧
        (∀ n r, (n, r) ∈ enabledSpans s → fpOf s n = .present →
          (∃ p ∈ r.pages, s.cfg.block.retention.getLsbD (p / 16) = false) →
          fpOf t n = .absent ∧ (∀ d ∈ t.store.dir, d.2.owner ≠ n) ∧
          ∀ x, t.comp.results.find n = some x → x.held = none) ∧
        (∀ n r, (n, r) ∈ enabledSpans s → (∀ p ∈ r.pages, s.cfg.block.retention.getLsbD (p / 16) = true) →
          fpOf t n = fpOf s n ∧ t.comp.results.find n = s.comp.results.find n) ∧
        (∀ l r, s.store.load = some l → enabledRec s l.span = some r →
          (∃ p ∈ r.pages, s.cfg.block.retention.getLsbD (p / 16) = false) →
          t.store.load = none ∧ fpOf t l.span = .absent) ∧
        ((∀ l r, s.store.load = some l → enabledRec s l.span = some r →
            ∀ p ∈ r.pages, s.cfg.block.retention.getLsbD (p / 16) = true) →
          t.clock = { s.clock with state := .dozing, dozeExpiry := none }) ∧
        (∀ l r, s.store.load = some l → enabledRec s l.span = some r →
          (∃ p ∈ r.pages, s.cfg.block.retention.getLsbD (p / 16) = false) →
          ((∀ q, (l.span, q) ∈ s.sched.slots → q.selected = true ∨ q.level < s.clock.mask ∨ l.span ∈ s.sched.off ∨
              s.engine.laserFault ≠ none ∨ (r.lightGroup ≠ 0 ∧ isHeld s r.lightGroup = true)) →
            t.clock = { s.clock with state := .dozing, dozeExpiry := none }) ∧
          (∀ q, (l.span, q) ∈ s.sched.slots → q.selected = false → s.clock.mask ≤ q.level → l.span ∉ s.sched.off →
            s.engine.laserFault = none → (r.lightGroup = 0 ∨ isHeld s r.lightGroup = false) →
            t.clock = { s.clock with
              state := .locking, lockExpiry := some (s.clock.now + 2), dozeExpiry := none })) ∧
        t = { s with clock := t.clock, engine := t.engine, acc := t.acc, trace := t.trace, peers := t.peers,
                     comp := t.comp, store := t.store, notices := t.notices, line := t.line, free := t.free })

/-! ## Alert inputs -/

/-- ALERT_LINE_ASSERTED, ALERT_LINE_RELEASED and RE_RAISE_TIMER_EXPIRY: an EDGE input sets its latch once and raises one
ALERT, which fills the span's slot or is merged there; a LEVEL input raises one when slot, sweeps and timer leave it
free to; OFF raises nothing; release changes the line alone. Then the selection that a row with an ALERT is an occasion
for. Model's choices: no effect where the event cannot arise (log 3); selection once, at the end of the row (log 4). -/
def Obligations.AlertInputsRaiseAlerts : Prop :=
  ∀ (s : State) (n : Nat),
    (n ∈ s.alerts.asserted → exec (.alertLineAsserted n) s = .next s) ∧
    (n ∉ s.alerts.asserted → alertModeOfSpan s n = .off → exec (.alertLineAsserted n) s =
      .next { s with alerts := { s.alerts with asserted := insertAsc n s.alerts.asserted } }) ∧
    (n ∉ s.alerts.asserted → alertModeOfSpan s n = .edge → s.occupied →
      (n ∉ s.alerts.latches → n ∉ s.sched.off → s.sched.slots.find n = none →
        exec (.alertLineAsserted n) s = .next { stopDoze s with
          alerts := { s.alerts with
            asserted := insertAsc n s.alerts.asserted, latches := insertAsc n s.alerts.latches }
          sched := { s.sched with
            slots := s.sched.slots.put n
              (⟨.alert, alertLevelOf s n, false, none, none, s.clock.tod, false⟩ : Request) } }) ∧
      (n ∈ s.alerts.latches ∨ n ∈ s.sched.off →
        exec (.alertLineAsserted n) s = .next { stopDoze s with
          alerts := { s.alerts with asserted := insertAsc n s.alerts.asserted } })) ∧
    (n ∉ s.alerts.asserted → alertModeOfSpan s n = .level → s.occupied →
      (n ∉ s.sched.off → s.sched.slots.find n = none → ctxIs s.engine.ctx n = false →
        ctxIs s.sched.save n = false → s.alerts.timers.find n = none →
        exec (.alertLineAsserted n) s = .next { stopDoze s with
          alerts := { s.alerts with asserted := insertAsc n s.alerts.asserted }
          sched := { s.sched with
            slots := s.sched.slots.put n
              (⟨.alert, alertLevelOf s n, false, none, none, s.clock.tod, false⟩ : Request) } }) ∧
      (n ∈ s.sched.off ∨ s.sched.slots.find n ≠ none ∨ ctxIs s.engine.ctx n = true ∨
        ctxIs s.sched.save n = true ∨ s.alerts.timers.find n ≠ none →
        exec (.alertLineAsserted n) s = .next { stopDoze s with
          alerts := { s.alerts with asserted := insertAsc n s.alerts.asserted } })) ∧
    exec (.alertLineReleased n) s = .next { s with
      alerts := { s.alerts with asserted := s.alerts.asserted.filter fun m => decide (m ≠ n) } } ∧
    (∀ e, s.alerts.timers.find n = some e → s.clock.now < e → exec (.reRaiseTimerExpiry n) s = .next s) ∧
    (s.alerts.timers.find n = none → exec (.reRaiseTimerExpiry n) s = .next s) ∧
    (∀ e, s.alerts.timers.find n = some e → e ≤ s.clock.now → s.occupied →
      (alertModeOfSpan s n = .level → n ∈ s.alerts.asserted → n ∉ s.sched.off → s.sched.slots.find n = none →
        ctxIs s.engine.ctx n = false → ctxIs s.sched.save n = false →
        exec (.reRaiseTimerExpiry n) s = .next { stopDoze s with
          alerts := { s.alerts with timers := s.alerts.timers.filter fun x => decide (x.1 ≠ n) }
          sched := { s.sched with
            slots := s.sched.slots.put n
              (⟨.alert, alertLevelOf s n, false, none, none, s.clock.tod, false⟩ : Request) } }) ∧
      (alertModeOfSpan s n ≠ .level ∨ n ∉ s.alerts.asserted ∨ n ∈ s.sched.off ∨ s.sched.slots.find n ≠ none ∨
        ctxIs s.engine.ctx n = true ∨ ctxIs s.sched.save n = true →
        exec (.reRaiseTimerExpiry n) s = .next { stopDoze s with
          alerts := { s.alerts with timers := s.alerts.timers.filter fun x => decide (x.1 ≠ n) } })) ∧
    (n ∉ s.alerts.asserted → alertModeOfSpan s n = .edge →
      (n ∈ s.alerts.latches ∨ n ∈ s.sched.off →
        exec (.alertLineAsserted n) s = .next (settleSelect { s with
          alerts := { s.alerts with asserted := insertAsc n s.alerts.asserted } })) ∧
      (n ∉ s.alerts.latches → n ∉ s.sched.off →
        (s.sched.slots.find n = none → exec (.alertLineAsserted n) s = .next (settleSelect { s with
          alerts := { s.alerts with
            asserted := insertAsc n s.alerts.asserted, latches := insertAsc n s.alerts.latches }
          sched := { s.sched with
            slots := s.sched.slots.put n
              (⟨.alert, alertLevelOf s n, false, none, none, s.clock.tod, false⟩ : Request) } })) ∧
        (∀ old, s.sched.slots.find n = some old → old.kind ≠ .baseline →
          exec (.alertLineAsserted n) s = .next (settleSelect { s with
            alerts := { s.alerts with
              asserted := insertAsc n s.alerts.asserted, latches := insertAsc n s.alerts.latches }
            sched := { s.sched with
              slots := s.sched.slots.put n { old with
                kind := if old.kind = .confirm then .confirm else .alert
                level := max old.level (alertLevelOf s n), windowed := false } } })) ∧
        (∀ old, s.sched.slots.find n = some old → old.kind = .baseline →
          exec (.alertLineAsserted n) s = .next (settleSelect (post { s with
            alerts := { s.alerts with
              asserted := insertAsc n s.alerts.asserted, latches := insertAsc n s.alerts.latches }
            sched := { s.sched with
              slots := s.sched.slots.put n (⟨.alert, max old.level (alertLevelOf s n), false, none, none,
                s.clock.tod, old.selected⟩ : Request) } } (.baselineCancelled n .replacedByAlert)))))) ∧
    (n ∉ s.alerts.asserted → alertModeOfSpan s n = .level →
      (n ∉ s.sched.off → s.sched.slots.find n = none → ctxIs s.engine.ctx n = false →
        ctxIs s.sched.save n = false → s.alerts.timers.find n = none →
        exec (.alertLineAsserted n) s = .next (settleSelect { s with
          alerts := { s.alerts with asserted := insertAsc n s.alerts.asserted }
          sched := { s.sched with
            slots := s.sched.slots.put n
              (⟨.alert, alertLevelOf s n, false, none, none, s.clock.tod, false⟩ : Request) } })) ∧
      (n ∈ s.sched.off ∨ s.sched.slots.find n ≠ none ∨ ctxIs s.engine.ctx n = true ∨
        ctxIs s.sched.save n = true ∨ s.alerts.timers.find n ≠ none →
        exec (.alertLineAsserted n) s = .next (settleSelect { s with
          alerts := { s.alerts with asserted := insertAsc n s.alerts.asserted } }))) ∧
    (∀ e, s.alerts.timers.find n = some e → e ≤ s.clock.now →
      (alertModeOfSpan s n = .level → n ∈ s.alerts.asserted → n ∉ s.sched.off → s.sched.slots.find n = none →
        ctxIs s.engine.ctx n = false → ctxIs s.sched.save n = false →
        exec (.reRaiseTimerExpiry n) s = .next (settleSelect { s with
          alerts := { s.alerts with timers := s.alerts.timers.filter fun x => decide (x.1 ≠ n) }
          sched := { s.sched with
            slots := s.sched.slots.put n
              (⟨.alert, alertLevelOf s n, false, none, none, s.clock.tod, false⟩ : Request) } })) ∧
      (alertModeOfSpan s n ≠ .level ∨ n ∉ s.alerts.asserted ∨ n ∈ s.sched.off ∨ s.sched.slots.find n ≠ none ∨
        ctxIs s.engine.ctx n = true ∨ ctxIs s.sched.save n = true →
        exec (.reRaiseTimerExpiry n) s = .next (settleSelect { s with
          alerts := { s.alerts with timers := s.alerts.timers.filter fun x => decide (x.1 ≠ n) } })))

/-! ## The engine's events -/

/-- SWITCH_SETTLE_EXPIRY: the switch is SETTLED on its target; a taken sweep of that span in PREPARING enters DARK, or
FULL if it was resumed; nothing else changes, and nothing at all before the expiry. Model's choices: no effect where the
event cannot arise (log 3); the dark counters start at 0 (log 26). -/
def Obligations.SwitchSettlesAndPreparingEnds : Prop :=
  ∀ s : State,
    ((∀ p e, s.switch ≠ .travelling p e) → exec .switchSettleExpiry s = .next s) ∧
    (∀ p e, s.switch = .travelling p e → s.clock.now < e → exec .switchSettleExpiry s = .next s) ∧
    (∀ p e, s.switch = .travelling p e → e ≤ s.clock.now →
      (∀ c, s.engine.ctx = some c → s.engine.state = .preparing → s.sched.selection = none → c.span = p →
        (c.resumed = false → exec .switchSettleExpiry s = .next { s with
          switch := .settled p
          engine := { s.engine with
            state := .dark, ctx := some { c with phase := .dark }, darkShots := 0, darkTotal := 0 } }) ∧
        (c.resumed = true → exec .switchSettleExpiry s = .next { s with
          switch := .settled p
          engine := { s.engine with state := .full, ctx := some { c with phase := .full } } })) ∧
      (s.engine.state ≠ .preparing ∨ s.sched.selection ≠ none ∨ ctxIs s.engine.ctx p = false →
        exec .switchSettleExpiry s = .next { s with switch := .settled p }))

/-- DARK_SHOT_COMPLETE: the samples of the acquired bins are summed; the 16th shot gives D, the mean rounded half up; D
at or below the foreign-light limit leads to QUICK or FULL, D above it ends the sweep FOREIGN_LIGHT with the comparison
part as it was, its claim released with a RELEASE, its alert input answered, its accumulator slot released and its
context emptied; outside DARK no dark shot is counted. Model's choices: no effect where the event cannot arise (log 3);
the dark counters (log 26); selection once, at the end of the row (log 4). -/
def Obligations.DarkShotsGiveTheDarkLevel : Prop :=
  (∀ total bins : Nat, 0 < bins → 16 * bins * darkLevelOf total bins ≤ total + 8 * bins ∧
    total + 8 * bins < 16 * bins * (darkLevelOf total bins + 1)) ∧
  ∀ (s : State) (xs : List Adc),
    (s.engine.state ≠ .dark → exec (.darkShotComplete xs) s = .next s) ∧
    (∀ (c : Ctx) (r : SpanRecord) (first count total : Nat), s.engine.state = .dark → s.engine.ctx = some c →
      enabledRec s c.span = some r → xs.length = r.len → c.window.getD (0, r.len) = (first, count) →
      s.engine.darkTotal + (((xs.drop first).take count).map (·.val)).sum = total →
      (s.engine.darkShots + 1 < 16 → exec (.darkShotComplete xs) s = .next { s with
        engine := { s.engine with darkShots := s.engine.darkShots + 1, darkTotal := total } }) ∧
      (16 ≤ s.engine.darkShots + 1 → darkLevelOf total count ≤ s.cfg.block.foreignLight →
        exec (.darkShotComplete xs) s = .next { s with
          engine := { s.engine with
            state := if c.quickOnly then .quick else .full
            ctx := some { c with
              darkLevel := some (darkLevelOf total count), phase := if c.quickOnly then .quick else .full }
            darkShots := 0, darkTotal := 0 } }) ∧
      (16 ≤ s.engine.darkShots + 1 → s.cfg.block.foreignLight < darkLevelOf total count →
        ∃ t, exec (.darkShotComplete xs) s = .next t ∧
          (∀ x, s.comp.results.find c.span = some x → t.comp.results.find c.span = some { x with
            latest := some ⟨.foreignLight, c.kind, c.level, s.clock.tod, s.acc.current.lit,
              some (darkLevelOf total count)⟩ }) ∧
          (s.notices.fifo.length < 32 → ⟨.sweepDone c.span .foreignLight, s.clock.tod⟩ ∈ t.notices.fifo) ∧
          (∃ u, t = settleSelect u ∧ sweepEnded s u c ∧ claimReleased s u (lightGroupOf s c.span)) ∧
          alertAnswered s t c ∧ t.store = s.store ∧ t.trace = s.trace ∧ t.port = s.port))

/-- LIT_SHOT_COMPLETE: a shot's samples are added to the active slot, all acquired bins together; the quick look ends
after 64 shots, the full acquisition after 2^k with its claim released and a RELEASE at the own level queued, and every
64th shot before that is followed by a dark shot; without the conditions of R73 no shot counts. Model's choices: no
effect where the event cannot arise (log 3); the mark of a due dark shot (log 26); a FILLING trace has count 0 and no
entries (log 34). -/
def Obligations.LitShotsAccumulate : Prop :=
  ∀ (s : State) (xs : List Adc),
    (s.engine.ctx = none ∨ (s.engine.state ≠ .quick ∧ s.engine.state ≠ .full) ∨ s.engine.laserFault ≠ none ∨
      (∃ c, s.engine.ctx = some c ∧ (c.interleavedDue = true ∨ s.switch ≠ .settled c.span ∨
        (lightGroupOf s c.span ≠ 0 ∧ isOpen s (lightGroupOf s c.span) = false))) →
      exec (.litShotComplete xs) s = .next s) ∧
    (∀ (c : Ctx) (r : SpanRecord), s.engine.ctx = some c → s.engine.state = .quick ∨ s.engine.state = .full →
      enabledRec s c.span = some r → xs.length = r.len → c.interleavedDue = false →
      s.switch = .settled c.span → lightGroupOf s c.span = 0 ∨ isOpen s (lightGroupOf s c.span) = true →
      s.engine.laserFault = none →
      ∃ t, exec (.litShotComplete xs) s = .next t ∧
        t.acc.active = s.acc.active ∧ t.acc.slot t.acc.saved = s.acc.slot s.acc.saved ∧
        t.acc.current = { s.acc.current with
          sums := List.zipWith (· + ·) s.acc.current.sums
            (((xs.drop s.acc.current.first).take s.acc.current.count).map (·.val))
          marks := List.zipWith (fun m v => m || decide (v = 4095)) s.acc.current.marks
            (((xs.drop s.acc.current.first).take s.acc.current.count).map (·.val))
          lit := s.acc.current.lit + 1 } ∧
        (s.engine.state = .quick → c.litDone + 1 ≠ 64 → t = { s with
          acc := t.acc, engine := { s.engine with ctx := some { c with litDone := c.litDone + 1 } } }) ∧
        (s.engine.state = .full → c.litDone + 1 < 2 ^ r.shots → t = { s with
          acc := t.acc
          engine := { s.engine with ctx := some { c with
            litDone := c.litDone + 1, interleavedDue := decide ((c.litDone + 1) % 64 = 0) } } }) ∧
        (((s.engine.state = .quick ∧ c.litDone + 1 = 64) ∨
          (s.engine.state = .full ∧ 2 ^ r.shots ≤ c.litDone + 1)) →
          t.engine = { s.engine with
            state := .reducing, ctx := some { c with litDone := c.litDone + 1, phase := .reducing } } ∧
          t.trace = ⟨.filling, some ⟨c.span, r.len, if c.quickOnly then 6 else r.shots, c.darkLevel.getD 0,
            c.window, 0⟩, []⟩ ∧
          (s.engine.state = .quick → t.claims = s.claims ∧ t.line = s.line) ∧
          (s.engine.state = .full → claimReleased s t (lightGroupOf s c.span)) ∧
          t = { s with acc := t.acc, engine := t.engine, trace := t.trace, claims := t.claims, line := t.line }))

/-- INTERLEAVED_DARK_SHOT_CHECK: a mean above D plus the disturbance margin raises the count, any other sets it to 0; at
2 the sweep ends DISTURBED with what every end does (claim, alert input, accumulator slot, context); at a block boundary
the sweep is suspended when R58 says so, and otherwise it goes on. Model's choices: no effect where the event cannot
arise (log 3); the mark of a due dark shot (log 26); selection once, at the end of the row (log 4). -/
def Obligations.InterleavedDarkShotsAreChecked : Prop :=
  (∀ total bins : Nat, 0 < bins → bins % 2 = 0 → bins * darkMean total bins ≤ total + bins / 2 ∧
    total + bins / 2 < bins * (darkMean total bins + 1)) ∧
  ∀ (s : State) (xs : List Adc),
    (s.engine.ctx = none ∨ s.engine.state ≠ .full ∨ (∃ c, s.engine.ctx = some c ∧ c.interleavedDue = false) →
      exec (.interleavedDarkShotCheck xs) s = .next s) ∧
    (∀ (c : Ctx) (r : SpanRecord) (first count mean n : Nat), s.engine.state = .full → s.clock.state = .awake →
      s.engine.ctx = some c → enabledRec s c.span = some r → xs.length = r.len → c.interleavedDue = true →
      c.window.getD (0, r.len) = (first, count) →
      darkMean (((xs.drop first).take count).map (·.val)).sum count = mean →
      (if c.darkLevel.getD 0 + s.cfg.block.disturbance < mean then c.disturbed + 1 else 0) = n →
      (n < 2 → (c.litDone % 256 ≠ 0 ∨ 3 ≤ c.level ∨ c.resumed = true ∨ s.sched.save ≠ none ∨
          urgentElsewhere s c.span = false) →
        exec (.interleavedDarkShotCheck xs) s = .next { stopDoze s with
          engine := { s.engine with ctx := some { c with interleavedDue := false, disturbed := n } } }) ∧
      (n < 2 → c.litDone % 256 = 0 → c.level < 3 → c.resumed = false → s.sched.save = none →
        urgentElsewhere s c.span = true →
        exec (.interleavedDarkShotCheck xs) s = .next (settleSelect (suspend { s with
          engine := { s.engine with ctx := some { c with interleavedDue := false, disturbed := n } } }))) ∧
      (2 ≤ n → ∃ t, exec (.interleavedDarkShotCheck xs) s = .next t ∧
        (∀ x, s.comp.results.find c.span = some x → t.comp.results.find c.span = some { x with
          latest := some ⟨.disturbed, c.kind, c.level, s.clock.tod, s.acc.current.lit, c.darkLevel⟩ }) ∧
        (s.notices.fifo.length < 32 → ⟨.sweepDone c.span .disturbed, s.clock.tod⟩ ∈ t.notices.fifo) ∧
        (s.sched.selection = none →
          ∃ u, t = settleSelect u ∧ sweepEnded s u c ∧ claimReleased s u (lightGroupOf s c.span)) ∧
        alertAnswered s t c ∧ t.store = s.store ∧ t.port = s.port))

/-- REDUCTION_COMPLETE: entry by entry, 1806 with the mark for a saturated bin, the level of the net value of the mean
for any other acquired bin, 2047 outside the window; the saturated entries of the comparison range are counted; up to
256 the trace is VALID and the comparator begins, above it the sweep ends OVERLOAD with what every end does (claim,
alert input, accumulator slot, context). Model's choices: no effect where the event cannot arise (log 3); selection
once, at the end of the row (log 4). -/
def Obligations.ReductionWritesTheTrace : Prop :=
  (∀ (len n dark : Nat) (sl : AccSlot), sl.sums.length = sl.count → sl.marks.length = sl.count →
    sl.first + sl.count ≤ len →
    (reduceEntries len n dark sl).length = len ∧
    ∀ j, j < len → (reduceEntries len n dark sl)[j]? =
      if sl.first ≤ j ∧ j < sl.first + sl.count then
        some (if sl.marks.getD (j - sl.first) false then (1806, true)
          else (levelOf (netValue (meanOf n (sl.sums.getD (j - sl.first) 0)) dark), false))
      else some (2047, false)) ∧
  ∀ s : State,
    (s.engine.ctx = none ∨ s.engine.state ≠ .reducing ∨ s.trace.state ≠ .filling →
      exec .reductionComplete s = .next s) ∧
    (∀ (c : Ctx) (r : SpanRecord) (d : TraceDesc) (es : List (Nat × Bool)) (k : Nat), s.engine.ctx = some c →
      s.engine.state = .reducing → enabledRec s c.span = some r → s.trace.state = .filling →
      s.trace.desc = some d → reduceEntries d.len d.n d.darkLevel s.acc.current = es →
      countSaturated es (compRange r c.window).1 (compRange r c.window).2 = k →
      (k ≤ 256 → exec .reductionComplete s =
        .next { s with trace := ⟨.valid, some { d with saturated := k }, es⟩ }) ∧
      (256 < k → ∃ t, exec .reductionComplete s = .next t ∧
        t.trace = ⟨.valid, some { d with saturated := k }, es⟩ ∧
        (∀ x, s.comp.results.find c.span = some x → t.comp.results.find c.span = some { x with
          latest := some ⟨.overload, c.kind, c.level, s.clock.tod, s.acc.current.lit, c.darkLevel⟩ }) ∧
        (s.notices.fifo.length < 32 → ⟨.sweepDone c.span .overload, s.clock.tod⟩ ∈ t.notices.fifo) ∧
        (∃ u, t = settleSelect u ∧ sweepEnded s u c ∧ claimReleased s u (lightGroupOf s c.span)) ∧
        alertAnswered s t c ∧ t.store = s.store ∧ t.port = s.port))

/-- The comparison of a sweep takes θ = 2τ for a quick look and τ otherwise, with ρ, floor level, range and held offset
as they stand. COMPARISON_COMPLETE without a further event: an ABSENT span ends NO_REFERENCE; a quick look with an empty
event list ends CLEAN and one with an event escalates; a BASELINE enters STORING with its span WRITING; any other sweep
ends with the outcome of the comparison, which is written into the comparison part. An ended sweep has its alert input
answered, its accumulator slot released and its context emptied; a quick CLEAN releases its claim with a RELEASE.
Model's choices: no effect where the event cannot arise (log 3); selection once, at the end of the row (log 4). -/
def Obligations.ComparisonDecidesTheSweep : Prop :=
  ∀ s : State,
    (s.engine.ctx = none ∨ s.engine.state ≠ .reducing ∨ s.trace.state ≠ .valid →
      exec .comparisonComplete s = .next s) ∧
    (∀ (c : Ctx) (r : SpanRecord) (p : Problem), problemOf s c r = p →
      compared s c r = p.result s.clock.tod c.window.isSome c.quickOnly ∧
      p.theta = (if c.quickOnly = true then 2 * r.tau else r.tau) ∧ p.rho = s.cfg.block.reflection ∧
      p.floorLevel = s.cfg.block.floorLevel ∧ p.spacing = s.clock.spacing ∧ p.anchor = r.anchor ∧
      p.trace = s.trace.entries ∧ p.fingerprint.length = r.len ∧
      (∀ j v, j < r.len → s.store.mem.find (4096 * (r.firstPage + j / 4096) + j % 4096) = some v → p.ref j = v) ∧
      (c.window = none → p.first = r.anchor + 64 ∧ p.last = r.len - 17) ∧
      (∀ base count, c.window = some (base, count) →
        p.first = max (r.anchor + 64) base ∧ p.last = min (r.len - 17) (base + count - 1)) ∧
      (∀ x, s.comp.results.find c.span = some x → p.held = x.held)) ∧
    (∀ (c : Ctx) (r : SpanRecord), s.engine.ctx = some c → s.engine.state = .reducing →
      enabledRec s c.span = some r → s.trace.state = .valid →
      (c.refPresent = false → c.kind ≠ .baseline → ∃ t, exec .comparisonComplete s = .next t ∧
        (∀ x, s.comp.results.find c.span = some x → t.comp.results.find c.span = some { x with
          latest := some ⟨.noReference, c.kind, c.level, s.clock.tod, s.acc.current.lit, c.darkLevel⟩ }) ∧
        (s.notices.fifo.length < 32 → ⟨.sweepDone c.span .noReference, s.clock.tod⟩ ∈ t.notices.fifo) ∧
        (∃ u, t = settleSelect u ∧ sweepEnded s u c ∧ u.claims = s.claims) ∧ alertAnswered s t c ∧
        t.trace = s.trace ∧ t.store = s.store ∧ t.port = s.port) ∧
      (c.refPresent = true → c.quickOnly = true → (compared s c r).events ≠ [] →
        exec .comparisonComplete s = .next { s with
          engine := { s.engine with
            state := .full
            ctx := some { c with litDone := 0, quickOnly := false, interleavedDue := false, phase := .full } }
          acc := s.acc.adjust s.acc.active AccSlot.clear
          comp := { s.comp with working := none } }) ∧
      (c.refPresent = true → (c.quickOnly = true → (compared s c r).events = []) →
        (c.quickOnly = true ∨ c.kind ≠ .baseline) → ∃ t, exec .comparisonComplete s = .next t ∧
        (∀ x, s.comp.results.find c.span = some x →
          ∃ y, t.comp.results.find c.span = some y ∧ y.missed = x.missed ∧
            y.latest = some ⟨(compared s c r).outcome, c.kind, c.level, s.clock.tod, s.acc.current.lit,
              c.darkLevel⟩ ∧
            y.comparison = some (compared s c r) ∧
            y.held = if (compared s c r).unanchored ∨ c.kind = .baseline then x.held
              else some (compared s c r).offset) ∧
        (s.notices.fifo.length < 32 →
          ⟨.sweepDone c.span (compared s c r).outcome, s.clock.tod⟩ ∈ t.notices.fifo) ∧
        (∃ u, t = settleSelect u ∧ sweepEnded s u c ∧
          (c.quickOnly = true → claimReleased s u (lightGroupOf s c.span)) ∧
          (c.quickOnly = false → u.claims = s.claims)) ∧ alertAnswered s t c ∧
        t.trace = s.trace ∧ t.store = s.store ∧ t.port = s.port) ∧
      (c.kind = .baseline → c.quickOnly = false → ∃ t, exec .comparisonComplete s = .next t ∧
        t.engine = { s.engine with state := .storing, ctx := some { c with phase := .storing } } ∧
        t.comp.working = (if c.refPresent then some (compared s c r) else none) ∧
        (∀ m, t.comp.results.find m = if m = c.span
          then (s.comp.results.find c.span).map fun x => { x with held := none }
          else s.comp.results.find m) ∧
        t.store = { s.store with
          dir := s.store.dir.filter fun e => decide (e.2.owner ≠ c.span)
          fp := s.store.fp.put c.span .writing } ∧
        t = { s with engine := t.engine, comp := t.comp, store := t.store }))

/-- A fault on a span of a sheath group whose record is IDLE makes a finding, which opens the round: a sweep that is not
a BASELINE, a CONFIRM among them that finds the record IDLE after its confirm report, and that ends with a BREAK, or
with a BEND as its first named event, leaves the record with that kind and sheath distance as its opening finding, a
FINDING of urgency 3 is queued, and every other enabled span of the group whose confirm target is in range has its
CONFIRM raised. Model's choices: selection once, at the end of the row (log 4). -/
def Obligations.FaultsOpenARound : Prop :=
  ∀ (s : State) (c : Ctx) (r : SpanRecord) (e : Event), s.engine.ctx = some c → s.engine.state = .reducing →
    enabledRec s c.span = some r → s.trace.state = .valid → c.refPresent = true → c.quickOnly = false →
    (c.kind ∈ [.routine, .host, .alert] ∨
      (c.kind = .confirm ∧ ∀ h o, c.round = some h → s.corr.find h ≠ some (.opened o))) →
    r.sheathGroup ≠ 0 → s.corr.find r.sheathGroup = some .idle →
    ((∃ pre post, (compared s c r).events = pre ++ e :: post ∧ e.kind = .brk ∧ ∀ x ∈ pre, x.kind ≠ .brk) ∨
     ((∀ x ∈ (compared s c r).events, x.kind ≠ .brk) ∧
      ∃ pre post, (compared s c r).events = pre ++ e :: post ∧ e.kind = .bend ∧ ∀ x ∈ pre, x.kind ≠ .bend)) →
    ∃ t, exec .comparisonComplete s = .next t ∧
      (s.onLine → t.hasFrame 3
        (.finding r.sheathGroup (if e.kind = .brk then 1 else 2) (e.distance - r.offset))) ∧
      (Table.wf s.cfg.spans → ∃ u, t = settleSelect u ∧ sweepEnded s u c ∧ ∀ n,
        (∀ q b, n ≠ c.span → enabledRec s n = some q → q.sheathGroup = r.sheathGroup → n ∉ s.sched.off →
          binOf s.clock.spacing (e.distance - r.offset + q.offset) = b → q.anchor + 64 ≤ b → b + 17 ≤ q.len →
          (s.sched.slots.find n = none → u.sched.slots.find n =
            some ⟨.confirm, 3, true, some b, some r.sheathGroup, s.clock.tod, false⟩) ∧
          (∀ old, s.sched.slots.find n = some old → ∃ m : Request, u.sched.slots.find n = some m ∧
            m.kind = .confirm ∧ m.level = max old.level 3 ∧ m.target = some b ∧ m.round = some r.sheathGroup ∧
            m.selected = old.selected)) ∧
        ((n = c.span ∨ n ∈ s.sched.off ∨ ∀ q, enabledRec s n = some q → q.sheathGroup ≠ r.sheathGroup ∨
            binOf s.clock.spacing (e.distance - r.offset + q.offset) < q.anchor + 64 ∨
            q.len < binOf s.clock.spacing (e.distance - r.offset + q.offset) + 17) →
          u.sched.slots.find n = s.sched.slots.find n)) ∧
      ((∃ o, t.corr.find r.sheathGroup = some (.opened o) ∧
        o.openKind = (if e.kind = .brk then .brk else .bend) ∧ o.openDist = e.distance - r.offset ∧
        o.openedAt = s.clock.tod ∧ o.reported = true ∧ o.outstanding = [] ∧
        o.joined = [(s.line.id, ⟨o.openKind, some o.openDist⟩)] ∧
        o.expiry = s.clock.now + s.cfg.block.roundTimeout * 1000) ∨
       (∃ o, t.corr.find r.sheathGroup = some (.settled o) ∧
        o.openKind = (if e.kind = .brk then .brk else .bend) ∧ o.openDist = e.distance - r.offset ∧
        o.openedAt = s.clock.tod ∧ o.joined = [(s.line.id, ⟨o.openKind, some o.openDist⟩)] ∧
        o.expiry = s.clock.now + s.cfg.block.holdDown * 1000))

/-- BASELINE_WRITE_COMPLETE: the trace's levels stand in the span's cells, its directory entries are set, the span is
PRESENT and the sweep ends BASELINED with the comparison against the old fingerprint; RESUME_TIMER_EXPIRY: the suspended
sweep ends ABANDONED with its comparison part and fingerprint as they were. Both clear the EDGE latch they answer and
start the re-raise timer of a LEVEL span. Model's choices: no effect where the event cannot arise (log 3); all levels
are copied at the completion (log 8); the fields of a discarded accumulator slot (log 11); selection once, at the end of
the row (log 4). -/
def Obligations.BaselinesCompleteAndSweepsAreAbandoned : Prop :=
  ∀ s : State,
    (s.engine.ctx = none ∨ s.engine.state ≠ .storing → exec .baselineWriteComplete s = .next s) ∧
    (∀ (c : Ctx) (r : SpanRecord), s.engine.ctx = some c → s.engine.state = .storing →
      enabledRec s c.span = some r → ∃ t, exec .baselineWriteComplete s = .next t ∧
        fpOf t c.span = .present ∧ (∀ m, m ≠ c.span → fpOf t m = fpOf s m) ∧
        (∀ i, i < s.trace.entries.length →
          t.store.mem.find (4096 * (r.firstPage + i / 4096) + i % 4096) =
            some (s.trace.entries.getD i (2047, false)).1) ∧
        (∀ a, (∀ i, i < s.trace.entries.length → a ≠ 4096 * (r.firstPage + i / 4096) + i % 4096) →
          t.store.mem.find a = s.store.mem.find a) ∧
        (∀ o, o < (r.len + 4095) / 4096 → t.store.dir.find (r.firstPage + o) = some ⟨c.span, o, r.len⟩) ∧
        t.store.load = s.store.load ∧
        (∀ x, s.comp.results.find c.span = some x →
          ∃ y, t.comp.results.find c.span = some y ∧ y.missed = x.missed ∧
            y.latest = some ⟨.baselined, c.kind, c.level, s.clock.tod, s.acc.current.lit, c.darkLevel⟩ ∧
            y.comparison = (if s.comp.working = none then x.comparison else s.comp.working) ∧
            (c.kind = .baseline → y.held = x.held)) ∧
        (s.notices.fifo.length < 32 → ⟨.sweepDone c.span .baselined, s.clock.tod⟩ ∈ t.notices.fifo) ∧
        (∃ u, t = settleSelect u ∧ sweepEnded s u c ∧ u.claims = s.claims) ∧ alertAnswered s t c) ∧
    (s.sched.resumeExpiry = none ∨ s.sched.save = none → exec .resumeTimerExpiry s = .next s) ∧
    (∀ e, s.sched.resumeExpiry = some e → s.clock.now < e → exec .resumeTimerExpiry s = .next s) ∧
    (∀ e c, s.sched.resumeExpiry = some e → e ≤ s.clock.now → s.sched.save = some c →
      ∃ t, exec .resumeTimerExpiry s = .next t ∧ t.sched.save = none ∧ t.sched.resumeExpiry = none ∧
        t.acc.slot t.acc.saved = ⟨.none, 0, 0, 0, [], []⟩ ∧
        (∀ x, s.comp.results.find c.span = some x → t.comp.results.find c.span = some { x with
          latest := some ⟨.abandoned, c.kind, c.level, s.clock.tod, c.litDone, c.darkLevel⟩ }) ∧
        (s.notices.fifo.length < 32 → ⟨.sweepDone c.span .abandoned, s.clock.tod⟩ ∈ t.notices.fifo) ∧
        alertAnswered s t c ∧ t.store = s.store ∧ t.port = s.port)

/-- LASER_FAULT_REPORT sets LASER_FAULT with its code and notice from clear, ends a taken sweep that may still fire with
FAULT, releasing its claim with a RELEASE, gives up an untaken one with its claim, a resume going back to the save slot,
and leaves a sweep in STORING or in REDUCING after a full acquisition alone; it never changes a set flag.
LASER_FAULT_CONDITION_CLEARS changes the condition alone. Both only while AWAKE. Model's choices: no effect where the
event cannot arise (log 3); the engine before the corroboration unit (log 19); what remains of the stopped resume timer
(log 26). -/
def Obligations.LaserFaultsStopTheLaser : Prop :=
  ∀ (s : State) (code : LaserCode),
    (s.clock.state ≠ .awake → exec (.laserFaultReport code) s = .next s ∧
      exec .laserFaultConditionClears s = .next s) ∧
    (s.clock.state = .awake →
      exec .laserFaultConditionClears s = .next { s with engine := { s.engine with condition := false } } ∧
      ∃ t, exec (.laserFaultReport code) s = .next t ∧ t.engine.condition = true ∧
        (∀ old, s.engine.laserFault = some old → t.engine.laserFault = some old) ∧
        (s.engine.laserFault = none → t.engine.laserFault = some code ∧
          (s.notices.fifo.length < 32 →
            ⟨.laserFault ((engineSpan s).getD 0) code, s.clock.tod⟩ ∈ t.notices.fifo)) ∧
        (∀ c x, s.engine.ctx = some c → s.sched.selection = none →
          (s.engine.state ∈ [.preparing, .dark, .quick, .full] ∨
            (s.engine.state = .reducing ∧ c.quickOnly = true)) → s.comp.results.find c.span = some x →
          t.engine.ctx = none ∧ t.engine.state = .idle ∧
          t.comp.results.find c.span = some { x with
            latest := some ⟨.fault, c.kind, c.level, s.clock.tod, s.acc.current.lit, c.darkLevel⟩ } ∧
          (s.notices.fifo.length + (if s.engine.laserFault = none then 2 else 1) ≤ 32 →
            ⟨.sweepDone c.span .fault, s.clock.tod⟩ ∈ t.notices.fifo) ∧
          sweepEnded s t c ∧ claimReleased s t (lightGroupOf s c.span)) ∧
        (∀ c, s.engine.ctx = some c → s.sched.selection = some .save → resumeReturned s t c) ∧
        (∀ n, s.sched.selection ≠ none → engineSpan s = some n → claimGivenUp s t (lightGroupOf s n)) ∧
        (∀ n, s.sched.selection = some (.slot n) → s.engine.ctx = none →
          t.engine.state = .idle ∧ t.sched.selection = none ∧
          t.sched.slots = s.sched.slots.adjust n fun x => { x with selected := false }) ∧
        (∀ c, s.engine.ctx = some c → s.sched.selection = none →
          (s.engine.state = .storing ∨ (s.engine.state = .reducing ∧ c.quickOnly = false)) →
          t.engine.state = s.engine.state ∧ t.engine.ctx = some c ∧ t.comp = s.comp ∧ t.store = s.store) ∧
        (s.engine.ctx = none → s.sched.selection = none → t.engine = { s.engine with
          condition := true, laserFault := some (s.engine.laserFault.getD code) }))

/-! ## The rack line -/

/-- The line access states and an attempt's ends: IDLE_GAP and FRAME_START_HEARD (R133, R134), ARBITRATION_WON and
ARBITRATION_LOST (R134, R135, R138), FRAME_TRANSMITTED with the hold-off of a current CLAIM (R159) and the stale marks
(R168); the head of the queue is the frame of highest urgency, then of earliest age (R137). Model's choices: no effect
where the event cannot arise (log 3); IDLE_GAP in BUSY (log 14); frames returning to the queue (log 17, log 18). -/
def Obligations.LineAccessFollowsTheLine : Prop :=
  (∀ (q : List TxFrame) (f : TxFrame), queueHead q = some f → f ∈ q ∧
    ∀ g ∈ q, g.urgency < f.urgency ∨ (g.urgency = f.urgency ∧ f.age ≤ g.age)) ∧
  (∀ q : List TxFrame, queueHead q = none ↔ q = []) ∧
  ∀ s : State,
    (s.line.state ≠ .gap → s.line.state ≠ .busy → exec .idleGap s = .next s) ∧
    (s.line.state = .gap ∨ s.line.state = .busy →
      (s.line.queue = [] ∨ s.port.station = .isolated →
        exec .idleGap s = .next { s with line := { s.line with state := .idle } }) ∧
      (∀ f, queueHead s.line.queue = some f → s.port.station ≠ .isolated →
        exec .idleGap s = .next { s with line := { s.line with
          state := .arbitrating, attempt := some f, attemptDropped := false
          queue := s.line.queue.filter fun x => decide (x ≠ f)
          driving := Frame.lineBits ⟨f.urgency, s.line.id, f.body⟩ } })) ∧
    (s.line.state ∈ [.passive, .busy, .arbitrating, .sending] → exec .frameStartHeard s = .next s) ∧
    (s.line.state = .gap ∨ (s.line.state = .idle ∧ (s.line.queue = [] ∨ s.port.station = .isolated)) →
      exec .frameStartHeard s = .next { s with line := { s.line with state := .busy } }) ∧
    (∀ f, s.line.state = .idle → queueHead s.line.queue = some f → s.port.station ≠ .isolated →
      exec .frameStartHeard s = .next { s with line := { s.line with
        state := .arbitrating, attempt := some f, attemptDropped := false
        queue := s.line.queue.filter fun x => decide (x ≠ f)
        driving := Frame.lineBits ⟨f.urgency, s.line.id, f.body⟩ } }) ∧
    (s.line.state = .arbitrating →
      exec .arbitrationWon s = .next { s with line := { s.line with state := .sending } }) ∧
    (s.line.state ≠ .arbitrating → exec .arbitrationWon s = .next s ∧ exec .arbitrationLost s = .next s) ∧
    (∀ f, s.line.state = .arbitrating → s.line.attempt = some f →
      (s.line.attemptDropped = false → (∃ g ∈ s.line.queue, sameFrame g.body f.body = true) →
        exec .arbitrationLost s = .next { s with line := { s.line with
          state := .busy, attempt := none, driving := [] } }) ∧
      (s.line.attemptDropped = false → (∀ g ∈ s.line.queue, sameFrame g.body f.body = false) →
        (isClaimFrame f.body = false ∨ (claimFrames s.line.queue).length < 2) →
        exec .arbitrationLost s = .next { s with line := { s.line with
          state := .busy, attempt := none, driving := [], queue := insertByAge f s.line.queue } }) ∧
      (s.line.attemptDropped = true → ∃ t, exec .arbitrationLost s = .next t ∧
        t.line = { s.line with state := .busy, attempt := none, attemptDropped := false, driving := [] } ∧
        (∀ g l e, f.body = .claim g l → s.claims.find g = some e →
          t.claims.find g = some { e with stale := none }) ∧
        (claimGroup f.body = none → t.claims = s.claims) ∧
        t = { s with line := t.line, claims := t.claims })) ∧
    (s.line.state ≠ .sending → exec .frameTransmitted s = .next s) ∧
    (∀ f, s.line.state = .sending → s.line.attempt = some f →
      (((∀ g l, f.body ≠ .claim g l) ∨ (∃ g l, f.body = .claim g l ∧ s.claims.find g = none)) →
        exec .frameTransmitted s = .next { s with line := { s.line with
          state := .gap, attempt := none, attemptDropped := false, driving := [] } }) ∧
      (∀ g l e, f.body = .claim g l → s.claims.find g = some e →
        ∃ t, exec .frameTransmitted s = .next t ∧ t.line.state = .gap ∧ t.line.attempt = none ∧
          (∀ h, h ≠ g → t.claims.find h = s.claims.find h) ∧
          (∀ y, e = ⟨.claiming y none, none⟩ →
            t.claims.find g = some ⟨.claiming y (some (s.clock.now + s.cfg.block.holdOff)), none⟩ ∧
            t.line.queue = s.line.queue) ∧
          (∀ st y, e = ⟨st, some (.withdrawn, y)⟩ →
            t.claims.find g = some ⟨st, none⟩ ∧ t.line.queue = s.line.queue) ∧
          (∀ st y, e = ⟨st, some (.givenUp, y)⟩ → ownClaim st = true →
            t.claims.find g = some ⟨st, none⟩ ∧ t.line.queue = s.line.queue) ∧
          (∀ st y, e = ⟨st, some (.givenUp, y)⟩ → ownClaim st = false →
            t.claims.find g = some ⟨st, none⟩ ∧
            (s.port.station ≠ .isolated → ∃ x ∈ t.line.queue, x.urgency = y ∧ x.body = .release g y)) ∧
          t = { s with line := t.line, claims := t.claims }))

/-- READBACK_ERROR and FRAME_RECEIVED: bits that fail a check are dropped silently; a check-valid frame of another
station enters the inbox with its arrival, or sets the overrun flag when 8 are held; evidence of a duplicate id, by a
frame with the own id or by a read-back error, makes the station ISOLATED as R145 states, cuts a baseline write in
progress, ends a taken sweep ABORTED with its latest part and its SWEEP_DONE notice, and returns an untaken resume to
the save slot. Model's choices: no effect where the event cannot arise (log 3); how much a stopped baseline write had
copied is free (log 8); what remains of the stopped resume timer (log 26). -/
def Obligations.FramesArriveAndDuplicatesIsolate : Prop :=
  ∀ (s : State) (bits : List Bool),
    (s.line.state ≠ .busy → exec (.frameReceived bits) s = .next s) ∧
    (s.line.state = .busy → parseFrame bits = none →
      exec (.frameReceived bits) s = .next { s with line := { s.line with state := .gap } }) ∧
    (∀ f, s.line.state = .busy → parseFrame bits = some f → f.sender ≠ s.line.id →
      (s.line.inbox.length < 8 → exec (.frameReceived bits) s = .next { s with line := { s.line with
        state := .gap, inbox := s.line.inbox ++ [⟨f.sender, f.body, s.clock.tod, s.clock.now⟩] } }) ∧
      (8 ≤ s.line.inbox.length → exec (.frameReceived bits) s = .next { s with line := { s.line with
        state := .gap, overrun := true } })) ∧
    (∀ f, s.line.state = .busy → parseFrame bits = some f → f.sender = s.line.id →
      (s.port.station = .unconfigured ∨ s.port.station = .isolated) →
      exec (.frameReceived bits) s = .next { s with line := { s.line with state := .gap } }) ∧
    (s.line.state ≠ .sending ∨ s.port.station = .unconfigured ∨ s.port.station = .isolated →
      exec .readbackError s = .next s) ∧
    (∀ (i : Instr) (cause : DupCause) (g : LineState),
      ((∃ f, i = .frameReceived bits ∧ s.line.state = .busy ∧ parseFrame bits = some f ∧
          f.sender = s.line.id ∧ cause = .received ∧ g = .gap) ∨
        (i = .readbackError ∧ s.line.state = .sending ∧ cause = .readback ∧ g = .busy)) →
      s.port.station = .learning ∨ s.port.station = .running ∨ s.port.station = .halted → s.engineSound →
      Table.wf s.claims →
      ∃ t, exec i s = .next t ∧ t.port = { s.port with station := .isolated } ∧
        t.line = { s.line with dupId := true, attempt := none, attemptDropped := false, driving := [],
                               queue := [], state := g } ∧
        t.peers = { s.peers with presence := none, learning := none } ∧
        (s.notices.fifo.length < 32 → ⟨.dupId s.line.id cause, s.clock.tod⟩ ∈ t.notices.fifo) ∧
        atRest t.engine.state = true ∧ t.engine.ctx = none ∧ t.sched.selection = none ∧
        (∀ e ∈ t.claims, ownClaim e.2.state = false ∧ e.2.stale = none) ∧
        t.clock.state = (if s.clock.state = .dozing then .locking else s.clock.state) ∧
        (s.sched.selection = none → t.sched.save = s.sched.save ∧ t.sched.resumeExpiry = s.sched.resumeExpiry) ∧
        (∀ c, s.engine.ctx = some c → s.sched.selection = some .save → resumeReturned s t c) ∧
        (∀ c, s.engine.ctx = some c → s.sched.selection = none → sweepEnded s t c ∧
          (∀ x, s.comp.results.find c.span = some x → t.comp.results.find c.span = some { x with
            latest := some ⟨.aborted, c.kind, c.level, s.clock.tod, s.acc.current.lit, c.darkLevel⟩ }) ∧
          (s.notices.fifo.length + (if s.engine.state = .storing then 3 else 2) ≤ 32 →
            ⟨.sweepDone c.span .aborted, s.clock.tod⟩ ∈ t.notices.fifo)) ∧
        (s.engine.state ≠ .storing → t.store = s.store) ∧
        (∀ c r, s.engine.ctx = some c → s.sched.selection = none → s.engine.state = .storing →
          enabledRec s c.span = some r → writeWasCut s t c.span r ∧
          (s.notices.fifo.length < 31 → ⟨.fpLost c.span .writeCut, s.clock.tod⟩ ∈ t.notices.fifo)))

/-! ## Peers -/

/-- PRESENCE_DELIVERED creates or replaces the sender's entry, with JOINED, STATE_CHANGED and GROUPS_CHANGED in that
order, and leaves every other entry alone. A peer-table change makes the completion check of every OPEN record, and a
station added to a group hears the own BREAK or BEND again. Model's choices: no effect where the event cannot arise (log
3); declared groups are stored ascending (log 16). -/
def Obligations.PresenceUpdatesThePeerTable : Prop :=
  ∀ s : State,
    (s.line.inbox = [] → exec .presenceDelivered s = .next s) ∧
    (∀ f rest st gs, s.line.inbox = f :: rest → f.body = .presence st gs →
      ∃ t, exec .presenceDelivered s = .next t ∧
        t.peers.table.find f.sender = some ⟨f.arrivalTod, st, ascSet gs, f.arrival + 3500⟩ ∧
        (∀ y, y ≠ f.sender → t.peers.table.find y = s.peers.table.find y) ∧
        t.line.inbox = rest ∧ t.port = s.port ∧ t.sched.slots = s.sched.slots ∧ t.claims = s.claims ∧
        (∀ old, s.peers.table.find f.sender = some old → old.groups = ascSet gs → t.corr = s.corr) ∧
        (∀ h o, Table.wf s.corr → s.corr.find h = some (.opened o) →
          (∀ old, s.peers.table.find f.sender = some old → old.groups ≠ ascSet gs) →
          checkedForCompletion s t h o o.joined ∧
          (∀ k d, h ∈ gs → (∀ old, s.peers.table.find f.sender = some old → h ∉ old.groups) →
            o.joined.find s.line.id = some ⟨k, some d⟩ → k = .brk ∨ k = .bend → s.onLine →
            t.hasFrame 3 (.finding h k.code d))) ∧
        ((∀ h r, (h, CorrRecord.opened r) ∉ s.corr) →
          t.corr = s.corr ∧
          (s.peers.table.find f.sender = none →
            t.notices = (post s (.peerChange f.sender .joined)).notices) ∧
          (∀ old, s.peers.table.find f.sender = some old →
            (old.state = st → old.groups = ascSet gs → t.notices = s.notices) ∧
            (old.state ≠ st → old.groups = ascSet gs →
              t.notices = (post s (.peerChange f.sender .stateChanged)).notices) ∧
            (old.state = st → old.groups ≠ ascSet gs →
              t.notices = (post s (.peerChange f.sender .groupsChanged)).notices) ∧
            (old.state ≠ st → old.groups ≠ ascSet gs →
              t.notices = (post (post s (.peerChange f.sender .stateChanged))
                (.peerChange f.sender .groupsChanged)).notices))) ∧
        t = { s with peers := t.peers, line := t.line, notices := t.notices, corr := t.corr, clock := t.clock })

/-- PRESENCE_TIMER_EXPIRY offers a PRESENCE and restarts the timer at 1 s; LEARNING_TIMER_EXPIRY makes a LEARNING
station RUNNING and leaves any other station state; AGE_TIMER_EXPIRY removes the entry with its AGED_OUT notice, and
makes the completion check of every OPEN record. Before their expiry nothing changes. Model's choices: no effect where
the event cannot arise (log 3); selection once, at the end of the row (log 4). -/
def Obligations.PeerTimersExpire : Prop :=
  (∀ s : State,
    (s.peers.presence = none → exec .presenceTimerExpiry s = .next s) ∧
    (s.peers.learning = none → exec .learningTimerExpiry s = .next s) ∧
    (∀ e, s.peers.presence = some e → s.clock.now < e → exec .presenceTimerExpiry s = .next s) ∧
    (∀ e, s.peers.learning = some e → s.clock.now < e → exec .learningTimerExpiry s = .next s) ∧
    (∀ e, s.peers.presence = some e → e ≤ s.clock.now → s.port.station ≠ .isolated →
      ∃ t, exec .presenceTimerExpiry s = .next t ∧
        t.peers = { s.peers with presence := some (s.clock.now + 1000) } ∧
        (s.line.state ≠ .passive → s.line.state ≠ .idle →
          ∃ f ∈ t.line.queue, f.urgency = 0 ∧ f.body = .presence (presenceState s) s.cfg.sheathGroups) ∧
        t = { s with peers := t.peers, line := t.line }) ∧
    (∀ e, s.peers.learning = some e → e ≤ s.clock.now →
      (s.port.station ≠ .learning →
        exec .learningTimerExpiry s = .next { s with peers := { s.peers with learning := none } }) ∧
      (s.port.station = .learning → ∃ t, exec .learningTimerExpiry s = .next t ∧
        t.port = { s.port with station := .running } ∧
        t.peers = { s.peers with learning := none, presence := some (s.clock.now + 1000) } ∧
        (s.line.state ≠ .passive → s.line.state ≠ .idle → s.clock.state = .awake → s.engine.state ≠ .idle →
          ∃ f ∈ t.line.queue, f.urgency = 0 ∧ f.body = .presence .running s.cfg.sheathGroups)) ∧
      (s.port.station = .learning → s.clock.state ≠ .dozing →
        ∃ u, exec .learningTimerExpiry s = .next (settleSelect u) ∧
          (s.line.state ≠ .passive → u.hasFrame 0 (.presence .running s.cfg.sheathGroups)) ∧
          u = { s with port := { s.port with station := .running }
                       peers := { s.peers with learning := none, presence := some (s.clock.now + 1000) }
                       line := u.line }))) ∧
  (∀ (s : State) (x : Nat),
    (s.peers.table.find x = none → exec (.ageTimerExpiry x) s = .next s) ∧
    (∀ p, s.peers.table.find x = some p → s.clock.now < p.ageExpiry → exec (.ageTimerExpiry x) s = .next s) ∧
    (∀ p, s.peers.table.find x = some p → p.ageExpiry ≤ s.clock.now →
      ∃ t, exec (.ageTimerExpiry x) s = .next t ∧
        t.peers.table.find x = none ∧ (∀ y, y ≠ x → t.peers.table.find y = s.peers.table.find y) ∧
        (s.notices.fifo.length < 32 → ⟨.peerChange x .agedOut, s.clock.tod⟩ ∈ t.notices.fifo) ∧
        (∀ h o, Table.wf s.corr → s.corr.find h = some (.opened o) → checkedForCompletion s t h o o.joined) ∧
        ((∀ h r, (h, CorrRecord.opened r) ∉ s.corr) →
          t.corr = s.corr ∧ t.notices = (post s (.peerChange x .agedOut)).notices) ∧
        t = { s with peers := t.peers, line := t.line, notices := t.notices, corr := t.corr,
                     clock := t.clock }))

/-! ## Claims -/

/-- The tie rule names one winner; CLAIM_DELIVERED and HOLD_DELIVERED: a FREE or HELD entry becomes HELD by the sender,
a CLAIMING entry yields to a winning CLAIM and to any HOLD, with the mark WITHDRAWN for a CLAIM in an attempt, the
request going back to waiting and a resume to the save slot, then the selection, an OPEN entry answers any CLAIM with
HOLD and yields to a winning HOLD with its sweep ending DISTURBED, during the last lit shot with or without that shot; a
frame for another group only refreshes its sender. Model's choices: whether a conflict during the last lit shot finds it
ended is free (log 31); selection once, at the end of the row (log 4); what remains of the stopped resume timer (log
26). -/
def Obligations.ClaimsAreContestedByTheTieRule : Prop :=
  (∀ own x lx ly : Nat, peerWins own x lx ly = true ↔ ly < lx ∨ (lx = ly ∧ x < own)) ∧
  (∀ own x lx ly : Nat, own ≠ x → peerWins own x lx ly = !peerWins x own ly lx) ∧
  ∀ (s : State) (f : RxFrame) (rest : List RxFrame) (g l : Nat), s.line.inbox = f :: rest →
    (∀ i : Instr, (i = .claimDelivered ∧ f.body = .claim g l) ∨ (i = .holdDelivered ∧ f.body = .hold g l) →
      (s.claims.find g = none → exec i s = .next { s with
        line := { s.line with inbox := rest }
        peers := { s.peers with table := s.peers.table.adjust f.sender fun p =>
          { p with lastHeard := f.arrivalTod, ageExpiry := f.arrival + 3500 } } }) ∧
      (∀ e, s.claims.find g = some e → ownClaim e.state = false → s.occupied →
        ∃ t, exec i s = .next t ∧
          t.claims.find g = some { e with
            state := .held f.sender l (f.arrival + s.cfg.block.claimLifetime * 1000) } ∧
          (∀ h, h ≠ g → t.claims.find h = s.claims.find h) ∧ t.line = { s.line with inbox := rest } ∧
          t = { stopDoze s with claims := t.claims, line := t.line, peers := t.peers }) ∧
      (∀ e, s.claims.find g = some e → ownClaim e.state = false → exec i s = .next (settle { s with
        line := { s.line with inbox := rest }
        peers := { s.peers with table := s.peers.table.adjust f.sender fun p =>
          { p with lastHeard := f.arrivalTod, ageExpiry := f.arrival + 3500 } }
        claims := s.claims.adjust g fun x => { x with
          state := .held f.sender l (f.arrival + s.cfg.block.claimLifetime * 1000) } })) ∧
      (∀ y ho m n r, s.claims.find g = some ⟨.claiming y ho, m⟩ →
        (i = .holdDelivered ∨ peerWins s.line.id f.sender l y = true) →
        s.sched.selection = some (.slot n) → lightGroupOf s n = g → g ≠ 0 → s.sched.slots.find n = some r →
        ∃ t k, exec i s = .next t ∧ markedWithdrawn s g m k ∧
          t.claims.find g = some ⟨.held f.sender l (f.arrival + s.cfg.block.claimLifetime * 1000), k⟩ ∧
          (∃ u, t = settleSelect u ∧ u.engine.state = .idle ∧ u.engine.ctx = none ∧
            u.sched = { s.sched with
              slots := s.sched.slots.adjust n (fun x => { x with selected := false }), selection := none } ∧
            u.claims = s.claims.adjust g fun _ =>
              ⟨.held f.sender l (f.arrival + s.cfg.block.claimLifetime * 1000), k⟩) ∧
          t.sched.slots.find n = some { r with selected := false } ∧ t.sched.selection ≠ some (.slot n) ∧
          (∀ x ∈ t.line.queue, isClaimOf g x.body = false ∧ isHoldOf g x.body = false) ∧
          t.comp = s.comp ∧ t.notices = s.notices) ∧
      (∀ y ho m c, s.claims.find g = some ⟨.claiming y ho, m⟩ →
        (i = .holdDelivered ∨ peerWins s.line.id f.sender l y = true) →
        s.sched.selection = some .save → s.engine.ctx = some c → lightGroupOf s c.span = g →
        ∃ t u k, exec i s = .next t ∧ t = settleSelect u ∧ resumeReturned s u c ∧ markedWithdrawn s g m k ∧
          u.claims.find g = some ⟨.held f.sender l (f.arrival + s.cfg.block.claimLifetime * 1000), k⟩ ∧
          (∀ h, h ≠ g → u.claims.find h = s.claims.find h) ∧
          (∀ x ∈ u.line.queue, isClaimOf g x.body = false ∧ isHoldOf g x.body = false) ∧
          u.comp = s.comp ∧ u.notices = s.notices)) ∧
    (∀ y ho m, f.body = .claim g l → s.claims.find g = some ⟨.claiming y ho, m⟩ →
      peerWins s.line.id f.sender l y = false → ∃ t, exec .claimDelivered s = .next t ∧
        t.claims = s.claims ∧ t.engine = s.engine ∧ t.sched = s.sched ∧
        (s.line.state ≠ .idle → s.line.state ≠ .passive → s.port.station ≠ .isolated →
          ∃ x ∈ t.line.queue, y ≤ x.urgency ∧ (x.body = .hold g y ∨ isClaimOf g x.body = true))) ∧
    (∀ y nx m, f.body = .claim g l → s.claims.find g = some ⟨.opened y nx, m⟩ →
      ∃ t, exec .claimDelivered s = .next t ∧
        t.claims = s.claims ∧ t.engine = s.engine ∧ t.sched = s.sched ∧
        (s.line.state ≠ .idle → s.line.state ≠ .passive → s.port.station ≠ .isolated →
          ∃ x ∈ t.line.queue, y ≤ x.urgency ∧ (x.body = .hold g y ∨ isClaimOf g x.body = true))) ∧
    (∀ y nx m, f.body = .hold g l → s.claims.find g = some ⟨.opened y nx, m⟩ →
      (peerWins s.line.id f.sender l y = false → ∃ t, exec .holdDelivered s = .next t ∧
        t.claims = s.claims ∧ t.engine = s.engine ∧ t.sched = s.sched ∧
        (s.line.state ≠ .idle → s.line.state ≠ .passive → s.port.station ≠ .isolated →
          ∃ x ∈ t.line.queue, y ≤ x.urgency ∧ (x.body = .hold g y ∨ isClaimOf g x.body = true))) ∧
      (∀ c x, peerWins s.line.id f.sender l y = true → s.engine.ctx = some c → s.sched.selection = none →
        lightGroupOf s c.span = g → s.engine.state ≠ .storing → s.comp.results.find c.span = some x →
        ∃ t lit, exec .holdDelivered s = .next t ∧
          t.claims.find g = some ⟨.held f.sender l (f.arrival + s.cfg.block.claimLifetime * 1000), m⟩ ∧
          t.comp.results.find c.span = some { x with
            latest := some ⟨.disturbed, c.kind, c.level, s.clock.tod, lit, c.darkLevel⟩ } ∧
          (lit = s.acc.current.lit ∨ (lit = s.acc.current.lit + 1 ∧ s.engine.state = .full ∧
            c.interleavedDue = false ∧ ∃ r, enabledRec s c.span = some r ∧ c.litDone + 1 = 2 ^ r.shots)) ∧
          (s.notices.fifo.length < 32 → ⟨.sweepDone c.span .disturbed, s.clock.tod⟩ ∈ t.notices.fifo) ∧
          (∃ u, t = settleSelect u ∧ sweepEnded s u c) ∧ alertAnswered s t c ∧
          t.store = s.store))

/-- RELEASE_DELIVERED frees an entry HELD by its sender and nothing else; HELD_EXPIRY frees a HELD entry at its expiry;
a freed entry is an occasion for selection. Model's choices: no effect where the event cannot arise (log 3); selection
once, at the end of the row (log 4). -/
def Obligations.HeldEntriesAreFreed : Prop :=
  ∀ (s : State) (g : Nat),
    (∀ f rest l, s.line.inbox = f :: rest → f.body = .release g l →
      ((∀ lv e m, s.claims.find g ≠ some ⟨.held f.sender lv e, m⟩) →
        exec .releaseDelivered s = .next { s with
          line := { s.line with inbox := rest }
          peers := { s.peers with table := s.peers.table.adjust f.sender fun p =>
            { p with lastHeard := f.arrivalTod, ageExpiry := f.arrival + 3500 } } }) ∧
      (∀ lv e m, s.claims.find g = some ⟨.held f.sender lv e, m⟩ → s.occupied →
        exec .releaseDelivered s = .next { stopDoze s with
          line := { s.line with inbox := rest }
          peers := { s.peers with table := s.peers.table.adjust f.sender fun p =>
            { p with lastHeard := f.arrivalTod, ageExpiry := f.arrival + 3500 } }
          claims := s.claims.adjust g fun x => { x with state := .free } }) ∧
      (∀ lv e m, s.claims.find g = some ⟨.held f.sender lv e, m⟩ →
        exec .releaseDelivered s = .next (settleSelect { s with
          line := { s.line with inbox := rest }
          peers := { s.peers with table := s.peers.table.adjust f.sender fun p =>
            { p with lastHeard := f.arrivalTod, ageExpiry := f.arrival + 3500 } }
          claims := s.claims.adjust g fun x => { x with state := .free } }))) ∧
    (∀ x lv e m, s.claims.find g = some ⟨.held x lv e, m⟩ →
      (s.clock.now < e → exec (.heldExpiry g) s = .next s) ∧
      (e ≤ s.clock.now → exec (.heldExpiry g) s =
        .next (settleSelect { s with claims := s.claims.adjust g fun x => { x with state := .free } })) ∧
      (e ≤ s.clock.now → s.occupied → exec (.heldExpiry g) s =
        .next { stopDoze s with claims := s.claims.adjust g fun x => { x with state := .free } })) ∧
    ((∀ x lv e m, s.claims.find g ≠ some ⟨.held x lv e, m⟩) → exec (.heldExpiry g) s = .next s)

/-- HOLD_OFF_EXPIRY: the CLAIMING entry becomes OPEN with the next HOLD a quarter lifetime after the expiry, and the
selected request is taken, or the resume counts as taken; HOLD_REPETITION: a HOLD at the own level, and the next HOLD
time advances by a quarter of the lifetime. Model's choices: no effect where the event cannot arise (log 3). -/
def Obligations.ClaimsOpenAndRepeatHolds : Prop :=
  ∀ (s : State) (g : Nat),
    ((∀ y e m, s.claims.find g ≠ some ⟨.claiming y (some e), m⟩) → exec (.holdOffExpiry g) s = .next s) ∧
    ((∀ y e m, s.claims.find g ≠ some ⟨.opened y e, m⟩) → exec (.holdRepetition g) s = .next s) ∧
    (∀ y e m, s.claims.find g = some ⟨.claiming y (some e), m⟩ →
      (s.clock.now < e → exec (.holdOffExpiry g) s = .next s) ∧
      (∀ n r rec, e ≤ s.clock.now → s.sched.selection = some (.slot n) → s.sched.slots.find n = some r →
        enabledRec s n = some rec → rec.lightGroup = g → s.engine.state = .preparing →
        ∃ t, exec (.holdOffExpiry g) s = .next t ∧
          t.claims.find g = some ⟨.opened y (e + s.cfg.block.claimLifetime * 250), m⟩ ∧
          (∀ h, h ≠ g → t.claims.find h = s.claims.find h) ∧
          t.sched = { s.sched with slots := s.sched.slots.erase n, selection := none } ∧
          t.engine.state = (if s.switch = .settled n then .dark else .preparing) ∧
          (∃ c, t.engine.ctx = some c ∧ c.span = n ∧ c.kind = r.kind ∧ c.level = r.level ∧
            c.window = (if r.windowed then r.target.map (confirmWindow rec.len) else none) ∧
            c.litDone = 0 ∧ c.darkLevel = none ∧ c.disturbed = 0 ∧ c.resumed = false ∧
            c.quickOnly = (decide (r.kind ∈ [.routine, .host, .alert]) && decide (fpOf s n = .present))) ∧
          t = { s with claims := t.claims, sched := t.sched, engine := t.engine, acc := t.acc }) ∧
      (∀ c, e ≤ s.clock.now → s.sched.selection = some .save → s.engine.ctx = some c → c.resumed = true →
        lightGroupOf s c.span = g → s.engine.state = .preparing →
        ∃ t, exec (.holdOffExpiry g) s = .next t ∧
          t.claims.find g = some ⟨.opened y (e + s.cfg.block.claimLifetime * 250), m⟩ ∧
          t.sched = { s.sched with selection := none } ∧
          t.engine = { s.engine with
            state := if s.switch = .settled c.span then .full else .preparing
            ctx := some { c with phase := if s.switch = .settled c.span then .full else c.phase } } ∧
          t = { s with claims := t.claims, sched := t.sched, engine := t.engine })) ∧
    (∀ y e m, s.claims.find g = some ⟨.opened y e, m⟩ →
      (s.clock.now < e → exec (.holdRepetition g) s = .next s) ∧
      (e ≤ s.clock.now → ∃ t, exec (.holdRepetition g) s = .next t ∧
        t.claims.find g = some ⟨.opened y (e + s.cfg.block.claimLifetime * 250), m⟩ ∧
        (∀ h, h ≠ g → t.claims.find h = s.claims.find h) ∧
        (s.line.state ≠ .idle → s.line.state ≠ .passive → s.port.station ≠ .isolated →
          ∃ x ∈ t.line.queue, y ≤ x.urgency ∧ (x.body = .hold g y ∨ isClaimOf g x.body = true)) ∧
        t = { s with claims := t.claims, line := t.line }))

/-! ## Corroboration -/

/-- FINDING_DELIVERED: ignored for a group of no record, a SETTLED record, an IDLE record that hears no fault, and a
kind or distance out of range; an OPEN record joins the sender, and completes with its verdict when the whole exists set
has joined; a BREAK or BEND heard by an IDLE record opens the round, at once with the own report OUT_OF_SERVICE when the
station cannot sweep, or OUT_OF_RANGE when no enabled span of the group has its target in range; else the CONFIRM of
every such span is raised, filling its slot or merged there, and the selection follows. Model's choices: selection once,
at the end of the row (log 4); the wake before the other steps of an opening (log 21); the mark of a round whose spans
are all out of range (log 26). -/
def Obligations.HeardFindingsJoinAndOpenRounds : Prop :=
  ∀ (s : State) (f : RxFrame) (rest : List RxFrame) (h k d : Nat), s.line.inbox = f :: rest →
    f.body = .finding h k d →
    ((k = 0 ∨ 5 < k ∨ ((k = 1 ∨ k = 2) ∧ 350821 < d)) → exec .findingDelivered s = .next { s with
      line := { s.line with inbox := rest }
      peers := { s.peers with table := s.peers.table.adjust f.sender fun p =>
        { p with lastHeard := f.arrivalTod, ageExpiry := f.arrival + 3500 } } }) ∧
    ((s.corr.find h = none ∨ (∃ o, s.corr.find h = some (.settled o)) ∨
        (s.corr.find h = some .idle ∧ k ∈ [3, 4, 5])) → s.occupied →
      exec .findingDelivered s = .next
        (if k = 0 ∨ 5 < k ∨ ((k = 1 ∨ k = 2) ∧ 350821 < d) then { s with
          line := { s.line with inbox := rest }
          peers := { s.peers with table := s.peers.table.adjust f.sender fun p =>
            { p with lastHeard := f.arrivalTod, ageExpiry := f.arrival + 3500 } } }
        else { stopDoze s with
          line := { s.line with inbox := rest }
          peers := { s.peers with table := s.peers.table.adjust f.sender fun p =>
            { p with lastHeard := f.arrivalTod, ageExpiry := f.arrival + 3500 } } })) ∧
    ((s.corr.find h = none ∨ (∃ o, s.corr.find h = some (.settled o)) ∨
        (s.corr.find h = some .idle ∧ k ∈ [3, 4, 5])) →
      1 ≤ k → k ≤ 5 → ((k = 1 ∨ k = 2) → d ≤ 350821) → exec .findingDelivered s = .next (settleSelect { s with
        line := { s.line with inbox := rest }
        peers := { s.peers with table := s.peers.table.adjust f.sender fun p =>
          { p with lastHeard := f.arrivalTod, ageExpiry := f.arrival + 3500 } } })) ∧
    (∀ o rep, s.corr.find h = some (.opened o) → reportOf k d = some rep →
      (∃ i, i ∈ existsSet s h ∧ i ≠ f.sender ∧ o.joined.find i = none) →
      ∃ t, exec .findingDelivered s = .next t ∧
        t.corr.find h = some (.opened { o with joined := o.joined.put f.sender rep }) ∧
        t.notices = s.notices) ∧
    (∀ o rep, s.corr.find h = some (.opened o) → reportOf k d = some rep →
      ∃ t, exec .findingDelivered s = .next t ∧
        checkedForCompletion s t h o (o.joined.put f.sender rep)) ∧
    (∀ kind, s.corr.find h = some .idle → ((k = 1 ∧ kind = .brk) ∨ (k = 2 ∧ kind = .bend)) → d ≤ 350821 →
      s.engine.laserFault ≠ none ∨ s.port.station = .halted ∨ s.port.station = .isolated → f.sender ≠ s.line.id →
      (∃ i, i ∈ existsSet s h ∧ i ≠ f.sender ∧ i ≠ s.line.id) →
      ∃ t, exec .findingDelivered s = .next t ∧
        t.corr.find h = some (.opened
          { openKind := kind, openDist := d, openedAt := s.clock.tod
            joined := Table.put [(f.sender, ⟨kind, some d⟩)] s.line.id ⟨.outOfService, none⟩
            outstanding := [], best := none, seen := false, reported := true
            expiry := s.clock.now + s.cfg.block.roundTimeout * 1000, allOut := false }) ∧
        t.sched.slots = s.sched.slots) ∧
    (∀ kind n r, s.corr.find h = some .idle → ((k = 1 ∧ kind = .brk) ∨ (k = 2 ∧ kind = .bend)) → d ≤ 350821 →
      s.engine.laserFault = none → s.port.station = .running ∨ s.port.station = .learning → s.occupied →
      f.sender ≠ s.line.id → Table.wf s.cfg.spans → (n, r) ∈ enabledSpans s → r.sheathGroup = h → n ∉ s.sched.off →
      r.anchor + 64 ≤ binOf s.clock.spacing (d + r.offset) →
      binOf s.clock.spacing (d + r.offset) + 17 ≤ r.len → s.sched.slots.find n = none →
      ∃ t o, exec .findingDelivered s = .next t ∧ t.corr.find h = some (.opened o) ∧ o.openKind = kind ∧
        o.openDist = d ∧ o.joined = [(f.sender, ⟨kind, some d⟩)] ∧ o.reported = false ∧
        o.outstanding.find n = some (binOf s.clock.spacing (d + r.offset)) ∧
        t.sched.slots.find n = some ⟨.confirm, 3, true, some (binOf s.clock.spacing (d + r.offset)), some h,
          s.clock.tod, false⟩) ∧
    (∀ kind, s.corr.find h = some .idle → ((k = 1 ∧ kind = .brk) ∨ (k = 2 ∧ kind = .bend)) → d ≤ 350821 →
      s.engine.laserFault = none → s.port.station = .running ∨ s.port.station = .learning →
      f.sender ≠ s.line.id → Table.wf s.cfg.spans →
      ((∀ n r, (n, r) ∈ enabledSpans s → r.sheathGroup = h → binOf s.clock.spacing (d + r.offset) < r.anchor + 64 ∨
          r.len < binOf s.clock.spacing (d + r.offset) + 17) →
        (∃ i, i ∈ existsSet s h ∧ i ≠ f.sender ∧ i ≠ s.line.id) →
        ∃ t, exec .findingDelivered s = .next t ∧ t.corr.find h = some (.opened
          { openKind := kind, openDist := d, openedAt := s.clock.tod
            joined := Table.put [(f.sender, ⟨kind, some d⟩)] s.line.id ⟨.outOfRange, none⟩
            outstanding := [], best := none, seen := false, reported := true
            expiry := s.clock.now + s.cfg.block.roundTimeout * 1000, allOut := true })) ∧
      ∀ n r b, (n, r) ∈ enabledSpans s → r.sheathGroup = h → n ∉ s.sched.off →
        binOf s.clock.spacing (d + r.offset) = b → r.anchor + 64 ≤ b → b + 17 ≤ r.len →
        ∃ u o, exec .findingDelivered s = .next (settleSelect u) ∧ u.corr.find h = some (.opened o) ∧
          o.openKind = kind ∧ o.openDist = d ∧ o.openedAt = s.clock.tod ∧ o.joined = [(f.sender, ⟨kind, some d⟩)] ∧
          o.reported = false ∧ o.allOut = false ∧ o.expiry = s.clock.now + s.cfg.block.roundTimeout * 1000 ∧
          o.outstanding.find n = some b ∧ u.engine = s.engine ∧
          u.clock.state = (if s.clock.state = .dozing then .locking else s.clock.state) ∧
          (s.sched.slots.find n = none →
            u.sched.slots.find n = some ⟨.confirm, 3, true, some b, some h, s.clock.tod, false⟩) ∧
          (∀ old, s.sched.slots.find n = some old → ∃ m : Request, u.sched.slots.find n = some m ∧
            m.kind = .confirm ∧ m.level = max old.level 3 ∧ m.target = some b ∧ m.round = some h ∧
            m.selected = old.selected ∧
            (m.windowed = true ↔ old.kind = .baseline ∨ (old.kind = .confirm ∧ old.windowed = true))))

/-- ROUND_TIMER_EXPIRY issues the verdict with the PARTIAL flag: F and G count the joined faults within and beyond the
tolerance of the opening distance, SHEATH when F is 2 or more, and the record is SETTLED; HOLD_DOWN_EXPIRY makes it
IDLE. Model's choices: no effect where the event cannot arise (log 3). -/
def Obligations.RoundsEndWithAVerdict : Prop :=
  ∀ (s : State) (h : Nat),
    ((∀ o, s.corr.find h ≠ some (.opened o)) → exec (.roundTimerExpiry h) s = .next s) ∧
    ((∀ o, s.corr.find h ≠ some (.settled o)) → exec (.holdDownExpiry h) s = .next s) ∧
    (∀ o, s.corr.find h = some (.settled o) →
      (s.clock.now < o.expiry → exec (.holdDownExpiry h) s = .next s) ∧
      (o.expiry ≤ s.clock.now → exec (.holdDownExpiry h) s = .next { s with corr := s.corr.put h .idle })) ∧
    (∀ o, s.corr.find h = some (.opened o) →
      (s.clock.now < o.expiry → exec (.roundTimerExpiry h) s = .next s) ∧
      (∀ nF nG : Nat, o.expiry ≤ s.clock.now →
        (o.joined.filter fun e => decide ((e.2.kind = .brk ∨ e.2.kind = .bend) ∧ ∃ x, e.2.dist = some x ∧
          x ≤ o.openDist + s.cfg.block.tolerance ∧ o.openDist ≤ x + s.cfg.block.tolerance)).length = nF →
        (o.joined.filter fun e => decide ((e.2.kind = .brk ∨ e.2.kind = .bend) ∧ ∃ x, e.2.dist = some x ∧
          (o.openDist + s.cfg.block.tolerance < x ∨ x + s.cfg.block.tolerance < o.openDist))).length = nG →
        ∃ t, exec (.roundTimerExpiry h) s = .next t ∧
          t.corr = s.corr.put h (.settled ⟨o.openKind, o.openDist, o.openedAt, o.joined,
            s.clock.now + s.cfg.block.holdDown * 1000⟩) ∧
          t.notices = (post s (.verdict h (decide (2 ≤ nF)) nF nG true o.joined.keys
            (existsSet s h))).notices ∧
          t = settle { s with corr := t.corr, notices := t.notices } ∧
          (s.occupied → t = { stopDoze s with corr := t.corr, notices := t.notices })))

/-- The decisions on the outstanding spans make the own report: the end of a CONFIRM sweep whose round, span and target
match, with its comparison or without one, the withdrawal of a pending CONFIRM by SPAN-OFF, and the inability to sweep
that begins at HALT, at the setting of LASER_FAULT and at the entry to ISOLATED (there without a FINDING). A decided
span leaves the outstanding spans, a comparison's BREAKs and BENDs compete for the best own finding, and the last
decision makes the report that R181's table chooses; any other end leaves the record alone. Model's choices: own reports
of several records in ascending group order (log 35); the mark of a round whose spans are all out of range (log 26). -/
def Obligations.DecisionsMakeTheOwnReport : Prop :=
  (∀ (s : State) (c : Ctx) (r : SpanRecord) (o : OpenRound) (h tb : Nat) (best : Option Best),
    s.engine.ctx = some c → s.engine.state = .reducing → enabledRec s c.span = some r → s.trace.state = .valid →
    c.kind = .confirm → c.quickOnly = false → c.round = some h → c.target = some tb → Table.wf s.corr →
    s.corr.find h = some (.opened o) → (∀ b ∈ o.best, b.kind = .brk ∨ b.kind = .bend) →
    bestAmong o.openDist (o.best.toList ++ if c.refPresent then (compared s c r).events.filterMap fun e =>
      if e.kind = .brk then some ⟨.brk, e.distance - r.offset, c.span⟩
      else if e.kind = .bend then some ⟨.bend, e.distance - r.offset, c.span⟩ else none else []) best →
    ∃ t, exec .comparisonComplete s = .next t ∧
      (o.outstanding.find c.span ≠ some tb → t.corr.find h = some (.opened o)) ∧
      (o.outstanding.find c.span = some tb →
        (∀ n, n ≠ c.span → o.outstanding.find n ≠ none → t.corr.find h = some (.opened { o with
          outstanding := o.outstanding.erase c.span, seen := o.seen || c.refPresent, best := best })) ∧
        (∀ rep, (∀ n, n ≠ c.span → o.outstanding.find n = none) →
          chosenReport { o with seen := o.seen || c.refPresent, best := best } rep →
          reportMade s t h { o with outstanding := [], seen := o.seen || c.refPresent, best := best } rep))) ∧
  (∀ (s : State) (n h tb : Nat) (q : Request) (o : OpenRound), s.port.station ≠ .unconfigured → 1 ≤ n → n ≤ 48 →
    isEnabled s n = true → n ∉ s.sched.off → s.sched.slots.find n = some q → q.kind = .confirm →
    q.round = some h → q.target = some tb → Table.wf s.corr → s.corr.find h = some (.opened o) →
    o.outstanding.find n = some tb → ∃ t, exec (.spanOff n) s = .next t ∧
      (∀ m, m ≠ n → o.outstanding.find m ≠ none →
        t.corr.find h = some (.opened { o with outstanding := o.outstanding.erase n })) ∧
      (∀ rep, (∀ m, m ≠ n → o.outstanding.find m = none) → chosenReport o rep →
        reportMade s t h { o with outstanding := [] } rep)) ∧
  (∀ (s : State) (h : Nat) (o : OpenRound), s.port.station = .learning ∨ s.port.station = .running →
    Table.wf s.corr → s.corr.find h = some (.opened o) → ∃ t, exec .halt s = .next t ∧
      (o.reported = true → o.outstanding = [] → t.corr.find h = some (.opened o)) ∧
      (∀ rep, o.reported = false → o.allOut = false → chosenReport o rep →
        reportMade s t h { o with outstanding := [] } rep)) ∧
  (∀ (s : State) (code : LaserCode) (h : Nat) (o : OpenRound), s.clock.state = .awake →
    s.engine.laserFault = none → Table.wf s.corr → s.corr.find h = some (.opened o) →
    ∃ t, exec (.laserFaultReport code) s = .next t ∧
      (o.reported = true → o.outstanding = [] → t.corr.find h = some (.opened o)) ∧
      (∀ rep, o.reported = false → o.allOut = false → chosenReport o rep →
        reportMade s t h { o with outstanding := [] } rep)) ∧
  (∀ (s : State) (bits : List Bool) (i : Instr) (cause : DupCause) (h : Nat) (o : OpenRound),
    ((∃ f, i = .frameReceived bits ∧ s.line.state = .busy ∧ parseFrame bits = some f ∧ f.sender = s.line.id ∧
        cause = .received) ∨ (i = .readbackError ∧ s.line.state = .sending ∧ cause = .readback)) →
    s.port.station = .learning ∨ s.port.station = .running ∨ s.port.station = .halted →
    Table.wf s.corr → s.corr.find h = some (.opened o) → ∃ t, exec i s = .next t ∧
      (o.reported = true → o.outstanding = [] → t.corr.find h = some (.opened o)) ∧
      (∀ rep, o.reported = false → o.allOut = false → chosenReport o rep →
        checkedForCompletion (post s (.dupId s.line.id cause)) t h { o with outstanding := [], reported := true }
          (o.joined.put s.line.id rep)))

end
end

