-- ==== Sys2Proof/Laws/Compare.lean ====
section
/-! SUPPORT. What the comparator's scans do, as the relations of Safety.lean say it (R114 to R119). -/

namespace Sys2Proof.Machine

/-- S_i is the floor of the mean of eight departure values (R114). -/
theorem Problem.smooth_bounds (p : Problem) (off : Int) (i : Nat) :
    8 * p.smooth off i ≤ ((List.range 8).map fun k => p.departure off (i + k)).sum ∧
    ((List.range 8).map fun k => p.departure off (i + k)).sum < 8 * (p.smooth off i + 1) := by
  have h : p.smooth off i = (((List.range 8).map fun k => p.departure off (i + k)).sum).fdiv 8 := by
    simp [Problem.smooth, List.range_succ, List.foldl]; congr 1; omega
  rw [h, Int.fdiv_eq_ediv_of_nonneg _ (by decide)]
  omega

theorem Problem.isStart_iff (p : Problem) (off b : Int) (e : Nat) :
    p.isStart off b e = true ↔ departsAt p off b e := by
  simp [Problem.isStart, departsAt, and_assoc]

theorem Problem.findStart_eq_some (p : Problem) (off b : Int) (point e : Nat)
    (h : p.findStart off b point = some e) : firstDeparture p off b point e := by
  rw [Problem.findStart, List.find?_eq_some_iff_getElem] at h
  obtain ⟨he, i, hi, rfl, hlt⟩ := h
  simp only [List.length_range', List.getElem_range', Nat.one_mul] at hi hlt he ⊢
  refine ⟨by omega, (p.isStart_iff ..).1 he, fun x h1 h2 hx => ?_⟩
  have := hlt (x - point) (by omega)
  rw [show point + (x - point) = x by omega] at this
  simp [(p.isStart_iff off b x).2 hx] at this

theorem Problem.findStart_eq_none (p : Problem) (off b : Int) (point : Nat)
    (h : p.findStart off b point = none) (e : Nat) (he : point ≤ e) : ¬ departsAt p off b e := by
  intro hd
  rw [Problem.findStart, List.find?_eq_none] at h
  exact h e (by simp [List.mem_range'_1]; have := hd.1; omega) ((p.isStart_iff ..).2 hd)

/-- The count of R117, over the bins from m on. -/
theorem Problem.liveBins_eq (p : Problem) (m : Nat) : p.liveBins m = brightBins p m := by
  unfold Problem.liveBins brightBins
  rcases Nat.le_total m (p.last + 1) with h | h
  · have hr : List.range (p.last + 1) = List.range' 0 m ++ List.range' m (p.last + 1 - m) := by
      have := List.range'_append_1 (s := 0) (m := m) (n := p.last + 1 - m)
      rw [Nat.zero_add] at this
      rw [this, List.range_eq_range']
      congr 1; omega
    have h0 : (List.range' 0 m).filter (fun j => decide (m ≤ j) && decide (p.floorLevel < p.level j)) = [] :=
      List.filter_eq_nil_iff.2 fun j hj => by
        have := (List.mem_range'_1.1 hj).2
        simp [show ¬ m ≤ j by omega]
    rw [hr, List.filter_append, h0, List.nil_append]
    refine congrArg List.length (List.filter_congr fun j hj => ?_)
    simp [(List.mem_range'_1.1 hj).1]
  · rw [show p.last + 1 - m = 0 by omega]
    refine (List.length_eq_zero_iff.2 (List.filter_eq_nil_iff.2 fun j hj => ?_)).symm
    have := List.mem_range.1 hj
    simp [show ¬ m ≤ j by omega]

/-- With fuel for every bin beyond the scan point, the scan records what R115 to R117 say. -/
theorem Problem.scan_scanned (p : Problem) (off : Int) (fuel : Nat) (b : Int) (point : Nat)
    (hf : p.last + 1 ≤ fuel + point) :
    Scanned p off b point (p.scan off fuel b point).1 (p.scan off fuel b point).2 := by
  induction fuel generalizing b point with
  | zero => exact .over b point fun e he hd => by have := hd.1; omega
  | succ n ih =>
    unfold Problem.scan
    split
    · exact .over b point (p.findStart_eq_none off b point ‹_›)
    · rename_i e he
      have hs := p.findStart_eq_some off b point e he
      have hm : p.last + 1 ≤ n + (min (e + 12) (p.last - 7) + 1) := by
        have := hs.1; have := hs.2.1.1; omega
      dsimp only
      split
      · exact .gain b point e _ _ _ hs rfl ‹_› (ih _ _ hm)
      · split
        · split
          · exact .dark b point e _ hs rfl ‹_› (by rw [← p.liveBins_eq]; assumption)
          · exact .bend b point e _ _ _ hs rfl ‹_› (by rw [← p.liveBins_eq]; omega) (ih _ _ hm)
        · exact .passed b point e _ _ _ hs rfl (by omega) (by omega) (ih _ _ hm)

end Sys2Proof.Machine
end

