-- ==== Sys2Proof/Laws/State.lean ====
section
/-! SUPPORT. One lemma for each field that a record update leaves as it is, true by rfl; so no proof unfolds an update
to see what it kept. -/

namespace Sys2Proof.Machine

variable (s : State)

/-! ### answer -/

@[simp] theorem answer_pending (k : ReplyKind) (body : List Byte) : (answer s k body).pending = s.pending := rfl
@[simp] theorem answer_reference (k : ReplyKind) (body : List Byte) : (answer s k body).reference = s.reference := rfl
@[simp] theorem answer_cfg (k : ReplyKind) (body : List Byte) : (answer s k body).cfg = s.cfg := rfl
@[simp] theorem answer_clock (k : ReplyKind) (body : List Byte) : (answer s k body).clock = s.clock := rfl
@[simp] theorem answer_alerts (k : ReplyKind) (body : List Byte) : (answer s k body).alerts = s.alerts := rfl
@[simp] theorem answer_sched (k : ReplyKind) (body : List Byte) : (answer s k body).sched = s.sched := rfl
@[simp] theorem answer_engine (k : ReplyKind) (body : List Byte) : (answer s k body).engine = s.engine := rfl
@[simp] theorem answer_switch (k : ReplyKind) (body : List Byte) : (answer s k body).switch = s.switch := rfl
@[simp] theorem answer_acc (k : ReplyKind) (body : List Byte) : (answer s k body).acc = s.acc := rfl
@[simp] theorem answer_trace (k : ReplyKind) (body : List Byte) : (answer s k body).trace = s.trace := rfl
@[simp] theorem answer_comp (k : ReplyKind) (body : List Byte) : (answer s k body).comp = s.comp := rfl
@[simp] theorem answer_store (k : ReplyKind) (body : List Byte) : (answer s k body).store = s.store := rfl
@[simp] theorem answer_line (k : ReplyKind) (body : List Byte) : (answer s k body).line = s.line := rfl
@[simp] theorem answer_peers (k : ReplyKind) (body : List Byte) : (answer s k body).peers = s.peers := rfl
@[simp] theorem answer_claims (k : ReplyKind) (body : List Byte) : (answer s k body).claims = s.claims := rfl
@[simp] theorem answer_corr (k : ReplyKind) (body : List Byte) : (answer s k body).corr = s.corr := rfl
@[simp] theorem answer_notices (k : ReplyKind) (body : List Byte) : (answer s k body).notices = s.notices := rfl
@[simp] theorem answer_free (k : ReplyKind) (body : List Byte) : (answer s k body).free = s.free := rfl

/-! ### refuse -/

@[simp] theorem refuse_pending (k : ReplyKind) : (refuse s k).pending = s.pending := rfl
@[simp] theorem refuse_reference (k : ReplyKind) : (refuse s k).reference = s.reference := rfl
@[simp] theorem refuse_cfg (k : ReplyKind) : (refuse s k).cfg = s.cfg := rfl
@[simp] theorem refuse_clock (k : ReplyKind) : (refuse s k).clock = s.clock := rfl
@[simp] theorem refuse_alerts (k : ReplyKind) : (refuse s k).alerts = s.alerts := rfl
@[simp] theorem refuse_sched (k : ReplyKind) : (refuse s k).sched = s.sched := rfl
@[simp] theorem refuse_engine (k : ReplyKind) : (refuse s k).engine = s.engine := rfl
@[simp] theorem refuse_switch (k : ReplyKind) : (refuse s k).switch = s.switch := rfl
@[simp] theorem refuse_acc (k : ReplyKind) : (refuse s k).acc = s.acc := rfl
@[simp] theorem refuse_trace (k : ReplyKind) : (refuse s k).trace = s.trace := rfl
@[simp] theorem refuse_comp (k : ReplyKind) : (refuse s k).comp = s.comp := rfl
@[simp] theorem refuse_store (k : ReplyKind) : (refuse s k).store = s.store := rfl
@[simp] theorem refuse_line (k : ReplyKind) : (refuse s k).line = s.line := rfl
@[simp] theorem refuse_peers (k : ReplyKind) : (refuse s k).peers = s.peers := rfl
@[simp] theorem refuse_claims (k : ReplyKind) : (refuse s k).claims = s.claims := rfl
@[simp] theorem refuse_corr (k : ReplyKind) : (refuse s k).corr = s.corr := rfl
@[simp] theorem refuse_notices (k : ReplyKind) : (refuse s k).notices = s.notices := rfl
@[simp] theorem refuse_free (k : ReplyKind) : (refuse s k).free = s.free := rfl

/-! ### accept -/

@[simp] theorem accept_pending : (accept s).pending = s.pending := rfl
@[simp] theorem accept_reference : (accept s).reference = s.reference := rfl
@[simp] theorem accept_cfg : (accept s).cfg = s.cfg := rfl
@[simp] theorem accept_clock : (accept s).clock = s.clock := rfl
@[simp] theorem accept_alerts : (accept s).alerts = s.alerts := rfl
@[simp] theorem accept_sched : (accept s).sched = s.sched := rfl
@[simp] theorem accept_engine : (accept s).engine = s.engine := rfl
@[simp] theorem accept_switch : (accept s).switch = s.switch := rfl
@[simp] theorem accept_acc : (accept s).acc = s.acc := rfl
@[simp] theorem accept_trace : (accept s).trace = s.trace := rfl
@[simp] theorem accept_comp : (accept s).comp = s.comp := rfl
@[simp] theorem accept_store : (accept s).store = s.store := rfl
@[simp] theorem accept_line : (accept s).line = s.line := rfl
@[simp] theorem accept_peers : (accept s).peers = s.peers := rfl
@[simp] theorem accept_claims : (accept s).claims = s.claims := rfl
@[simp] theorem accept_corr : (accept s).corr = s.corr := rfl
@[simp] theorem accept_notices : (accept s).notices = s.notices := rfl
@[simp] theorem accept_free : (accept s).free = s.free := rfl

/-! ### askRemove -/

@[simp] theorem askRemove_pending (p : FrameBody → Bool) : (askRemove s p).pending = s.pending := rfl
@[simp] theorem askRemove_reference (p : FrameBody → Bool) : (askRemove s p).reference = s.reference := rfl
@[simp] theorem askRemove_port (p : FrameBody → Bool) : (askRemove s p).port = s.port := rfl
@[simp] theorem askRemove_cfg (p : FrameBody → Bool) : (askRemove s p).cfg = s.cfg := rfl
@[simp] theorem askRemove_clock (p : FrameBody → Bool) : (askRemove s p).clock = s.clock := rfl
@[simp] theorem askRemove_alerts (p : FrameBody → Bool) : (askRemove s p).alerts = s.alerts := rfl
@[simp] theorem askRemove_sched (p : FrameBody → Bool) : (askRemove s p).sched = s.sched := rfl
@[simp] theorem askRemove_engine (p : FrameBody → Bool) : (askRemove s p).engine = s.engine := rfl
@[simp] theorem askRemove_switch (p : FrameBody → Bool) : (askRemove s p).switch = s.switch := rfl
@[simp] theorem askRemove_acc (p : FrameBody → Bool) : (askRemove s p).acc = s.acc := rfl
@[simp] theorem askRemove_trace (p : FrameBody → Bool) : (askRemove s p).trace = s.trace := rfl
@[simp] theorem askRemove_comp (p : FrameBody → Bool) : (askRemove s p).comp = s.comp := rfl
@[simp] theorem askRemove_store (p : FrameBody → Bool) : (askRemove s p).store = s.store := rfl
@[simp] theorem askRemove_peers (p : FrameBody → Bool) : (askRemove s p).peers = s.peers := rfl
@[simp] theorem askRemove_claims (p : FrameBody → Bool) : (askRemove s p).claims = s.claims := rfl
@[simp] theorem askRemove_corr (p : FrameBody → Bool) : (askRemove s p).corr = s.corr := rfl
@[simp] theorem askRemove_notices (p : FrameBody → Bool) : (askRemove s p).notices = s.notices := rfl
@[simp] theorem askRemove_free (p : FrameBody → Bool) : (askRemove s p).free = s.free := rfl

/-! ### endAttempt -/

@[simp] theorem endAttempt_pending (st : LineState) : (endAttempt s st).pending = s.pending := rfl
@[simp] theorem endAttempt_reference (st : LineState) : (endAttempt s st).reference = s.reference := rfl
@[simp] theorem endAttempt_port (st : LineState) : (endAttempt s st).port = s.port := rfl
@[simp] theorem endAttempt_cfg (st : LineState) : (endAttempt s st).cfg = s.cfg := rfl
@[simp] theorem endAttempt_clock (st : LineState) : (endAttempt s st).clock = s.clock := rfl
@[simp] theorem endAttempt_alerts (st : LineState) : (endAttempt s st).alerts = s.alerts := rfl
@[simp] theorem endAttempt_sched (st : LineState) : (endAttempt s st).sched = s.sched := rfl
@[simp] theorem endAttempt_engine (st : LineState) : (endAttempt s st).engine = s.engine := rfl
@[simp] theorem endAttempt_switch (st : LineState) : (endAttempt s st).switch = s.switch := rfl
@[simp] theorem endAttempt_acc (st : LineState) : (endAttempt s st).acc = s.acc := rfl
@[simp] theorem endAttempt_trace (st : LineState) : (endAttempt s st).trace = s.trace := rfl
@[simp] theorem endAttempt_comp (st : LineState) : (endAttempt s st).comp = s.comp := rfl
@[simp] theorem endAttempt_store (st : LineState) : (endAttempt s st).store = s.store := rfl
@[simp] theorem endAttempt_peers (st : LineState) : (endAttempt s st).peers = s.peers := rfl
@[simp] theorem endAttempt_claims (st : LineState) : (endAttempt s st).claims = s.claims := rfl
@[simp] theorem endAttempt_corr (st : LineState) : (endAttempt s st).corr = s.corr := rfl
@[simp] theorem endAttempt_notices (st : LineState) : (endAttempt s st).notices = s.notices := rfl
@[simp] theorem endAttempt_free (st : LineState) : (endAttempt s st).free = s.free := rfl

/-! ### setLine -/

@[simp] theorem setLine_pending (st : LineState) : (setLine s st).pending = s.pending := rfl
@[simp] theorem setLine_reference (st : LineState) : (setLine s st).reference = s.reference := rfl
@[simp] theorem setLine_port (st : LineState) : (setLine s st).port = s.port := rfl
@[simp] theorem setLine_cfg (st : LineState) : (setLine s st).cfg = s.cfg := rfl
@[simp] theorem setLine_clock (st : LineState) : (setLine s st).clock = s.clock := rfl
@[simp] theorem setLine_alerts (st : LineState) : (setLine s st).alerts = s.alerts := rfl
@[simp] theorem setLine_sched (st : LineState) : (setLine s st).sched = s.sched := rfl
@[simp] theorem setLine_engine (st : LineState) : (setLine s st).engine = s.engine := rfl
@[simp] theorem setLine_switch (st : LineState) : (setLine s st).switch = s.switch := rfl
@[simp] theorem setLine_acc (st : LineState) : (setLine s st).acc = s.acc := rfl
@[simp] theorem setLine_trace (st : LineState) : (setLine s st).trace = s.trace := rfl
@[simp] theorem setLine_comp (st : LineState) : (setLine s st).comp = s.comp := rfl
@[simp] theorem setLine_store (st : LineState) : (setLine s st).store = s.store := rfl
@[simp] theorem setLine_peers (st : LineState) : (setLine s st).peers = s.peers := rfl
@[simp] theorem setLine_claims (st : LineState) : (setLine s st).claims = s.claims := rfl
@[simp] theorem setLine_corr (st : LineState) : (setLine s st).corr = s.corr := rfl
@[simp] theorem setLine_notices (st : LineState) : (setLine s st).notices = s.notices := rfl
@[simp] theorem setLine_free (st : LineState) : (setLine s st).free = s.free := rfl

/-! ### popInbox -/

@[simp] theorem popInbox_pending : (popInbox s).pending = s.pending := rfl
@[simp] theorem popInbox_reference : (popInbox s).reference = s.reference := rfl
@[simp] theorem popInbox_port : (popInbox s).port = s.port := rfl
@[simp] theorem popInbox_cfg : (popInbox s).cfg = s.cfg := rfl
@[simp] theorem popInbox_clock : (popInbox s).clock = s.clock := rfl
@[simp] theorem popInbox_alerts : (popInbox s).alerts = s.alerts := rfl
@[simp] theorem popInbox_sched : (popInbox s).sched = s.sched := rfl
@[simp] theorem popInbox_engine : (popInbox s).engine = s.engine := rfl
@[simp] theorem popInbox_switch : (popInbox s).switch = s.switch := rfl
@[simp] theorem popInbox_acc : (popInbox s).acc = s.acc := rfl
@[simp] theorem popInbox_trace : (popInbox s).trace = s.trace := rfl
@[simp] theorem popInbox_comp : (popInbox s).comp = s.comp := rfl
@[simp] theorem popInbox_store : (popInbox s).store = s.store := rfl
@[simp] theorem popInbox_peers : (popInbox s).peers = s.peers := rfl
@[simp] theorem popInbox_claims : (popInbox s).claims = s.claims := rfl
@[simp] theorem popInbox_corr : (popInbox s).corr = s.corr := rfl
@[simp] theorem popInbox_notices : (popInbox s).notices = s.notices := rfl
@[simp] theorem popInbox_free : (popInbox s).free = s.free := rfl

/-! ### stopDoze -/

@[simp] theorem stopDoze_pending : (stopDoze s).pending = s.pending := rfl
@[simp] theorem stopDoze_reference : (stopDoze s).reference = s.reference := rfl
@[simp] theorem stopDoze_port : (stopDoze s).port = s.port := rfl
@[simp] theorem stopDoze_cfg : (stopDoze s).cfg = s.cfg := rfl
@[simp] theorem stopDoze_alerts : (stopDoze s).alerts = s.alerts := rfl
@[simp] theorem stopDoze_sched : (stopDoze s).sched = s.sched := rfl
@[simp] theorem stopDoze_engine : (stopDoze s).engine = s.engine := rfl
@[simp] theorem stopDoze_switch : (stopDoze s).switch = s.switch := rfl
@[simp] theorem stopDoze_acc : (stopDoze s).acc = s.acc := rfl
@[simp] theorem stopDoze_trace : (stopDoze s).trace = s.trace := rfl
@[simp] theorem stopDoze_comp : (stopDoze s).comp = s.comp := rfl
@[simp] theorem stopDoze_store : (stopDoze s).store = s.store := rfl
@[simp] theorem stopDoze_line : (stopDoze s).line = s.line := rfl
@[simp] theorem stopDoze_peers : (stopDoze s).peers = s.peers := rfl
@[simp] theorem stopDoze_claims : (stopDoze s).claims = s.claims := rfl
@[simp] theorem stopDoze_corr : (stopDoze s).corr = s.corr := rfl
@[simp] theorem stopDoze_notices : (stopDoze s).notices = s.notices := rfl
@[simp] theorem stopDoze_free : (stopDoze s).free = s.free := rfl

/-! ### setPhase -/

@[simp] theorem setPhase_pending (p : Phase) : (setPhase s p).pending = s.pending := rfl
@[simp] theorem setPhase_reference (p : Phase) : (setPhase s p).reference = s.reference := rfl
@[simp] theorem setPhase_port (p : Phase) : (setPhase s p).port = s.port := rfl
@[simp] theorem setPhase_cfg (p : Phase) : (setPhase s p).cfg = s.cfg := rfl
@[simp] theorem setPhase_alerts (p : Phase) : (setPhase s p).alerts = s.alerts := rfl
@[simp] theorem setPhase_sched (p : Phase) : (setPhase s p).sched = s.sched := rfl
@[simp] theorem setPhase_engine (p : Phase) : (setPhase s p).engine = s.engine := rfl
@[simp] theorem setPhase_switch (p : Phase) : (setPhase s p).switch = s.switch := rfl
@[simp] theorem setPhase_acc (p : Phase) : (setPhase s p).acc = s.acc := rfl
@[simp] theorem setPhase_trace (p : Phase) : (setPhase s p).trace = s.trace := rfl
@[simp] theorem setPhase_comp (p : Phase) : (setPhase s p).comp = s.comp := rfl
@[simp] theorem setPhase_store (p : Phase) : (setPhase s p).store = s.store := rfl
@[simp] theorem setPhase_line (p : Phase) : (setPhase s p).line = s.line := rfl
@[simp] theorem setPhase_peers (p : Phase) : (setPhase s p).peers = s.peers := rfl
@[simp] theorem setPhase_claims (p : Phase) : (setPhase s p).claims = s.claims := rfl
@[simp] theorem setPhase_corr (p : Phase) : (setPhase s p).corr = s.corr := rfl
@[simp] theorem setPhase_notices (p : Phase) : (setPhase s p).notices = s.notices := rfl
@[simp] theorem setPhase_free (p : Phase) : (setPhase s p).free = s.free := rfl

/-! ### startClock -/

@[simp] theorem startClock_pending (tod : Nat) : (startClock s tod).pending = s.pending := rfl
@[simp] theorem startClock_reference (tod : Nat) : (startClock s tod).reference = s.reference := rfl
@[simp] theorem startClock_port (tod : Nat) : (startClock s tod).port = s.port := rfl
@[simp] theorem startClock_cfg (tod : Nat) : (startClock s tod).cfg = s.cfg := rfl
@[simp] theorem startClock_alerts (tod : Nat) : (startClock s tod).alerts = s.alerts := rfl
@[simp] theorem startClock_sched (tod : Nat) : (startClock s tod).sched = s.sched := rfl
@[simp] theorem startClock_engine (tod : Nat) : (startClock s tod).engine = s.engine := rfl
@[simp] theorem startClock_switch (tod : Nat) : (startClock s tod).switch = s.switch := rfl
@[simp] theorem startClock_acc (tod : Nat) : (startClock s tod).acc = s.acc := rfl
@[simp] theorem startClock_trace (tod : Nat) : (startClock s tod).trace = s.trace := rfl
@[simp] theorem startClock_comp (tod : Nat) : (startClock s tod).comp = s.comp := rfl
@[simp] theorem startClock_store (tod : Nat) : (startClock s tod).store = s.store := rfl
@[simp] theorem startClock_line (tod : Nat) : (startClock s tod).line = s.line := rfl
@[simp] theorem startClock_peers (tod : Nat) : (startClock s tod).peers = s.peers := rfl
@[simp] theorem startClock_claims (tod : Nat) : (startClock s tod).claims = s.claims := rfl
@[simp] theorem startClock_corr (tod : Nat) : (startClock s tod).corr = s.corr := rfl
@[simp] theorem startClock_notices (tod : Nat) : (startClock s tod).notices = s.notices := rfl
@[simp] theorem startClock_free (tod : Nat) : (startClock s tod).free = s.free := rfl

/-! ### adjustResult -/

@[simp] theorem adjustResult_pending (n : Nat) (f : ResultRecord → ResultRecord) : (adjustResult s n f).pending = s.pending := rfl
@[simp] theorem adjustResult_reference (n : Nat) (f : ResultRecord → ResultRecord) : (adjustResult s n f).reference = s.reference := rfl
@[simp] theorem adjustResult_port (n : Nat) (f : ResultRecord → ResultRecord) : (adjustResult s n f).port = s.port := rfl
@[simp] theorem adjustResult_cfg (n : Nat) (f : ResultRecord → ResultRecord) : (adjustResult s n f).cfg = s.cfg := rfl
@[simp] theorem adjustResult_clock (n : Nat) (f : ResultRecord → ResultRecord) : (adjustResult s n f).clock = s.clock := rfl
@[simp] theorem adjustResult_alerts (n : Nat) (f : ResultRecord → ResultRecord) : (adjustResult s n f).alerts = s.alerts := rfl
@[simp] theorem adjustResult_sched (n : Nat) (f : ResultRecord → ResultRecord) : (adjustResult s n f).sched = s.sched := rfl
@[simp] theorem adjustResult_engine (n : Nat) (f : ResultRecord → ResultRecord) : (adjustResult s n f).engine = s.engine := rfl
@[simp] theorem adjustResult_switch (n : Nat) (f : ResultRecord → ResultRecord) : (adjustResult s n f).switch = s.switch := rfl
@[simp] theorem adjustResult_acc (n : Nat) (f : ResultRecord → ResultRecord) : (adjustResult s n f).acc = s.acc := rfl
@[simp] theorem adjustResult_trace (n : Nat) (f : ResultRecord → ResultRecord) : (adjustResult s n f).trace = s.trace := rfl
@[simp] theorem adjustResult_store (n : Nat) (f : ResultRecord → ResultRecord) : (adjustResult s n f).store = s.store := rfl
@[simp] theorem adjustResult_line (n : Nat) (f : ResultRecord → ResultRecord) : (adjustResult s n f).line = s.line := rfl
@[simp] theorem adjustResult_peers (n : Nat) (f : ResultRecord → ResultRecord) : (adjustResult s n f).peers = s.peers := rfl
@[simp] theorem adjustResult_claims (n : Nat) (f : ResultRecord → ResultRecord) : (adjustResult s n f).claims = s.claims := rfl
@[simp] theorem adjustResult_corr (n : Nat) (f : ResultRecord → ResultRecord) : (adjustResult s n f).corr = s.corr := rfl
@[simp] theorem adjustResult_notices (n : Nat) (f : ResultRecord → ResultRecord) : (adjustResult s n f).notices = s.notices := rfl
@[simp] theorem adjustResult_free (n : Nat) (f : ResultRecord → ResultRecord) : (adjustResult s n f).free = s.free := rfl

/-! ### removeHeld -/

@[simp] theorem removeHeld_pending (n : Nat) : (removeHeld s n).pending = s.pending := rfl
@[simp] theorem removeHeld_reference (n : Nat) : (removeHeld s n).reference = s.reference := rfl
@[simp] theorem removeHeld_port (n : Nat) : (removeHeld s n).port = s.port := rfl
@[simp] theorem removeHeld_cfg (n : Nat) : (removeHeld s n).cfg = s.cfg := rfl
@[simp] theorem removeHeld_clock (n : Nat) : (removeHeld s n).clock = s.clock := rfl
@[simp] theorem removeHeld_alerts (n : Nat) : (removeHeld s n).alerts = s.alerts := rfl
@[simp] theorem removeHeld_sched (n : Nat) : (removeHeld s n).sched = s.sched := rfl
@[simp] theorem removeHeld_engine (n : Nat) : (removeHeld s n).engine = s.engine := rfl
@[simp] theorem removeHeld_switch (n : Nat) : (removeHeld s n).switch = s.switch := rfl
@[simp] theorem removeHeld_acc (n : Nat) : (removeHeld s n).acc = s.acc := rfl
@[simp] theorem removeHeld_trace (n : Nat) : (removeHeld s n).trace = s.trace := rfl
@[simp] theorem removeHeld_store (n : Nat) : (removeHeld s n).store = s.store := rfl
@[simp] theorem removeHeld_line (n : Nat) : (removeHeld s n).line = s.line := rfl
@[simp] theorem removeHeld_peers (n : Nat) : (removeHeld s n).peers = s.peers := rfl
@[simp] theorem removeHeld_claims (n : Nat) : (removeHeld s n).claims = s.claims := rfl
@[simp] theorem removeHeld_corr (n : Nat) : (removeHeld s n).corr = s.corr := rfl
@[simp] theorem removeHeld_notices (n : Nat) : (removeHeld s n).notices = s.notices := rfl
@[simp] theorem removeHeld_free (n : Nat) : (removeHeld s n).free = s.free := rfl

/-! ### keepWorking -/

@[simp] theorem keepWorking_pending (w : Comparison) : (keepWorking s w).pending = s.pending := rfl
@[simp] theorem keepWorking_reference (w : Comparison) : (keepWorking s w).reference = s.reference := rfl
@[simp] theorem keepWorking_port (w : Comparison) : (keepWorking s w).port = s.port := rfl
@[simp] theorem keepWorking_cfg (w : Comparison) : (keepWorking s w).cfg = s.cfg := rfl
@[simp] theorem keepWorking_clock (w : Comparison) : (keepWorking s w).clock = s.clock := rfl
@[simp] theorem keepWorking_alerts (w : Comparison) : (keepWorking s w).alerts = s.alerts := rfl
@[simp] theorem keepWorking_sched (w : Comparison) : (keepWorking s w).sched = s.sched := rfl
@[simp] theorem keepWorking_engine (w : Comparison) : (keepWorking s w).engine = s.engine := rfl
@[simp] theorem keepWorking_switch (w : Comparison) : (keepWorking s w).switch = s.switch := rfl
@[simp] theorem keepWorking_acc (w : Comparison) : (keepWorking s w).acc = s.acc := rfl
@[simp] theorem keepWorking_trace (w : Comparison) : (keepWorking s w).trace = s.trace := rfl
@[simp] theorem keepWorking_store (w : Comparison) : (keepWorking s w).store = s.store := rfl
@[simp] theorem keepWorking_line (w : Comparison) : (keepWorking s w).line = s.line := rfl
@[simp] theorem keepWorking_peers (w : Comparison) : (keepWorking s w).peers = s.peers := rfl
@[simp] theorem keepWorking_claims (w : Comparison) : (keepWorking s w).claims = s.claims := rfl
@[simp] theorem keepWorking_corr (w : Comparison) : (keepWorking s w).corr = s.corr := rfl
@[simp] theorem keepWorking_notices (w : Comparison) : (keepWorking s w).notices = s.notices := rfl
@[simp] theorem keepWorking_free (w : Comparison) : (keepWorking s w).free = s.free := rfl

/-! ### setFp -/

@[simp] theorem setFp_pending (n : Nat) (st : FpState) : (setFp s n st).pending = s.pending := rfl
@[simp] theorem setFp_reference (n : Nat) (st : FpState) : (setFp s n st).reference = s.reference := rfl
@[simp] theorem setFp_port (n : Nat) (st : FpState) : (setFp s n st).port = s.port := rfl
@[simp] theorem setFp_cfg (n : Nat) (st : FpState) : (setFp s n st).cfg = s.cfg := rfl
@[simp] theorem setFp_clock (n : Nat) (st : FpState) : (setFp s n st).clock = s.clock := rfl
@[simp] theorem setFp_alerts (n : Nat) (st : FpState) : (setFp s n st).alerts = s.alerts := rfl
@[simp] theorem setFp_sched (n : Nat) (st : FpState) : (setFp s n st).sched = s.sched := rfl
@[simp] theorem setFp_engine (n : Nat) (st : FpState) : (setFp s n st).engine = s.engine := rfl
@[simp] theorem setFp_switch (n : Nat) (st : FpState) : (setFp s n st).switch = s.switch := rfl
@[simp] theorem setFp_acc (n : Nat) (st : FpState) : (setFp s n st).acc = s.acc := rfl
@[simp] theorem setFp_trace (n : Nat) (st : FpState) : (setFp s n st).trace = s.trace := rfl
@[simp] theorem setFp_comp (n : Nat) (st : FpState) : (setFp s n st).comp = s.comp := rfl
@[simp] theorem setFp_line (n : Nat) (st : FpState) : (setFp s n st).line = s.line := rfl
@[simp] theorem setFp_peers (n : Nat) (st : FpState) : (setFp s n st).peers = s.peers := rfl
@[simp] theorem setFp_claims (n : Nat) (st : FpState) : (setFp s n st).claims = s.claims := rfl
@[simp] theorem setFp_corr (n : Nat) (st : FpState) : (setFp s n st).corr = s.corr := rfl
@[simp] theorem setFp_notices (n : Nat) (st : FpState) : (setFp s n st).notices = s.notices := rfl
@[simp] theorem setFp_free (n : Nat) (st : FpState) : (setFp s n st).free = s.free := rfl

/-! ### clearDir -/

@[simp] theorem clearDir_pending (n : Nat) : (clearDir s n).pending = s.pending := rfl
@[simp] theorem clearDir_reference (n : Nat) : (clearDir s n).reference = s.reference := rfl
@[simp] theorem clearDir_port (n : Nat) : (clearDir s n).port = s.port := rfl
@[simp] theorem clearDir_cfg (n : Nat) : (clearDir s n).cfg = s.cfg := rfl
@[simp] theorem clearDir_clock (n : Nat) : (clearDir s n).clock = s.clock := rfl
@[simp] theorem clearDir_alerts (n : Nat) : (clearDir s n).alerts = s.alerts := rfl
@[simp] theorem clearDir_sched (n : Nat) : (clearDir s n).sched = s.sched := rfl
@[simp] theorem clearDir_engine (n : Nat) : (clearDir s n).engine = s.engine := rfl
@[simp] theorem clearDir_switch (n : Nat) : (clearDir s n).switch = s.switch := rfl
@[simp] theorem clearDir_acc (n : Nat) : (clearDir s n).acc = s.acc := rfl
@[simp] theorem clearDir_trace (n : Nat) : (clearDir s n).trace = s.trace := rfl
@[simp] theorem clearDir_comp (n : Nat) : (clearDir s n).comp = s.comp := rfl
@[simp] theorem clearDir_line (n : Nat) : (clearDir s n).line = s.line := rfl
@[simp] theorem clearDir_peers (n : Nat) : (clearDir s n).peers = s.peers := rfl
@[simp] theorem clearDir_claims (n : Nat) : (clearDir s n).claims = s.claims := rfl
@[simp] theorem clearDir_corr (n : Nat) : (clearDir s n).corr = s.corr := rfl
@[simp] theorem clearDir_notices (n : Nat) : (clearDir s n).notices = s.notices := rfl
@[simp] theorem clearDir_free (n : Nat) : (clearDir s n).free = s.free := rfl

/-! ### setDir -/

@[simp] theorem setDir_pending (n : Nat) (r : SpanRecord) : (setDir s n r).pending = s.pending := rfl
@[simp] theorem setDir_reference (n : Nat) (r : SpanRecord) : (setDir s n r).reference = s.reference := rfl
@[simp] theorem setDir_port (n : Nat) (r : SpanRecord) : (setDir s n r).port = s.port := rfl
@[simp] theorem setDir_cfg (n : Nat) (r : SpanRecord) : (setDir s n r).cfg = s.cfg := rfl
@[simp] theorem setDir_clock (n : Nat) (r : SpanRecord) : (setDir s n r).clock = s.clock := rfl
@[simp] theorem setDir_alerts (n : Nat) (r : SpanRecord) : (setDir s n r).alerts = s.alerts := rfl
@[simp] theorem setDir_sched (n : Nat) (r : SpanRecord) : (setDir s n r).sched = s.sched := rfl
@[simp] theorem setDir_engine (n : Nat) (r : SpanRecord) : (setDir s n r).engine = s.engine := rfl
@[simp] theorem setDir_switch (n : Nat) (r : SpanRecord) : (setDir s n r).switch = s.switch := rfl
@[simp] theorem setDir_acc (n : Nat) (r : SpanRecord) : (setDir s n r).acc = s.acc := rfl
@[simp] theorem setDir_trace (n : Nat) (r : SpanRecord) : (setDir s n r).trace = s.trace := rfl
@[simp] theorem setDir_comp (n : Nat) (r : SpanRecord) : (setDir s n r).comp = s.comp := rfl
@[simp] theorem setDir_line (n : Nat) (r : SpanRecord) : (setDir s n r).line = s.line := rfl
@[simp] theorem setDir_peers (n : Nat) (r : SpanRecord) : (setDir s n r).peers = s.peers := rfl
@[simp] theorem setDir_claims (n : Nat) (r : SpanRecord) : (setDir s n r).claims = s.claims := rfl
@[simp] theorem setDir_corr (n : Nat) (r : SpanRecord) : (setDir s n r).corr = s.corr := rfl
@[simp] theorem setDir_notices (n : Nat) (r : SpanRecord) : (setDir s n r).notices = s.notices := rfl
@[simp] theorem setDir_free (n : Nat) (r : SpanRecord) : (setDir s n r).free = s.free := rfl

/-! ### writeLevels -/

@[simp] theorem writeLevels_pending (r : SpanRecord) (b : Nat) (l : List Nat) : (writeLevels s r b l).pending = s.pending := rfl
@[simp] theorem writeLevels_reference (r : SpanRecord) (b : Nat) (l : List Nat) : (writeLevels s r b l).reference = s.reference := rfl
@[simp] theorem writeLevels_port (r : SpanRecord) (b : Nat) (l : List Nat) : (writeLevels s r b l).port = s.port := rfl
@[simp] theorem writeLevels_cfg (r : SpanRecord) (b : Nat) (l : List Nat) : (writeLevels s r b l).cfg = s.cfg := rfl
@[simp] theorem writeLevels_clock (r : SpanRecord) (b : Nat) (l : List Nat) : (writeLevels s r b l).clock = s.clock := rfl
@[simp] theorem writeLevels_alerts (r : SpanRecord) (b : Nat) (l : List Nat) : (writeLevels s r b l).alerts = s.alerts := rfl
@[simp] theorem writeLevels_sched (r : SpanRecord) (b : Nat) (l : List Nat) : (writeLevels s r b l).sched = s.sched := rfl
@[simp] theorem writeLevels_engine (r : SpanRecord) (b : Nat) (l : List Nat) : (writeLevels s r b l).engine = s.engine := rfl
@[simp] theorem writeLevels_switch (r : SpanRecord) (b : Nat) (l : List Nat) : (writeLevels s r b l).switch = s.switch := rfl
@[simp] theorem writeLevels_acc (r : SpanRecord) (b : Nat) (l : List Nat) : (writeLevels s r b l).acc = s.acc := rfl
@[simp] theorem writeLevels_trace (r : SpanRecord) (b : Nat) (l : List Nat) : (writeLevels s r b l).trace = s.trace := rfl
@[simp] theorem writeLevels_comp (r : SpanRecord) (b : Nat) (l : List Nat) : (writeLevels s r b l).comp = s.comp := rfl
@[simp] theorem writeLevels_line (r : SpanRecord) (b : Nat) (l : List Nat) : (writeLevels s r b l).line = s.line := rfl
@[simp] theorem writeLevels_peers (r : SpanRecord) (b : Nat) (l : List Nat) : (writeLevels s r b l).peers = s.peers := rfl
@[simp] theorem writeLevels_claims (r : SpanRecord) (b : Nat) (l : List Nat) : (writeLevels s r b l).claims = s.claims := rfl
@[simp] theorem writeLevels_corr (r : SpanRecord) (b : Nat) (l : List Nat) : (writeLevels s r b l).corr = s.corr := rfl
@[simp] theorem writeLevels_notices (r : SpanRecord) (b : Nat) (l : List Nat) : (writeLevels s r b l).notices = s.notices := rfl
@[simp] theorem writeLevels_free (r : SpanRecord) (b : Nat) (l : List Nat) : (writeLevels s r b l).free = s.free := rfl

/-! ### emptyLoad -/

@[simp] theorem emptyLoad_pending : (emptyLoad s).pending = s.pending := rfl
@[simp] theorem emptyLoad_reference : (emptyLoad s).reference = s.reference := rfl
@[simp] theorem emptyLoad_port : (emptyLoad s).port = s.port := rfl
@[simp] theorem emptyLoad_cfg : (emptyLoad s).cfg = s.cfg := rfl
@[simp] theorem emptyLoad_clock : (emptyLoad s).clock = s.clock := rfl
@[simp] theorem emptyLoad_alerts : (emptyLoad s).alerts = s.alerts := rfl
@[simp] theorem emptyLoad_sched : (emptyLoad s).sched = s.sched := rfl
@[simp] theorem emptyLoad_engine : (emptyLoad s).engine = s.engine := rfl
@[simp] theorem emptyLoad_switch : (emptyLoad s).switch = s.switch := rfl
@[simp] theorem emptyLoad_acc : (emptyLoad s).acc = s.acc := rfl
@[simp] theorem emptyLoad_trace : (emptyLoad s).trace = s.trace := rfl
@[simp] theorem emptyLoad_comp : (emptyLoad s).comp = s.comp := rfl
@[simp] theorem emptyLoad_line : (emptyLoad s).line = s.line := rfl
@[simp] theorem emptyLoad_peers : (emptyLoad s).peers = s.peers := rfl
@[simp] theorem emptyLoad_claims : (emptyLoad s).claims = s.claims := rfl
@[simp] theorem emptyLoad_corr : (emptyLoad s).corr = s.corr := rfl
@[simp] theorem emptyLoad_notices : (emptyLoad s).notices = s.notices := rfl
@[simp] theorem emptyLoad_free : (emptyLoad s).free = s.free := rfl

/-! ### bumpFree -/

@[simp] theorem bumpFree_pending : (bumpFree s).pending = s.pending := rfl
@[simp] theorem bumpFree_reference : (bumpFree s).reference = s.reference := rfl
@[simp] theorem bumpFree_port : (bumpFree s).port = s.port := rfl
@[simp] theorem bumpFree_cfg : (bumpFree s).cfg = s.cfg := rfl
@[simp] theorem bumpFree_clock : (bumpFree s).clock = s.clock := rfl
@[simp] theorem bumpFree_alerts : (bumpFree s).alerts = s.alerts := rfl
@[simp] theorem bumpFree_sched : (bumpFree s).sched = s.sched := rfl
@[simp] theorem bumpFree_engine : (bumpFree s).engine = s.engine := rfl
@[simp] theorem bumpFree_switch : (bumpFree s).switch = s.switch := rfl
@[simp] theorem bumpFree_acc : (bumpFree s).acc = s.acc := rfl
@[simp] theorem bumpFree_trace : (bumpFree s).trace = s.trace := rfl
@[simp] theorem bumpFree_comp : (bumpFree s).comp = s.comp := rfl
@[simp] theorem bumpFree_store : (bumpFree s).store = s.store := rfl
@[simp] theorem bumpFree_line : (bumpFree s).line = s.line := rfl
@[simp] theorem bumpFree_peers : (bumpFree s).peers = s.peers := rfl
@[simp] theorem bumpFree_claims : (bumpFree s).claims = s.claims := rfl
@[simp] theorem bumpFree_corr : (bumpFree s).corr = s.corr := rfl
@[simp] theorem bumpFree_notices : (bumpFree s).notices = s.notices := rfl

/-! ### adjustSlot -/

@[simp] theorem adjustSlot_pending (n : Nat) (f : Request → Request) : (adjustSlot s n f).pending = s.pending := rfl
@[simp] theorem adjustSlot_reference (n : Nat) (f : Request → Request) : (adjustSlot s n f).reference = s.reference := rfl
@[simp] theorem adjustSlot_port (n : Nat) (f : Request → Request) : (adjustSlot s n f).port = s.port := rfl
@[simp] theorem adjustSlot_cfg (n : Nat) (f : Request → Request) : (adjustSlot s n f).cfg = s.cfg := rfl
@[simp] theorem adjustSlot_clock (n : Nat) (f : Request → Request) : (adjustSlot s n f).clock = s.clock := rfl
@[simp] theorem adjustSlot_alerts (n : Nat) (f : Request → Request) : (adjustSlot s n f).alerts = s.alerts := rfl
@[simp] theorem adjustSlot_engine (n : Nat) (f : Request → Request) : (adjustSlot s n f).engine = s.engine := rfl
@[simp] theorem adjustSlot_switch (n : Nat) (f : Request → Request) : (adjustSlot s n f).switch = s.switch := rfl
@[simp] theorem adjustSlot_acc (n : Nat) (f : Request → Request) : (adjustSlot s n f).acc = s.acc := rfl
@[simp] theorem adjustSlot_trace (n : Nat) (f : Request → Request) : (adjustSlot s n f).trace = s.trace := rfl
@[simp] theorem adjustSlot_comp (n : Nat) (f : Request → Request) : (adjustSlot s n f).comp = s.comp := rfl
@[simp] theorem adjustSlot_store (n : Nat) (f : Request → Request) : (adjustSlot s n f).store = s.store := rfl
@[simp] theorem adjustSlot_line (n : Nat) (f : Request → Request) : (adjustSlot s n f).line = s.line := rfl
@[simp] theorem adjustSlot_peers (n : Nat) (f : Request → Request) : (adjustSlot s n f).peers = s.peers := rfl
@[simp] theorem adjustSlot_claims (n : Nat) (f : Request → Request) : (adjustSlot s n f).claims = s.claims := rfl
@[simp] theorem adjustSlot_corr (n : Nat) (f : Request → Request) : (adjustSlot s n f).corr = s.corr := rfl
@[simp] theorem adjustSlot_notices (n : Nat) (f : Request → Request) : (adjustSlot s n f).notices = s.notices := rfl
@[simp] theorem adjustSlot_free (n : Nat) (f : Request → Request) : (adjustSlot s n f).free = s.free := rfl

/-! ### emptySlotOf -/

@[simp] theorem emptySlotOf_pending (n : Nat) : (emptySlotOf s n).pending = s.pending := rfl
@[simp] theorem emptySlotOf_reference (n : Nat) : (emptySlotOf s n).reference = s.reference := rfl
@[simp] theorem emptySlotOf_port (n : Nat) : (emptySlotOf s n).port = s.port := rfl
@[simp] theorem emptySlotOf_cfg (n : Nat) : (emptySlotOf s n).cfg = s.cfg := rfl
@[simp] theorem emptySlotOf_clock (n : Nat) : (emptySlotOf s n).clock = s.clock := rfl
@[simp] theorem emptySlotOf_alerts (n : Nat) : (emptySlotOf s n).alerts = s.alerts := rfl
@[simp] theorem emptySlotOf_engine (n : Nat) : (emptySlotOf s n).engine = s.engine := rfl
@[simp] theorem emptySlotOf_switch (n : Nat) : (emptySlotOf s n).switch = s.switch := rfl
@[simp] theorem emptySlotOf_acc (n : Nat) : (emptySlotOf s n).acc = s.acc := rfl
@[simp] theorem emptySlotOf_trace (n : Nat) : (emptySlotOf s n).trace = s.trace := rfl
@[simp] theorem emptySlotOf_comp (n : Nat) : (emptySlotOf s n).comp = s.comp := rfl
@[simp] theorem emptySlotOf_store (n : Nat) : (emptySlotOf s n).store = s.store := rfl
@[simp] theorem emptySlotOf_line (n : Nat) : (emptySlotOf s n).line = s.line := rfl
@[simp] theorem emptySlotOf_peers (n : Nat) : (emptySlotOf s n).peers = s.peers := rfl
@[simp] theorem emptySlotOf_claims (n : Nat) : (emptySlotOf s n).claims = s.claims := rfl
@[simp] theorem emptySlotOf_corr (n : Nat) : (emptySlotOf s n).corr = s.corr := rfl
@[simp] theorem emptySlotOf_notices (n : Nat) : (emptySlotOf s n).notices = s.notices := rfl
@[simp] theorem emptySlotOf_free (n : Nat) : (emptySlotOf s n).free = s.free := rfl

/-! ### putSlot -/

@[simp] theorem putSlot_pending (n : Nat) (r : Request) : (putSlot s n r).pending = s.pending := rfl
@[simp] theorem putSlot_reference (n : Nat) (r : Request) : (putSlot s n r).reference = s.reference := rfl
@[simp] theorem putSlot_port (n : Nat) (r : Request) : (putSlot s n r).port = s.port := rfl
@[simp] theorem putSlot_cfg (n : Nat) (r : Request) : (putSlot s n r).cfg = s.cfg := rfl
@[simp] theorem putSlot_clock (n : Nat) (r : Request) : (putSlot s n r).clock = s.clock := rfl
@[simp] theorem putSlot_alerts (n : Nat) (r : Request) : (putSlot s n r).alerts = s.alerts := rfl
@[simp] theorem putSlot_engine (n : Nat) (r : Request) : (putSlot s n r).engine = s.engine := rfl
@[simp] theorem putSlot_switch (n : Nat) (r : Request) : (putSlot s n r).switch = s.switch := rfl
@[simp] theorem putSlot_acc (n : Nat) (r : Request) : (putSlot s n r).acc = s.acc := rfl
@[simp] theorem putSlot_trace (n : Nat) (r : Request) : (putSlot s n r).trace = s.trace := rfl
@[simp] theorem putSlot_comp (n : Nat) (r : Request) : (putSlot s n r).comp = s.comp := rfl
@[simp] theorem putSlot_store (n : Nat) (r : Request) : (putSlot s n r).store = s.store := rfl
@[simp] theorem putSlot_line (n : Nat) (r : Request) : (putSlot s n r).line = s.line := rfl
@[simp] theorem putSlot_peers (n : Nat) (r : Request) : (putSlot s n r).peers = s.peers := rfl
@[simp] theorem putSlot_claims (n : Nat) (r : Request) : (putSlot s n r).claims = s.claims := rfl
@[simp] theorem putSlot_corr (n : Nat) (r : Request) : (putSlot s n r).corr = s.corr := rfl
@[simp] theorem putSlot_notices (n : Nat) (r : Request) : (putSlot s n r).notices = s.notices := rfl
@[simp] theorem putSlot_free (n : Nat) (r : Request) : (putSlot s n r).free = s.free := rfl

/-! ### clearLatch -/

@[simp] theorem clearLatch_pending (n : Nat) : (clearLatch s n).pending = s.pending := rfl
@[simp] theorem clearLatch_reference (n : Nat) : (clearLatch s n).reference = s.reference := rfl
@[simp] theorem clearLatch_port (n : Nat) : (clearLatch s n).port = s.port := rfl
@[simp] theorem clearLatch_cfg (n : Nat) : (clearLatch s n).cfg = s.cfg := rfl
@[simp] theorem clearLatch_clock (n : Nat) : (clearLatch s n).clock = s.clock := rfl
@[simp] theorem clearLatch_sched (n : Nat) : (clearLatch s n).sched = s.sched := rfl
@[simp] theorem clearLatch_engine (n : Nat) : (clearLatch s n).engine = s.engine := rfl
@[simp] theorem clearLatch_switch (n : Nat) : (clearLatch s n).switch = s.switch := rfl
@[simp] theorem clearLatch_acc (n : Nat) : (clearLatch s n).acc = s.acc := rfl
@[simp] theorem clearLatch_trace (n : Nat) : (clearLatch s n).trace = s.trace := rfl
@[simp] theorem clearLatch_comp (n : Nat) : (clearLatch s n).comp = s.comp := rfl
@[simp] theorem clearLatch_store (n : Nat) : (clearLatch s n).store = s.store := rfl
@[simp] theorem clearLatch_line (n : Nat) : (clearLatch s n).line = s.line := rfl
@[simp] theorem clearLatch_peers (n : Nat) : (clearLatch s n).peers = s.peers := rfl
@[simp] theorem clearLatch_claims (n : Nat) : (clearLatch s n).claims = s.claims := rfl
@[simp] theorem clearLatch_corr (n : Nat) : (clearLatch s n).corr = s.corr := rfl
@[simp] theorem clearLatch_notices (n : Nat) : (clearLatch s n).notices = s.notices := rfl
@[simp] theorem clearLatch_free (n : Nat) : (clearLatch s n).free = s.free := rfl

/-! ### assertLine -/

@[simp] theorem assertLine_pending (n : Nat) : (assertLine s n).pending = s.pending := rfl
@[simp] theorem assertLine_reference (n : Nat) : (assertLine s n).reference = s.reference := rfl
@[simp] theorem assertLine_port (n : Nat) : (assertLine s n).port = s.port := rfl
@[simp] theorem assertLine_cfg (n : Nat) : (assertLine s n).cfg = s.cfg := rfl
@[simp] theorem assertLine_clock (n : Nat) : (assertLine s n).clock = s.clock := rfl
@[simp] theorem assertLine_sched (n : Nat) : (assertLine s n).sched = s.sched := rfl
@[simp] theorem assertLine_engine (n : Nat) : (assertLine s n).engine = s.engine := rfl
@[simp] theorem assertLine_switch (n : Nat) : (assertLine s n).switch = s.switch := rfl
@[simp] theorem assertLine_acc (n : Nat) : (assertLine s n).acc = s.acc := rfl
@[simp] theorem assertLine_trace (n : Nat) : (assertLine s n).trace = s.trace := rfl
@[simp] theorem assertLine_comp (n : Nat) : (assertLine s n).comp = s.comp := rfl
@[simp] theorem assertLine_store (n : Nat) : (assertLine s n).store = s.store := rfl
@[simp] theorem assertLine_line (n : Nat) : (assertLine s n).line = s.line := rfl
@[simp] theorem assertLine_peers (n : Nat) : (assertLine s n).peers = s.peers := rfl
@[simp] theorem assertLine_claims (n : Nat) : (assertLine s n).claims = s.claims := rfl
@[simp] theorem assertLine_corr (n : Nat) : (assertLine s n).corr = s.corr := rfl
@[simp] theorem assertLine_notices (n : Nat) : (assertLine s n).notices = s.notices := rfl
@[simp] theorem assertLine_free (n : Nat) : (assertLine s n).free = s.free := rfl

/-! ### putRound -/

@[simp] theorem putRound_pending (h : Nat) (c : CorrRecord) : (putRound s h c).pending = s.pending := rfl
@[simp] theorem putRound_reference (h : Nat) (c : CorrRecord) : (putRound s h c).reference = s.reference := rfl
@[simp] theorem putRound_port (h : Nat) (c : CorrRecord) : (putRound s h c).port = s.port := rfl
@[simp] theorem putRound_cfg (h : Nat) (c : CorrRecord) : (putRound s h c).cfg = s.cfg := rfl
@[simp] theorem putRound_clock (h : Nat) (c : CorrRecord) : (putRound s h c).clock = s.clock := rfl
@[simp] theorem putRound_alerts (h : Nat) (c : CorrRecord) : (putRound s h c).alerts = s.alerts := rfl
@[simp] theorem putRound_sched (h : Nat) (c : CorrRecord) : (putRound s h c).sched = s.sched := rfl
@[simp] theorem putRound_engine (h : Nat) (c : CorrRecord) : (putRound s h c).engine = s.engine := rfl
@[simp] theorem putRound_switch (h : Nat) (c : CorrRecord) : (putRound s h c).switch = s.switch := rfl
@[simp] theorem putRound_acc (h : Nat) (c : CorrRecord) : (putRound s h c).acc = s.acc := rfl
@[simp] theorem putRound_trace (h : Nat) (c : CorrRecord) : (putRound s h c).trace = s.trace := rfl
@[simp] theorem putRound_comp (h : Nat) (c : CorrRecord) : (putRound s h c).comp = s.comp := rfl
@[simp] theorem putRound_store (h : Nat) (c : CorrRecord) : (putRound s h c).store = s.store := rfl
@[simp] theorem putRound_line (h : Nat) (c : CorrRecord) : (putRound s h c).line = s.line := rfl
@[simp] theorem putRound_peers (h : Nat) (c : CorrRecord) : (putRound s h c).peers = s.peers := rfl
@[simp] theorem putRound_claims (h : Nat) (c : CorrRecord) : (putRound s h c).claims = s.claims := rfl
@[simp] theorem putRound_notices (h : Nat) (c : CorrRecord) : (putRound s h c).notices = s.notices := rfl
@[simp] theorem putRound_free (h : Nat) (c : CorrRecord) : (putRound s h c).free = s.free := rfl

/-! ### enterSpan -/

@[simp] theorem enterSpan_pending (h n t : Nat) : (enterSpan s h n t).pending = s.pending := rfl
@[simp] theorem enterSpan_reference (h n t : Nat) : (enterSpan s h n t).reference = s.reference := rfl
@[simp] theorem enterSpan_port (h n t : Nat) : (enterSpan s h n t).port = s.port := rfl
@[simp] theorem enterSpan_cfg (h n t : Nat) : (enterSpan s h n t).cfg = s.cfg := rfl
@[simp] theorem enterSpan_clock (h n t : Nat) : (enterSpan s h n t).clock = s.clock := rfl
@[simp] theorem enterSpan_alerts (h n t : Nat) : (enterSpan s h n t).alerts = s.alerts := rfl
@[simp] theorem enterSpan_sched (h n t : Nat) : (enterSpan s h n t).sched = s.sched := rfl
@[simp] theorem enterSpan_engine (h n t : Nat) : (enterSpan s h n t).engine = s.engine := rfl
@[simp] theorem enterSpan_switch (h n t : Nat) : (enterSpan s h n t).switch = s.switch := rfl
@[simp] theorem enterSpan_acc (h n t : Nat) : (enterSpan s h n t).acc = s.acc := rfl
@[simp] theorem enterSpan_trace (h n t : Nat) : (enterSpan s h n t).trace = s.trace := rfl
@[simp] theorem enterSpan_comp (h n t : Nat) : (enterSpan s h n t).comp = s.comp := rfl
@[simp] theorem enterSpan_store (h n t : Nat) : (enterSpan s h n t).store = s.store := rfl
@[simp] theorem enterSpan_line (h n t : Nat) : (enterSpan s h n t).line = s.line := rfl
@[simp] theorem enterSpan_peers (h n t : Nat) : (enterSpan s h n t).peers = s.peers := rfl
@[simp] theorem enterSpan_claims (h n t : Nat) : (enterSpan s h n t).claims = s.claims := rfl
@[simp] theorem enterSpan_notices (h n t : Nat) : (enterSpan s h n t).notices = s.notices := rfl
@[simp] theorem enterSpan_free (h n t : Nat) : (enterSpan s h n t).free = s.free := rfl

/-! ### setClaim -/

@[simp] theorem setClaim_pending (g : Nat) (st : ClaimState) : (setClaim s g st).pending = s.pending := rfl
@[simp] theorem setClaim_reference (g : Nat) (st : ClaimState) : (setClaim s g st).reference = s.reference := rfl
@[simp] theorem setClaim_port (g : Nat) (st : ClaimState) : (setClaim s g st).port = s.port := rfl
@[simp] theorem setClaim_cfg (g : Nat) (st : ClaimState) : (setClaim s g st).cfg = s.cfg := rfl
@[simp] theorem setClaim_clock (g : Nat) (st : ClaimState) : (setClaim s g st).clock = s.clock := rfl
@[simp] theorem setClaim_alerts (g : Nat) (st : ClaimState) : (setClaim s g st).alerts = s.alerts := rfl
@[simp] theorem setClaim_sched (g : Nat) (st : ClaimState) : (setClaim s g st).sched = s.sched := rfl
@[simp] theorem setClaim_engine (g : Nat) (st : ClaimState) : (setClaim s g st).engine = s.engine := rfl
@[simp] theorem setClaim_switch (g : Nat) (st : ClaimState) : (setClaim s g st).switch = s.switch := rfl
@[simp] theorem setClaim_acc (g : Nat) (st : ClaimState) : (setClaim s g st).acc = s.acc := rfl
@[simp] theorem setClaim_trace (g : Nat) (st : ClaimState) : (setClaim s g st).trace = s.trace := rfl
@[simp] theorem setClaim_comp (g : Nat) (st : ClaimState) : (setClaim s g st).comp = s.comp := rfl
@[simp] theorem setClaim_store (g : Nat) (st : ClaimState) : (setClaim s g st).store = s.store := rfl
@[simp] theorem setClaim_line (g : Nat) (st : ClaimState) : (setClaim s g st).line = s.line := rfl
@[simp] theorem setClaim_peers (g : Nat) (st : ClaimState) : (setClaim s g st).peers = s.peers := rfl
@[simp] theorem setClaim_corr (g : Nat) (st : ClaimState) : (setClaim s g st).corr = s.corr := rfl
@[simp] theorem setClaim_notices (g : Nat) (st : ClaimState) : (setClaim s g st).notices = s.notices := rfl
@[simp] theorem setClaim_free (g : Nat) (st : ClaimState) : (setClaim s g st).free = s.free := rfl

/-! ### setStale -/

@[simp] theorem setStale_pending (g : Nat) (m : Option (StaleMark × Nat)) : (setStale s g m).pending = s.pending := rfl
@[simp] theorem setStale_reference (g : Nat) (m : Option (StaleMark × Nat)) : (setStale s g m).reference = s.reference := rfl
@[simp] theorem setStale_port (g : Nat) (m : Option (StaleMark × Nat)) : (setStale s g m).port = s.port := rfl
@[simp] theorem setStale_cfg (g : Nat) (m : Option (StaleMark × Nat)) : (setStale s g m).cfg = s.cfg := rfl
@[simp] theorem setStale_clock (g : Nat) (m : Option (StaleMark × Nat)) : (setStale s g m).clock = s.clock := rfl
@[simp] theorem setStale_alerts (g : Nat) (m : Option (StaleMark × Nat)) : (setStale s g m).alerts = s.alerts := rfl
@[simp] theorem setStale_sched (g : Nat) (m : Option (StaleMark × Nat)) : (setStale s g m).sched = s.sched := rfl
@[simp] theorem setStale_engine (g : Nat) (m : Option (StaleMark × Nat)) : (setStale s g m).engine = s.engine := rfl
@[simp] theorem setStale_switch (g : Nat) (m : Option (StaleMark × Nat)) : (setStale s g m).switch = s.switch := rfl
@[simp] theorem setStale_acc (g : Nat) (m : Option (StaleMark × Nat)) : (setStale s g m).acc = s.acc := rfl
@[simp] theorem setStale_trace (g : Nat) (m : Option (StaleMark × Nat)) : (setStale s g m).trace = s.trace := rfl
@[simp] theorem setStale_comp (g : Nat) (m : Option (StaleMark × Nat)) : (setStale s g m).comp = s.comp := rfl
@[simp] theorem setStale_store (g : Nat) (m : Option (StaleMark × Nat)) : (setStale s g m).store = s.store := rfl
@[simp] theorem setStale_line (g : Nat) (m : Option (StaleMark × Nat)) : (setStale s g m).line = s.line := rfl
@[simp] theorem setStale_peers (g : Nat) (m : Option (StaleMark × Nat)) : (setStale s g m).peers = s.peers := rfl
@[simp] theorem setStale_corr (g : Nat) (m : Option (StaleMark × Nat)) : (setStale s g m).corr = s.corr := rfl
@[simp] theorem setStale_notices (g : Nat) (m : Option (StaleMark × Nat)) : (setStale s g m).notices = s.notices := rfl
@[simp] theorem setStale_free (g : Nat) (m : Option (StaleMark × Nat)) : (setStale s g m).free = s.free := rfl

/-! ### clearStale -/

@[simp] theorem clearStale_pending : (clearStale s).pending = s.pending := rfl
@[simp] theorem clearStale_reference : (clearStale s).reference = s.reference := rfl
@[simp] theorem clearStale_port : (clearStale s).port = s.port := rfl
@[simp] theorem clearStale_cfg : (clearStale s).cfg = s.cfg := rfl
@[simp] theorem clearStale_clock : (clearStale s).clock = s.clock := rfl
@[simp] theorem clearStale_alerts : (clearStale s).alerts = s.alerts := rfl
@[simp] theorem clearStale_sched : (clearStale s).sched = s.sched := rfl
@[simp] theorem clearStale_engine : (clearStale s).engine = s.engine := rfl
@[simp] theorem clearStale_switch : (clearStale s).switch = s.switch := rfl
@[simp] theorem clearStale_acc : (clearStale s).acc = s.acc := rfl
@[simp] theorem clearStale_trace : (clearStale s).trace = s.trace := rfl
@[simp] theorem clearStale_comp : (clearStale s).comp = s.comp := rfl
@[simp] theorem clearStale_store : (clearStale s).store = s.store := rfl
@[simp] theorem clearStale_line : (clearStale s).line = s.line := rfl
@[simp] theorem clearStale_peers : (clearStale s).peers = s.peers := rfl
@[simp] theorem clearStale_corr : (clearStale s).corr = s.corr := rfl
@[simp] theorem clearStale_notices : (clearStale s).notices = s.notices := rfl
@[simp] theorem clearStale_free : (clearStale s).free = s.free := rfl

/-! ### enter -/

@[simp] theorem enter_pending (st : EngineState) : (enter s st).pending = s.pending := rfl
@[simp] theorem enter_reference (st : EngineState) : (enter s st).reference = s.reference := rfl
@[simp] theorem enter_port (st : EngineState) : (enter s st).port = s.port := rfl
@[simp] theorem enter_cfg (st : EngineState) : (enter s st).cfg = s.cfg := rfl
@[simp] theorem enter_clock (st : EngineState) : (enter s st).clock = s.clock := rfl
@[simp] theorem enter_alerts (st : EngineState) : (enter s st).alerts = s.alerts := rfl
@[simp] theorem enter_sched (st : EngineState) : (enter s st).sched = s.sched := rfl
@[simp] theorem enter_switch (st : EngineState) : (enter s st).switch = s.switch := rfl
@[simp] theorem enter_acc (st : EngineState) : (enter s st).acc = s.acc := rfl
@[simp] theorem enter_trace (st : EngineState) : (enter s st).trace = s.trace := rfl
@[simp] theorem enter_comp (st : EngineState) : (enter s st).comp = s.comp := rfl
@[simp] theorem enter_store (st : EngineState) : (enter s st).store = s.store := rfl
@[simp] theorem enter_line (st : EngineState) : (enter s st).line = s.line := rfl
@[simp] theorem enter_peers (st : EngineState) : (enter s st).peers = s.peers := rfl
@[simp] theorem enter_claims (st : EngineState) : (enter s st).claims = s.claims := rfl
@[simp] theorem enter_corr (st : EngineState) : (enter s st).corr = s.corr := rfl
@[simp] theorem enter_notices (st : EngineState) : (enter s st).notices = s.notices := rfl
@[simp] theorem enter_free (st : EngineState) : (enter s st).free = s.free := rfl

/-! ### adjustCtx -/

@[simp] theorem adjustCtx_pending (f : Ctx → Ctx) : (adjustCtx s f).pending = s.pending := rfl
@[simp] theorem adjustCtx_reference (f : Ctx → Ctx) : (adjustCtx s f).reference = s.reference := rfl
@[simp] theorem adjustCtx_port (f : Ctx → Ctx) : (adjustCtx s f).port = s.port := rfl
@[simp] theorem adjustCtx_cfg (f : Ctx → Ctx) : (adjustCtx s f).cfg = s.cfg := rfl
@[simp] theorem adjustCtx_clock (f : Ctx → Ctx) : (adjustCtx s f).clock = s.clock := rfl
@[simp] theorem adjustCtx_alerts (f : Ctx → Ctx) : (adjustCtx s f).alerts = s.alerts := rfl
@[simp] theorem adjustCtx_sched (f : Ctx → Ctx) : (adjustCtx s f).sched = s.sched := rfl
@[simp] theorem adjustCtx_switch (f : Ctx → Ctx) : (adjustCtx s f).switch = s.switch := rfl
@[simp] theorem adjustCtx_acc (f : Ctx → Ctx) : (adjustCtx s f).acc = s.acc := rfl
@[simp] theorem adjustCtx_trace (f : Ctx → Ctx) : (adjustCtx s f).trace = s.trace := rfl
@[simp] theorem adjustCtx_comp (f : Ctx → Ctx) : (adjustCtx s f).comp = s.comp := rfl
@[simp] theorem adjustCtx_store (f : Ctx → Ctx) : (adjustCtx s f).store = s.store := rfl
@[simp] theorem adjustCtx_line (f : Ctx → Ctx) : (adjustCtx s f).line = s.line := rfl
@[simp] theorem adjustCtx_peers (f : Ctx → Ctx) : (adjustCtx s f).peers = s.peers := rfl
@[simp] theorem adjustCtx_claims (f : Ctx → Ctx) : (adjustCtx s f).claims = s.claims := rfl
@[simp] theorem adjustCtx_corr (f : Ctx → Ctx) : (adjustCtx s f).corr = s.corr := rfl
@[simp] theorem adjustCtx_notices (f : Ctx → Ctx) : (adjustCtx s f).notices = s.notices := rfl
@[simp] theorem adjustCtx_free (f : Ctx → Ctx) : (adjustCtx s f).free = s.free := rfl

/-! ### enterDark -/

@[simp] theorem enterDark_pending : (enterDark s).pending = s.pending := rfl
@[simp] theorem enterDark_reference : (enterDark s).reference = s.reference := rfl
@[simp] theorem enterDark_port : (enterDark s).port = s.port := rfl
@[simp] theorem enterDark_cfg : (enterDark s).cfg = s.cfg := rfl
@[simp] theorem enterDark_clock : (enterDark s).clock = s.clock := rfl
@[simp] theorem enterDark_alerts : (enterDark s).alerts = s.alerts := rfl
@[simp] theorem enterDark_sched : (enterDark s).sched = s.sched := rfl
@[simp] theorem enterDark_switch : (enterDark s).switch = s.switch := rfl
@[simp] theorem enterDark_acc : (enterDark s).acc = s.acc := rfl
@[simp] theorem enterDark_trace : (enterDark s).trace = s.trace := rfl
@[simp] theorem enterDark_comp : (enterDark s).comp = s.comp := rfl
@[simp] theorem enterDark_store : (enterDark s).store = s.store := rfl
@[simp] theorem enterDark_line : (enterDark s).line = s.line := rfl
@[simp] theorem enterDark_peers : (enterDark s).peers = s.peers := rfl
@[simp] theorem enterDark_claims : (enterDark s).claims = s.claims := rfl
@[simp] theorem enterDark_corr : (enterDark s).corr = s.corr := rfl
@[simp] theorem enterDark_notices : (enterDark s).notices = s.notices := rfl
@[simp] theorem enterDark_free : (enterDark s).free = s.free := rfl

/-! ### countDark -/

@[simp] theorem countDark_pending (n : Nat) : (countDark s n).pending = s.pending := rfl
@[simp] theorem countDark_reference (n : Nat) : (countDark s n).reference = s.reference := rfl
@[simp] theorem countDark_port (n : Nat) : (countDark s n).port = s.port := rfl
@[simp] theorem countDark_cfg (n : Nat) : (countDark s n).cfg = s.cfg := rfl
@[simp] theorem countDark_clock (n : Nat) : (countDark s n).clock = s.clock := rfl
@[simp] theorem countDark_alerts (n : Nat) : (countDark s n).alerts = s.alerts := rfl
@[simp] theorem countDark_sched (n : Nat) : (countDark s n).sched = s.sched := rfl
@[simp] theorem countDark_switch (n : Nat) : (countDark s n).switch = s.switch := rfl
@[simp] theorem countDark_acc (n : Nat) : (countDark s n).acc = s.acc := rfl
@[simp] theorem countDark_trace (n : Nat) : (countDark s n).trace = s.trace := rfl
@[simp] theorem countDark_comp (n : Nat) : (countDark s n).comp = s.comp := rfl
@[simp] theorem countDark_store (n : Nat) : (countDark s n).store = s.store := rfl
@[simp] theorem countDark_line (n : Nat) : (countDark s n).line = s.line := rfl
@[simp] theorem countDark_peers (n : Nat) : (countDark s n).peers = s.peers := rfl
@[simp] theorem countDark_claims (n : Nat) : (countDark s n).claims = s.claims := rfl
@[simp] theorem countDark_corr (n : Nat) : (countDark s n).corr = s.corr := rfl
@[simp] theorem countDark_notices (n : Nat) : (countDark s n).notices = s.notices := rfl
@[simp] theorem countDark_free (n : Nat) : (countDark s n).free = s.free := rfl

/-! ### clearEngine -/

@[simp] theorem clearEngine_pending : (clearEngine s).pending = s.pending := rfl
@[simp] theorem clearEngine_reference : (clearEngine s).reference = s.reference := rfl
@[simp] theorem clearEngine_port : (clearEngine s).port = s.port := rfl
@[simp] theorem clearEngine_cfg : (clearEngine s).cfg = s.cfg := rfl
@[simp] theorem clearEngine_clock : (clearEngine s).clock = s.clock := rfl
@[simp] theorem clearEngine_alerts : (clearEngine s).alerts = s.alerts := rfl
@[simp] theorem clearEngine_switch : (clearEngine s).switch = s.switch := rfl
@[simp] theorem clearEngine_trace : (clearEngine s).trace = s.trace := rfl
@[simp] theorem clearEngine_store : (clearEngine s).store = s.store := rfl
@[simp] theorem clearEngine_line : (clearEngine s).line = s.line := rfl
@[simp] theorem clearEngine_peers : (clearEngine s).peers = s.peers := rfl
@[simp] theorem clearEngine_claims : (clearEngine s).claims = s.claims := rfl
@[simp] theorem clearEngine_corr : (clearEngine s).corr = s.corr := rfl
@[simp] theorem clearEngine_notices : (clearEngine s).notices = s.notices := rfl
@[simp] theorem clearEngine_free : (clearEngine s).free = s.free := rfl

/-! ### stopReduction -/

@[simp] theorem stopReduction_pending : (stopReduction s).pending = s.pending := rfl
@[simp] theorem stopReduction_reference : (stopReduction s).reference = s.reference := rfl
@[simp] theorem stopReduction_port : (stopReduction s).port = s.port := rfl
@[simp] theorem stopReduction_cfg : (stopReduction s).cfg = s.cfg := rfl
@[simp] theorem stopReduction_clock : (stopReduction s).clock = s.clock := rfl
@[simp] theorem stopReduction_alerts : (stopReduction s).alerts = s.alerts := rfl
@[simp] theorem stopReduction_sched : (stopReduction s).sched = s.sched := rfl
@[simp] theorem stopReduction_engine : (stopReduction s).engine = s.engine := rfl
@[simp] theorem stopReduction_switch : (stopReduction s).switch = s.switch := rfl
@[simp] theorem stopReduction_acc : (stopReduction s).acc = s.acc := rfl
@[simp] theorem stopReduction_store : (stopReduction s).store = s.store := rfl
@[simp] theorem stopReduction_line : (stopReduction s).line = s.line := rfl
@[simp] theorem stopReduction_peers : (stopReduction s).peers = s.peers := rfl
@[simp] theorem stopReduction_claims : (stopReduction s).claims = s.claims := rfl
@[simp] theorem stopReduction_corr : (stopReduction s).corr = s.corr := rfl
@[simp] theorem stopReduction_notices : (stopReduction s).notices = s.notices := rfl
@[simp] theorem stopReduction_free : (stopReduction s).free = s.free := rfl

/-! ### lockConfig -/

@[simp] theorem lockConfig_pending : (lockConfig s).pending = s.pending := rfl
@[simp] theorem lockConfig_reference : (lockConfig s).reference = s.reference := rfl
@[simp] theorem lockConfig_port : (lockConfig s).port = s.port := rfl
@[simp] theorem lockConfig_clock : (lockConfig s).clock = s.clock := rfl
@[simp] theorem lockConfig_alerts : (lockConfig s).alerts = s.alerts := rfl
@[simp] theorem lockConfig_sched : (lockConfig s).sched = s.sched := rfl
@[simp] theorem lockConfig_engine : (lockConfig s).engine = s.engine := rfl
@[simp] theorem lockConfig_switch : (lockConfig s).switch = s.switch := rfl
@[simp] theorem lockConfig_acc : (lockConfig s).acc = s.acc := rfl
@[simp] theorem lockConfig_trace : (lockConfig s).trace = s.trace := rfl
@[simp] theorem lockConfig_comp : (lockConfig s).comp = s.comp := rfl
@[simp] theorem lockConfig_store : (lockConfig s).store = s.store := rfl
@[simp] theorem lockConfig_line : (lockConfig s).line = s.line := rfl
@[simp] theorem lockConfig_peers : (lockConfig s).peers = s.peers := rfl
@[simp] theorem lockConfig_claims : (lockConfig s).claims = s.claims := rfl
@[simp] theorem lockConfig_corr : (lockConfig s).corr = s.corr := rfl
@[simp] theorem lockConfig_notices : (lockConfig s).notices = s.notices := rfl
@[simp] theorem lockConfig_free : (lockConfig s).free = s.free := rfl

/-! ### createRecords -/

@[simp] theorem createRecords_pending : (createRecords s).pending = s.pending := rfl
@[simp] theorem createRecords_reference : (createRecords s).reference = s.reference := rfl
@[simp] theorem createRecords_port : (createRecords s).port = s.port := rfl
@[simp] theorem createRecords_cfg : (createRecords s).cfg = s.cfg := rfl
@[simp] theorem createRecords_clock : (createRecords s).clock = s.clock := rfl
@[simp] theorem createRecords_alerts : (createRecords s).alerts = s.alerts := rfl
@[simp] theorem createRecords_engine : (createRecords s).engine = s.engine := rfl
@[simp] theorem createRecords_switch : (createRecords s).switch = s.switch := rfl
@[simp] theorem createRecords_acc : (createRecords s).acc = s.acc := rfl
@[simp] theorem createRecords_trace : (createRecords s).trace = s.trace := rfl
@[simp] theorem createRecords_store : (createRecords s).store = s.store := rfl
@[simp] theorem createRecords_line : (createRecords s).line = s.line := rfl
@[simp] theorem createRecords_peers : (createRecords s).peers = s.peers := rfl
@[simp] theorem createRecords_notices : (createRecords s).notices = s.notices := rfl
@[simp] theorem createRecords_free : (createRecords s).free = s.free := rfl

/-! ### putPeer -/

@[simp] theorem putPeer_pending (x : Nat) (p : Peer) : (putPeer s x p).pending = s.pending := rfl
@[simp] theorem putPeer_reference (x : Nat) (p : Peer) : (putPeer s x p).reference = s.reference := rfl
@[simp] theorem putPeer_port (x : Nat) (p : Peer) : (putPeer s x p).port = s.port := rfl
@[simp] theorem putPeer_cfg (x : Nat) (p : Peer) : (putPeer s x p).cfg = s.cfg := rfl
@[simp] theorem putPeer_clock (x : Nat) (p : Peer) : (putPeer s x p).clock = s.clock := rfl
@[simp] theorem putPeer_alerts (x : Nat) (p : Peer) : (putPeer s x p).alerts = s.alerts := rfl
@[simp] theorem putPeer_sched (x : Nat) (p : Peer) : (putPeer s x p).sched = s.sched := rfl
@[simp] theorem putPeer_engine (x : Nat) (p : Peer) : (putPeer s x p).engine = s.engine := rfl
@[simp] theorem putPeer_switch (x : Nat) (p : Peer) : (putPeer s x p).switch = s.switch := rfl
@[simp] theorem putPeer_acc (x : Nat) (p : Peer) : (putPeer s x p).acc = s.acc := rfl
@[simp] theorem putPeer_trace (x : Nat) (p : Peer) : (putPeer s x p).trace = s.trace := rfl
@[simp] theorem putPeer_comp (x : Nat) (p : Peer) : (putPeer s x p).comp = s.comp := rfl
@[simp] theorem putPeer_store (x : Nat) (p : Peer) : (putPeer s x p).store = s.store := rfl
@[simp] theorem putPeer_line (x : Nat) (p : Peer) : (putPeer s x p).line = s.line := rfl
@[simp] theorem putPeer_claims (x : Nat) (p : Peer) : (putPeer s x p).claims = s.claims := rfl
@[simp] theorem putPeer_corr (x : Nat) (p : Peer) : (putPeer s x p).corr = s.corr := rfl
@[simp] theorem putPeer_notices (x : Nat) (p : Peer) : (putPeer s x p).notices = s.notices := rfl
@[simp] theorem putPeer_free (x : Nat) (p : Peer) : (putPeer s x p).free = s.free := rfl

/-! ### deliver -/

@[simp] theorem deliver_pending (f : RxFrame) : (deliver s f).pending = s.pending := rfl
@[simp] theorem deliver_reference (f : RxFrame) : (deliver s f).reference = s.reference := rfl
@[simp] theorem deliver_port (f : RxFrame) : (deliver s f).port = s.port := rfl
@[simp] theorem deliver_cfg (f : RxFrame) : (deliver s f).cfg = s.cfg := rfl
@[simp] theorem deliver_clock (f : RxFrame) : (deliver s f).clock = s.clock := rfl
@[simp] theorem deliver_alerts (f : RxFrame) : (deliver s f).alerts = s.alerts := rfl
@[simp] theorem deliver_sched (f : RxFrame) : (deliver s f).sched = s.sched := rfl
@[simp] theorem deliver_engine (f : RxFrame) : (deliver s f).engine = s.engine := rfl
@[simp] theorem deliver_switch (f : RxFrame) : (deliver s f).switch = s.switch := rfl
@[simp] theorem deliver_acc (f : RxFrame) : (deliver s f).acc = s.acc := rfl
@[simp] theorem deliver_trace (f : RxFrame) : (deliver s f).trace = s.trace := rfl
@[simp] theorem deliver_comp (f : RxFrame) : (deliver s f).comp = s.comp := rfl
@[simp] theorem deliver_store (f : RxFrame) : (deliver s f).store = s.store := rfl
@[simp] theorem deliver_claims (f : RxFrame) : (deliver s f).claims = s.claims := rfl
@[simp] theorem deliver_corr (f : RxFrame) : (deliver s f).corr = s.corr := rfl
@[simp] theorem deliver_notices (f : RxFrame) : (deliver s f).notices = s.notices := rfl
@[simp] theorem deliver_free (f : RxFrame) : (deliver s f).free = s.free := rfl

/-! ### stopLearning -/

@[simp] theorem stopLearning_pending : (stopLearning s).pending = s.pending := rfl
@[simp] theorem stopLearning_reference : (stopLearning s).reference = s.reference := rfl
@[simp] theorem stopLearning_port : (stopLearning s).port = s.port := rfl
@[simp] theorem stopLearning_cfg : (stopLearning s).cfg = s.cfg := rfl
@[simp] theorem stopLearning_clock : (stopLearning s).clock = s.clock := rfl
@[simp] theorem stopLearning_alerts : (stopLearning s).alerts = s.alerts := rfl
@[simp] theorem stopLearning_sched : (stopLearning s).sched = s.sched := rfl
@[simp] theorem stopLearning_engine : (stopLearning s).engine = s.engine := rfl
@[simp] theorem stopLearning_switch : (stopLearning s).switch = s.switch := rfl
@[simp] theorem stopLearning_acc : (stopLearning s).acc = s.acc := rfl
@[simp] theorem stopLearning_trace : (stopLearning s).trace = s.trace := rfl
@[simp] theorem stopLearning_comp : (stopLearning s).comp = s.comp := rfl
@[simp] theorem stopLearning_store : (stopLearning s).store = s.store := rfl
@[simp] theorem stopLearning_line : (stopLearning s).line = s.line := rfl
@[simp] theorem stopLearning_claims : (stopLearning s).claims = s.claims := rfl
@[simp] theorem stopLearning_corr : (stopLearning s).corr = s.corr := rfl
@[simp] theorem stopLearning_notices : (stopLearning s).notices = s.notices := rfl
@[simp] theorem stopLearning_free : (stopLearning s).free = s.free := rfl

/-! ### enterAwake -/

@[simp] theorem enterAwake_pending : (enterAwake s).pending = s.pending := rfl
@[simp] theorem enterAwake_reference : (enterAwake s).reference = s.reference := rfl
@[simp] theorem enterAwake_port : (enterAwake s).port = s.port := rfl
@[simp] theorem enterAwake_cfg : (enterAwake s).cfg = s.cfg := rfl
@[simp] theorem enterAwake_alerts : (enterAwake s).alerts = s.alerts := rfl
@[simp] theorem enterAwake_sched : (enterAwake s).sched = s.sched := rfl
@[simp] theorem enterAwake_switch : (enterAwake s).switch = s.switch := rfl
@[simp] theorem enterAwake_trace : (enterAwake s).trace = s.trace := rfl
@[simp] theorem enterAwake_comp : (enterAwake s).comp = s.comp := rfl
@[simp] theorem enterAwake_store : (enterAwake s).store = s.store := rfl
@[simp] theorem enterAwake_line : (enterAwake s).line = s.line := rfl
@[simp] theorem enterAwake_peers : (enterAwake s).peers = s.peers := rfl
@[simp] theorem enterAwake_claims : (enterAwake s).claims = s.claims := rfl
@[simp] theorem enterAwake_corr : (enterAwake s).corr = s.corr := rfl
@[simp] theorem enterAwake_notices : (enterAwake s).notices = s.notices := rfl
@[simp] theorem enterAwake_free : (enterAwake s).free = s.free := rfl

/-! ### enterDoze -/

@[simp] theorem enterDoze_pending : (enterDoze s).pending = s.pending := rfl
@[simp] theorem enterDoze_reference : (enterDoze s).reference = s.reference := rfl
@[simp] theorem enterDoze_port : (enterDoze s).port = s.port := rfl
@[simp] theorem enterDoze_cfg : (enterDoze s).cfg = s.cfg := rfl
@[simp] theorem enterDoze_alerts : (enterDoze s).alerts = s.alerts := rfl
@[simp] theorem enterDoze_sched : (enterDoze s).sched = s.sched := rfl
@[simp] theorem enterDoze_switch : (enterDoze s).switch = s.switch := rfl
@[simp] theorem enterDoze_comp : (enterDoze s).comp = s.comp := rfl
@[simp] theorem enterDoze_store : (enterDoze s).store = s.store := rfl
@[simp] theorem enterDoze_line : (enterDoze s).line = s.line := rfl
@[simp] theorem enterDoze_peers : (enterDoze s).peers = s.peers := rfl
@[simp] theorem enterDoze_claims : (enterDoze s).claims = s.claims := rfl
@[simp] theorem enterDoze_corr : (enterDoze s).corr = s.corr := rfl
@[simp] theorem enterDoze_notices : (enterDoze s).notices = s.notices := rfl
@[simp] theorem enterDoze_free : (enterDoze s).free = s.free := rfl

/-! ### isolate -/

@[simp] theorem isolate_pending : (isolate s).pending = s.pending := rfl
@[simp] theorem isolate_reference : (isolate s).reference = s.reference := rfl
@[simp] theorem isolate_cfg : (isolate s).cfg = s.cfg := rfl
@[simp] theorem isolate_clock : (isolate s).clock = s.clock := rfl
@[simp] theorem isolate_alerts : (isolate s).alerts = s.alerts := rfl
@[simp] theorem isolate_sched : (isolate s).sched = s.sched := rfl
@[simp] theorem isolate_engine : (isolate s).engine = s.engine := rfl
@[simp] theorem isolate_switch : (isolate s).switch = s.switch := rfl
@[simp] theorem isolate_acc : (isolate s).acc = s.acc := rfl
@[simp] theorem isolate_trace : (isolate s).trace = s.trace := rfl
@[simp] theorem isolate_comp : (isolate s).comp = s.comp := rfl
@[simp] theorem isolate_store : (isolate s).store = s.store := rfl
@[simp] theorem isolate_corr : (isolate s).corr = s.corr := rfl
@[simp] theorem isolate_notices : (isolate s).notices = s.notices := rfl
@[simp] theorem isolate_free : (isolate s).free = s.free := rfl

end Sys2Proof.Machine
end

