-- ==== Sys2Proof/Laws/Keeps.lean ====
section
/-! SUPPORT. For each shared operation that decides something, one lemma that says everything it leaves as it is: a
conjunction that simp takes apart. -/

namespace Sys2Proof.Machine

/-- What every step of a fold keeps, the fold keeps. -/
theorem foldl_keeps {α β : Type} (g : State → β) (f : State → α → State) (h : ∀ s a, g (f s a) = g s) :
    ∀ (l : List α) (s : State), g (l.foldl f s) = g s
  | [], _ => rfl
  | a :: l, s => by rw [List.foldl_cons, foldl_keeps g f h l, h]

variable (s : State)

@[simp] theorem post_keeps (b : NoticeBody) :
    (post s b).pending = s.pending ∧ (post s b).reference = s.reference ∧ (post s b).port = s.port ∧
    (post s b).cfg = s.cfg ∧ (post s b).clock = s.clock ∧ (post s b).alerts = s.alerts ∧
    (post s b).sched = s.sched ∧ (post s b).engine = s.engine ∧ (post s b).switch = s.switch ∧
    (post s b).acc = s.acc ∧ (post s b).trace = s.trace ∧ (post s b).comp = s.comp ∧
    (post s b).store = s.store ∧ (post s b).line = s.line ∧ (post s b).peers = s.peers ∧
    (post s b).claims = s.claims ∧ (post s b).corr = s.corr ∧ (post s b).free = s.free := by
  unfold post; split <;> simp

@[simp] theorem postAll_keeps (bs : List NoticeBody) :
    (postAll s bs).pending = s.pending ∧ (postAll s bs).reference = s.reference ∧ (postAll s bs).port = s.port ∧
    (postAll s bs).cfg = s.cfg ∧ (postAll s bs).clock = s.clock ∧ (postAll s bs).alerts = s.alerts ∧
    (postAll s bs).sched = s.sched ∧ (postAll s bs).engine = s.engine ∧ (postAll s bs).switch = s.switch ∧
    (postAll s bs).acc = s.acc ∧ (postAll s bs).trace = s.trace ∧ (postAll s bs).comp = s.comp ∧
    (postAll s bs).store = s.store ∧ (postAll s bs).line = s.line ∧ (postAll s bs).peers = s.peers ∧
    (postAll s bs).claims = s.claims ∧ (postAll s bs).corr = s.corr ∧ (postAll s bs).free = s.free := by
  refine ⟨foldl_keeps (·.pending) post (by simp) bs s, foldl_keeps (·.reference) post (by simp) bs s, foldl_keeps (·.port) post (by simp) bs s, foldl_keeps (·.cfg) post (by simp) bs s, foldl_keeps (·.clock) post (by simp) bs s, foldl_keeps (·.alerts) post (by simp) bs s, foldl_keeps (·.sched) post (by simp) bs s, foldl_keeps (·.engine) post (by simp) bs s, foldl_keeps (·.switch) post (by simp) bs s, foldl_keeps (·.acc) post (by simp) bs s, foldl_keeps (·.trace) post (by simp) bs s, foldl_keeps (·.comp) post (by simp) bs s, foldl_keeps (·.store) post (by simp) bs s, foldl_keeps (·.line) post (by simp) bs s, foldl_keeps (·.peers) post (by simp) bs s, foldl_keeps (·.claims) post (by simp) bs s, foldl_keeps (·.corr) post (by simp) bs s, foldl_keeps (·.free) post (by simp) bs s⟩

@[simp] theorem startAttempt_keeps :
    (startAttempt s).pending = s.pending ∧ (startAttempt s).reference = s.reference ∧ (startAttempt s).port = s.port ∧
    (startAttempt s).cfg = s.cfg ∧ (startAttempt s).clock = s.clock ∧ (startAttempt s).alerts = s.alerts ∧
    (startAttempt s).sched = s.sched ∧ (startAttempt s).engine = s.engine ∧ (startAttempt s).switch = s.switch ∧
    (startAttempt s).acc = s.acc ∧ (startAttempt s).trace = s.trace ∧ (startAttempt s).comp = s.comp ∧
    (startAttempt s).store = s.store ∧ (startAttempt s).peers = s.peers ∧ (startAttempt s).claims = s.claims ∧
    (startAttempt s).corr = s.corr ∧ (startAttempt s).notices = s.notices ∧ (startAttempt s).free = s.free := by
  unfold startAttempt; split
  · split <;> simp
  · simp

@[simp] theorem offer_keeps (u : Nat) (b : FrameBody) :
    (offer s u b).pending = s.pending ∧ (offer s u b).reference = s.reference ∧ (offer s u b).port = s.port ∧
    (offer s u b).cfg = s.cfg ∧ (offer s u b).clock = s.clock ∧ (offer s u b).alerts = s.alerts ∧
    (offer s u b).sched = s.sched ∧ (offer s u b).engine = s.engine ∧ (offer s u b).switch = s.switch ∧
    (offer s u b).acc = s.acc ∧ (offer s u b).trace = s.trace ∧ (offer s u b).comp = s.comp ∧
    (offer s u b).store = s.store ∧ (offer s u b).peers = s.peers ∧ (offer s u b).claims = s.claims ∧
    (offer s u b).corr = s.corr ∧ (offer s u b).notices = s.notices ∧ (offer s u b).free = s.free := by
  unfold offer; split <;> simp

@[simp] theorem offerPresence_keeps :
    (offerPresence s).pending = s.pending ∧ (offerPresence s).reference = s.reference ∧ (offerPresence s).port = s.port ∧
    (offerPresence s).cfg = s.cfg ∧ (offerPresence s).clock = s.clock ∧ (offerPresence s).alerts = s.alerts ∧
    (offerPresence s).sched = s.sched ∧ (offerPresence s).engine = s.engine ∧ (offerPresence s).switch = s.switch ∧
    (offerPresence s).acc = s.acc ∧ (offerPresence s).trace = s.trace ∧ (offerPresence s).comp = s.comp ∧
    (offerPresence s).store = s.store ∧ (offerPresence s).claims = s.claims ∧ (offerPresence s).corr = s.corr ∧
    (offerPresence s).notices = s.notices ∧ (offerPresence s).free = s.free := by
  unfold offerPresence; split <;> simp

@[simp] theorem wake_keeps :
    (wake s).pending = s.pending ∧ (wake s).reference = s.reference ∧ (wake s).port = s.port ∧
    (wake s).cfg = s.cfg ∧ (wake s).alerts = s.alerts ∧ (wake s).sched = s.sched ∧
    (wake s).engine = s.engine ∧ (wake s).switch = s.switch ∧ (wake s).acc = s.acc ∧
    (wake s).trace = s.trace ∧ (wake s).comp = s.comp ∧ (wake s).store = s.store ∧
    (wake s).claims = s.claims ∧ (wake s).corr = s.corr ∧ (wake s).notices = s.notices ∧
    (wake s).free = s.free := by
  unfold wake; split <;> simp

@[simp] theorem wakeForCandidate_keeps :
    (wakeForCandidate s).pending = s.pending ∧ (wakeForCandidate s).reference = s.reference ∧ (wakeForCandidate s).port = s.port ∧
    (wakeForCandidate s).cfg = s.cfg ∧ (wakeForCandidate s).alerts = s.alerts ∧ (wakeForCandidate s).sched = s.sched ∧
    (wakeForCandidate s).engine = s.engine ∧ (wakeForCandidate s).switch = s.switch ∧ (wakeForCandidate s).acc = s.acc ∧
    (wakeForCandidate s).trace = s.trace ∧ (wakeForCandidate s).comp = s.comp ∧ (wakeForCandidate s).store = s.store ∧
    (wakeForCandidate s).claims = s.claims ∧ (wakeForCandidate s).corr = s.corr ∧ (wakeForCandidate s).notices = s.notices ∧
    (wakeForCandidate s).free = s.free := by
  unfold wakeForCandidate; split <;> simp

@[simp] theorem refreshDoze_keeps :
    (refreshDoze s).pending = s.pending ∧ (refreshDoze s).reference = s.reference ∧ (refreshDoze s).port = s.port ∧
    (refreshDoze s).cfg = s.cfg ∧ (refreshDoze s).alerts = s.alerts ∧ (refreshDoze s).sched = s.sched ∧
    (refreshDoze s).engine = s.engine ∧ (refreshDoze s).switch = s.switch ∧ (refreshDoze s).acc = s.acc ∧
    (refreshDoze s).trace = s.trace ∧ (refreshDoze s).comp = s.comp ∧ (refreshDoze s).store = s.store ∧
    (refreshDoze s).line = s.line ∧ (refreshDoze s).peers = s.peers ∧ (refreshDoze s).claims = s.claims ∧
    (refreshDoze s).corr = s.corr ∧ (refreshDoze s).notices = s.notices ∧ (refreshDoze s).free = s.free := by
  unfold refreshDoze; split
  · split <;> simp
  · simp

@[simp] theorem settle_keeps :
    (settle s).pending = s.pending ∧ (settle s).reference = s.reference ∧ (settle s).port = s.port ∧
    (settle s).cfg = s.cfg ∧ (settle s).alerts = s.alerts ∧ (settle s).sched = s.sched ∧
    (settle s).engine = s.engine ∧ (settle s).switch = s.switch ∧ (settle s).acc = s.acc ∧
    (settle s).trace = s.trace ∧ (settle s).comp = s.comp ∧ (settle s).store = s.store ∧
    (settle s).claims = s.claims ∧ (settle s).corr = s.corr ∧ (settle s).notices = s.notices ∧
    (settle s).free = s.free := by
  simp [settle]

@[simp] theorem copyTrace_keeps (n k : Nat) :
    (copyTrace s n k).pending = s.pending ∧ (copyTrace s n k).reference = s.reference ∧ (copyTrace s n k).port = s.port ∧
    (copyTrace s n k).cfg = s.cfg ∧ (copyTrace s n k).clock = s.clock ∧ (copyTrace s n k).alerts = s.alerts ∧
    (copyTrace s n k).sched = s.sched ∧ (copyTrace s n k).engine = s.engine ∧ (copyTrace s n k).switch = s.switch ∧
    (copyTrace s n k).acc = s.acc ∧ (copyTrace s n k).trace = s.trace ∧ (copyTrace s n k).comp = s.comp ∧
    (copyTrace s n k).line = s.line ∧ (copyTrace s n k).peers = s.peers ∧ (copyTrace s n k).claims = s.claims ∧
    (copyTrace s n k).corr = s.corr ∧ (copyTrace s n k).notices = s.notices ∧ (copyTrace s n k).free = s.free := by
  unfold copyTrace; split <;> simp

@[simp] theorem cutCopy_keeps (n : Nat) :
    (cutCopy s n).pending = s.pending ∧ (cutCopy s n).reference = s.reference ∧ (cutCopy s n).port = s.port ∧
    (cutCopy s n).cfg = s.cfg ∧ (cutCopy s n).clock = s.clock ∧ (cutCopy s n).alerts = s.alerts ∧
    (cutCopy s n).sched = s.sched ∧ (cutCopy s n).engine = s.engine ∧ (cutCopy s n).switch = s.switch ∧
    (cutCopy s n).acc = s.acc ∧ (cutCopy s n).trace = s.trace ∧ (cutCopy s n).comp = s.comp ∧
    (cutCopy s n).line = s.line ∧ (cutCopy s n).peers = s.peers ∧ (cutCopy s n).claims = s.claims ∧
    (cutCopy s n).corr = s.corr ∧ (cutCopy s n).notices = s.notices := by
  simp [cutCopy]

@[simp] theorem meet_keeps (n : Nat) (old : Request) (r : Raised) :
    (meet s n old r).pending = s.pending ∧ (meet s n old r).reference = s.reference ∧ (meet s n old r).port = s.port ∧
    (meet s n old r).cfg = s.cfg ∧ (meet s n old r).clock = s.clock ∧ (meet s n old r).alerts = s.alerts ∧
    (meet s n old r).engine = s.engine ∧ (meet s n old r).switch = s.switch ∧ (meet s n old r).acc = s.acc ∧
    (meet s n old r).trace = s.trace ∧ (meet s n old r).comp = s.comp ∧ (meet s n old r).store = s.store ∧
    (meet s n old r).line = s.line ∧ (meet s n old r).peers = s.peers ∧ (meet s n old r).claims = s.claims ∧
    (meet s n old r).corr = s.corr ∧ (meet s n old r).free = s.free := by
  unfold meet; split <;> simp

@[simp] theorem dropOutstanding_keeps (n : Nat) (t h : Option Nat) :
    (dropOutstanding s n t h).pending = s.pending ∧ (dropOutstanding s n t h).reference = s.reference ∧ (dropOutstanding s n t h).port = s.port ∧
    (dropOutstanding s n t h).cfg = s.cfg ∧ (dropOutstanding s n t h).clock = s.clock ∧ (dropOutstanding s n t h).alerts = s.alerts ∧
    (dropOutstanding s n t h).sched = s.sched ∧ (dropOutstanding s n t h).engine = s.engine ∧ (dropOutstanding s n t h).switch = s.switch ∧
    (dropOutstanding s n t h).acc = s.acc ∧ (dropOutstanding s n t h).trace = s.trace ∧ (dropOutstanding s n t h).comp = s.comp ∧
    (dropOutstanding s n t h).store = s.store ∧ (dropOutstanding s n t h).line = s.line ∧ (dropOutstanding s n t h).peers = s.peers ∧
    (dropOutstanding s n t h).claims = s.claims ∧ (dropOutstanding s n t h).notices = s.notices ∧ (dropOutstanding s n t h).free = s.free := by
  unfold dropOutstanding; split <;> simp

@[simp] theorem raise_keeps (n : Nat) (r : Raised) :
    (raise s n r).pending = s.pending ∧ (raise s n r).reference = s.reference ∧ (raise s n r).port = s.port ∧
    (raise s n r).cfg = s.cfg ∧ (raise s n r).clock = s.clock ∧ (raise s n r).alerts = s.alerts ∧
    (raise s n r).engine = s.engine ∧ (raise s n r).switch = s.switch ∧ (raise s n r).acc = s.acc ∧
    (raise s n r).trace = s.trace ∧ (raise s n r).comp = s.comp ∧ (raise s n r).store = s.store ∧
    (raise s n r).line = s.line ∧ (raise s n r).peers = s.peers ∧ (raise s n r).claims = s.claims ∧
    (raise s n r).free = s.free := by
  unfold raise; split
  · split <;> simp
  · split <;> simp

@[simp] theorem raiseAlert_keeps (n : Nat) :
    (raiseAlert s n).pending = s.pending ∧ (raiseAlert s n).reference = s.reference ∧ (raiseAlert s n).port = s.port ∧
    (raiseAlert s n).cfg = s.cfg ∧ (raiseAlert s n).clock = s.clock ∧ (raiseAlert s n).alerts = s.alerts ∧
    (raiseAlert s n).engine = s.engine ∧ (raiseAlert s n).switch = s.switch ∧ (raiseAlert s n).acc = s.acc ∧
    (raiseAlert s n).trace = s.trace ∧ (raiseAlert s n).comp = s.comp ∧ (raiseAlert s n).store = s.store ∧
    (raiseAlert s n).line = s.line ∧ (raiseAlert s n).peers = s.peers ∧ (raiseAlert s n).claims = s.claims ∧
    (raiseAlert s n).free = s.free := by
  simp [raiseAlert]

@[simp] theorem levelTest_keeps (n : Nat) :
    (levelTest s n).pending = s.pending ∧ (levelTest s n).reference = s.reference ∧ (levelTest s n).port = s.port ∧
    (levelTest s n).cfg = s.cfg ∧ (levelTest s n).clock = s.clock ∧ (levelTest s n).alerts = s.alerts ∧
    (levelTest s n).engine = s.engine ∧ (levelTest s n).switch = s.switch ∧ (levelTest s n).acc = s.acc ∧
    (levelTest s n).trace = s.trace ∧ (levelTest s n).comp = s.comp ∧ (levelTest s n).store = s.store ∧
    (levelTest s n).line = s.line ∧ (levelTest s n).peers = s.peers ∧ (levelTest s n).claims = s.claims ∧
    (levelTest s n).free = s.free := by
  unfold levelTest; split <;> simp

@[simp] theorem startReRaise_keeps (n : Nat) :
    (startReRaise s n).pending = s.pending ∧ (startReRaise s n).reference = s.reference ∧ (startReRaise s n).port = s.port ∧
    (startReRaise s n).cfg = s.cfg ∧ (startReRaise s n).clock = s.clock ∧ (startReRaise s n).sched = s.sched ∧
    (startReRaise s n).engine = s.engine ∧ (startReRaise s n).switch = s.switch ∧ (startReRaise s n).acc = s.acc ∧
    (startReRaise s n).trace = s.trace ∧ (startReRaise s n).comp = s.comp ∧ (startReRaise s n).store = s.store ∧
    (startReRaise s n).line = s.line ∧ (startReRaise s n).peers = s.peers ∧ (startReRaise s n).claims = s.claims ∧
    (startReRaise s n).corr = s.corr ∧ (startReRaise s n).notices = s.notices ∧ (startReRaise s n).free = s.free := by
  unfold startReRaise; split <;> simp

@[simp] theorem sweepOver_keeps (c : Ctx) :
    (sweepOver s c).pending = s.pending ∧ (sweepOver s c).reference = s.reference ∧ (sweepOver s c).port = s.port ∧
    (sweepOver s c).cfg = s.cfg ∧ (sweepOver s c).clock = s.clock ∧ (sweepOver s c).sched = s.sched ∧
    (sweepOver s c).engine = s.engine ∧ (sweepOver s c).switch = s.switch ∧ (sweepOver s c).acc = s.acc ∧
    (sweepOver s c).trace = s.trace ∧ (sweepOver s c).comp = s.comp ∧ (sweepOver s c).store = s.store ∧
    (sweepOver s c).line = s.line ∧ (sweepOver s c).peers = s.peers ∧ (sweepOver s c).claims = s.claims ∧
    (sweepOver s c).corr = s.corr ∧ (sweepOver s c).notices = s.notices ∧ (sweepOver s c).free = s.free := by
  unfold sweepOver; split <;> simp

@[simp] theorem offerFinding_keeps (h : Nat) (r : Report) :
    (offerFinding s h r).pending = s.pending ∧ (offerFinding s h r).reference = s.reference ∧ (offerFinding s h r).port = s.port ∧
    (offerFinding s h r).cfg = s.cfg ∧ (offerFinding s h r).clock = s.clock ∧ (offerFinding s h r).alerts = s.alerts ∧
    (offerFinding s h r).sched = s.sched ∧ (offerFinding s h r).engine = s.engine ∧ (offerFinding s h r).switch = s.switch ∧
    (offerFinding s h r).acc = s.acc ∧ (offerFinding s h r).trace = s.trace ∧ (offerFinding s h r).comp = s.comp ∧
    (offerFinding s h r).store = s.store ∧ (offerFinding s h r).peers = s.peers ∧ (offerFinding s h r).claims = s.claims ∧
    (offerFinding s h r).corr = s.corr ∧ (offerFinding s h r).notices = s.notices ∧ (offerFinding s h r).free = s.free := by
  simp [offerFinding]

@[simp] theorem issueVerdict_keeps (h : Nat) (r : OpenRound) (b : Bool) :
    (issueVerdict s h r b).pending = s.pending ∧ (issueVerdict s h r b).reference = s.reference ∧ (issueVerdict s h r b).port = s.port ∧
    (issueVerdict s h r b).cfg = s.cfg ∧ (issueVerdict s h r b).clock = s.clock ∧ (issueVerdict s h r b).alerts = s.alerts ∧
    (issueVerdict s h r b).sched = s.sched ∧ (issueVerdict s h r b).engine = s.engine ∧ (issueVerdict s h r b).switch = s.switch ∧
    (issueVerdict s h r b).acc = s.acc ∧ (issueVerdict s h r b).trace = s.trace ∧ (issueVerdict s h r b).comp = s.comp ∧
    (issueVerdict s h r b).store = s.store ∧ (issueVerdict s h r b).line = s.line ∧ (issueVerdict s h r b).peers = s.peers ∧
    (issueVerdict s h r b).claims = s.claims ∧ (issueVerdict s h r b).free = s.free := by
  simp [issueVerdict]

@[simp] theorem completionCheck_keeps (h : Nat) :
    (completionCheck s h).pending = s.pending ∧ (completionCheck s h).reference = s.reference ∧ (completionCheck s h).port = s.port ∧
    (completionCheck s h).cfg = s.cfg ∧ (completionCheck s h).clock = s.clock ∧ (completionCheck s h).alerts = s.alerts ∧
    (completionCheck s h).sched = s.sched ∧ (completionCheck s h).engine = s.engine ∧ (completionCheck s h).switch = s.switch ∧
    (completionCheck s h).acc = s.acc ∧ (completionCheck s h).trace = s.trace ∧ (completionCheck s h).comp = s.comp ∧
    (completionCheck s h).store = s.store ∧ (completionCheck s h).line = s.line ∧ (completionCheck s h).peers = s.peers ∧
    (completionCheck s h).claims = s.claims ∧ (completionCheck s h).free = s.free := by
  unfold completionCheck; split
  · split <;> simp
  all_goals simp

@[simp] theorem makeReport_keeps (h : Nat) (r : OpenRound) :
    (makeReport s h r).pending = s.pending ∧ (makeReport s h r).reference = s.reference ∧ (makeReport s h r).port = s.port ∧
    (makeReport s h r).cfg = s.cfg ∧ (makeReport s h r).clock = s.clock ∧ (makeReport s h r).alerts = s.alerts ∧
    (makeReport s h r).sched = s.sched ∧ (makeReport s h r).engine = s.engine ∧ (makeReport s h r).switch = s.switch ∧
    (makeReport s h r).acc = s.acc ∧ (makeReport s h r).trace = s.trace ∧ (makeReport s h r).comp = s.comp ∧
    (makeReport s h r).store = s.store ∧ (makeReport s h r).peers = s.peers ∧ (makeReport s h r).claims = s.claims ∧
    (makeReport s h r).free = s.free := by
  simp [makeReport]

@[simp] theorem decideSpan_keeps (n : Nat) (t h : Option Nat) (f : Option (List Best)) :
    (decideSpan s n t h f).pending = s.pending ∧ (decideSpan s n t h f).reference = s.reference ∧ (decideSpan s n t h f).port = s.port ∧
    (decideSpan s n t h f).cfg = s.cfg ∧ (decideSpan s n t h f).clock = s.clock ∧ (decideSpan s n t h f).alerts = s.alerts ∧
    (decideSpan s n t h f).sched = s.sched ∧ (decideSpan s n t h f).engine = s.engine ∧ (decideSpan s n t h f).switch = s.switch ∧
    (decideSpan s n t h f).acc = s.acc ∧ (decideSpan s n t h f).trace = s.trace ∧ (decideSpan s n t h f).comp = s.comp ∧
    (decideSpan s n t h f).store = s.store ∧ (decideSpan s n t h f).peers = s.peers ∧ (decideSpan s n t h f).claims = s.claims ∧
    (decideSpan s n t h f).free = s.free := by
  unfold decideSpan; repeat' split
  all_goals simp

@[simp] theorem unableRound_keeps (h : Nat) :
    (unableRound s h).pending = s.pending ∧ (unableRound s h).reference = s.reference ∧ (unableRound s h).port = s.port ∧
    (unableRound s h).cfg = s.cfg ∧ (unableRound s h).clock = s.clock ∧ (unableRound s h).alerts = s.alerts ∧
    (unableRound s h).sched = s.sched ∧ (unableRound s h).engine = s.engine ∧ (unableRound s h).switch = s.switch ∧
    (unableRound s h).acc = s.acc ∧ (unableRound s h).trace = s.trace ∧ (unableRound s h).comp = s.comp ∧
    (unableRound s h).store = s.store ∧ (unableRound s h).peers = s.peers ∧ (unableRound s h).claims = s.claims ∧
    (unableRound s h).free = s.free := by
  unfold unableRound; repeat' split
  all_goals simp

@[simp] theorem unableBegins_keeps :
    (unableBegins s).pending = s.pending ∧ (unableBegins s).reference = s.reference ∧ (unableBegins s).port = s.port ∧
    (unableBegins s).cfg = s.cfg ∧ (unableBegins s).clock = s.clock ∧ (unableBegins s).alerts = s.alerts ∧
    (unableBegins s).sched = s.sched ∧ (unableBegins s).engine = s.engine ∧ (unableBegins s).switch = s.switch ∧
    (unableBegins s).acc = s.acc ∧ (unableBegins s).trace = s.trace ∧ (unableBegins s).comp = s.comp ∧
    (unableBegins s).store = s.store ∧ (unableBegins s).peers = s.peers ∧ (unableBegins s).claims = s.claims ∧
    (unableBegins s).free = s.free := by
  refine ⟨foldl_keeps (·.pending) unableRound (by simp) _ s, foldl_keeps (·.reference) unableRound (by simp) _ s, foldl_keeps (·.port) unableRound (by simp) _ s, foldl_keeps (·.cfg) unableRound (by simp) _ s, foldl_keeps (·.clock) unableRound (by simp) _ s, foldl_keeps (·.alerts) unableRound (by simp) _ s, foldl_keeps (·.sched) unableRound (by simp) _ s, foldl_keeps (·.engine) unableRound (by simp) _ s, foldl_keeps (·.switch) unableRound (by simp) _ s, foldl_keeps (·.acc) unableRound (by simp) _ s, foldl_keeps (·.trace) unableRound (by simp) _ s, foldl_keeps (·.comp) unableRound (by simp) _ s, foldl_keeps (·.store) unableRound (by simp) _ s, foldl_keeps (·.peers) unableRound (by simp) _ s, foldl_keeps (·.claims) unableRound (by simp) _ s, foldl_keeps (·.free) unableRound (by simp) _ s⟩

@[simp] theorem raiseConfirm_keeps (n t h : Nat) :
    (raiseConfirm s n t h).pending = s.pending ∧ (raiseConfirm s n t h).reference = s.reference ∧ (raiseConfirm s n t h).port = s.port ∧
    (raiseConfirm s n t h).cfg = s.cfg ∧ (raiseConfirm s n t h).clock = s.clock ∧ (raiseConfirm s n t h).alerts = s.alerts ∧
    (raiseConfirm s n t h).engine = s.engine ∧ (raiseConfirm s n t h).switch = s.switch ∧ (raiseConfirm s n t h).acc = s.acc ∧
    (raiseConfirm s n t h).trace = s.trace ∧ (raiseConfirm s n t h).comp = s.comp ∧ (raiseConfirm s n t h).store = s.store ∧
    (raiseConfirm s n t h).line = s.line ∧ (raiseConfirm s n t h).peers = s.peers ∧ (raiseConfirm s n t h).claims = s.claims ∧
    (raiseConfirm s n t h).free = s.free := by
  simp [raiseConfirm]

@[simp] theorem ownConfirm_keeps (h d own : Nat) (e : Nat × SpanRecord) :
    (ownConfirm h d own s e).pending = s.pending ∧ (ownConfirm h d own s e).reference = s.reference ∧ (ownConfirm h d own s e).port = s.port ∧
    (ownConfirm h d own s e).cfg = s.cfg ∧ (ownConfirm h d own s e).clock = s.clock ∧ (ownConfirm h d own s e).alerts = s.alerts ∧
    (ownConfirm h d own s e).engine = s.engine ∧ (ownConfirm h d own s e).switch = s.switch ∧ (ownConfirm h d own s e).acc = s.acc ∧
    (ownConfirm h d own s e).trace = s.trace ∧ (ownConfirm h d own s e).comp = s.comp ∧ (ownConfirm h d own s e).store = s.store ∧
    (ownConfirm h d own s e).line = s.line ∧ (ownConfirm h d own s e).peers = s.peers ∧ (ownConfirm h d own s e).claims = s.claims ∧
    (ownConfirm h d own s e).free = s.free := by
  unfold ownConfirm; split <;> simp

@[simp] theorem openOwnRound_keeps (h n : Nat) (k : ReportKind) (d : Nat) :
    (openOwnRound s h n k d).pending = s.pending ∧ (openOwnRound s h n k d).reference = s.reference ∧ (openOwnRound s h n k d).port = s.port ∧
    (openOwnRound s h n k d).cfg = s.cfg ∧ (openOwnRound s h n k d).alerts = s.alerts ∧ (openOwnRound s h n k d).engine = s.engine ∧
    (openOwnRound s h n k d).switch = s.switch ∧ (openOwnRound s h n k d).acc = s.acc ∧ (openOwnRound s h n k d).trace = s.trace ∧
    (openOwnRound s h n k d).comp = s.comp ∧ (openOwnRound s h n k d).store = s.store ∧ (openOwnRound s h n k d).peers = s.peers ∧
    (openOwnRound s h n k d).claims = s.claims ∧ (openOwnRound s h n k d).free = s.free := by
  simp only [openOwnRound, completionCheck_keeps]
  refine ⟨(foldl_keeps (·.pending) (ownConfirm h d n) (by simp) _ _).trans (by simp), (foldl_keeps (·.reference) (ownConfirm h d n) (by simp) _ _).trans (by simp), (foldl_keeps (·.port) (ownConfirm h d n) (by simp) _ _).trans (by simp), (foldl_keeps (·.cfg) (ownConfirm h d n) (by simp) _ _).trans (by simp), (foldl_keeps (·.alerts) (ownConfirm h d n) (by simp) _ _).trans (by simp), (foldl_keeps (·.engine) (ownConfirm h d n) (by simp) _ _).trans (by simp), (foldl_keeps (·.switch) (ownConfirm h d n) (by simp) _ _).trans (by simp), (foldl_keeps (·.acc) (ownConfirm h d n) (by simp) _ _).trans (by simp), (foldl_keeps (·.trace) (ownConfirm h d n) (by simp) _ _).trans (by simp), (foldl_keeps (·.comp) (ownConfirm h d n) (by simp) _ _).trans (by simp), (foldl_keeps (·.store) (ownConfirm h d n) (by simp) _ _).trans (by simp), (foldl_keeps (·.peers) (ownConfirm h d n) (by simp) _ _).trans (by simp), (foldl_keeps (·.claims) (ownConfirm h d n) (by simp) _ _).trans (by simp), (foldl_keeps (·.free) (ownConfirm h d n) (by simp) _ _).trans (by simp)⟩

@[simp] theorem heardConfirm_keeps (h d : Nat) (e : Nat × SpanRecord) :
    (heardConfirm h d s e).pending = s.pending ∧ (heardConfirm h d s e).reference = s.reference ∧ (heardConfirm h d s e).port = s.port ∧
    (heardConfirm h d s e).cfg = s.cfg ∧ (heardConfirm h d s e).clock = s.clock ∧ (heardConfirm h d s e).alerts = s.alerts ∧
    (heardConfirm h d s e).engine = s.engine ∧ (heardConfirm h d s e).switch = s.switch ∧ (heardConfirm h d s e).acc = s.acc ∧
    (heardConfirm h d s e).trace = s.trace ∧ (heardConfirm h d s e).comp = s.comp ∧ (heardConfirm h d s e).store = s.store ∧
    (heardConfirm h d s e).line = s.line ∧ (heardConfirm h d s e).peers = s.peers ∧ (heardConfirm h d s e).claims = s.claims ∧
    (heardConfirm h d s e).free = s.free := by
  unfold heardConfirm; split <;> simp

@[simp] theorem reportIfDecided_keeps (h : Nat) :
    (reportIfDecided s h).pending = s.pending ∧ (reportIfDecided s h).reference = s.reference ∧ (reportIfDecided s h).port = s.port ∧
    (reportIfDecided s h).cfg = s.cfg ∧ (reportIfDecided s h).clock = s.clock ∧ (reportIfDecided s h).alerts = s.alerts ∧
    (reportIfDecided s h).sched = s.sched ∧ (reportIfDecided s h).engine = s.engine ∧ (reportIfDecided s h).switch = s.switch ∧
    (reportIfDecided s h).acc = s.acc ∧ (reportIfDecided s h).trace = s.trace ∧ (reportIfDecided s h).comp = s.comp ∧
    (reportIfDecided s h).store = s.store ∧ (reportIfDecided s h).peers = s.peers ∧ (reportIfDecided s h).claims = s.claims ∧
    (reportIfDecided s h).free = s.free := by
  unfold reportIfDecided; repeat' split
  all_goals simp

@[simp] theorem openHeardRound_keeps (h x : Nat) (k : ReportKind) (d : Nat) :
    (openHeardRound s h x k d).pending = s.pending ∧ (openHeardRound s h x k d).reference = s.reference ∧ (openHeardRound s h x k d).port = s.port ∧
    (openHeardRound s h x k d).cfg = s.cfg ∧ (openHeardRound s h x k d).alerts = s.alerts ∧ (openHeardRound s h x k d).engine = s.engine ∧
    (openHeardRound s h x k d).switch = s.switch ∧ (openHeardRound s h x k d).acc = s.acc ∧ (openHeardRound s h x k d).trace = s.trace ∧
    (openHeardRound s h x k d).comp = s.comp ∧ (openHeardRound s h x k d).store = s.store ∧ (openHeardRound s h x k d).claims = s.claims ∧
    (openHeardRound s h x k d).free = s.free := by
  unfold openHeardRound; simp only []; split
  · simp
  · simp only [reportIfDecided_keeps]
    refine ⟨(foldl_keeps (·.pending) (heardConfirm h d) (by simp) _ _).trans (by simp), (foldl_keeps (·.reference) (heardConfirm h d) (by simp) _ _).trans (by simp), (foldl_keeps (·.port) (heardConfirm h d) (by simp) _ _).trans (by simp), (foldl_keeps (·.cfg) (heardConfirm h d) (by simp) _ _).trans (by simp), (foldl_keeps (·.alerts) (heardConfirm h d) (by simp) _ _).trans (by simp), (foldl_keeps (·.engine) (heardConfirm h d) (by simp) _ _).trans (by simp), (foldl_keeps (·.switch) (heardConfirm h d) (by simp) _ _).trans (by simp), (foldl_keeps (·.acc) (heardConfirm h d) (by simp) _ _).trans (by simp), (foldl_keeps (·.trace) (heardConfirm h d) (by simp) _ _).trans (by simp), (foldl_keeps (·.comp) (heardConfirm h d) (by simp) _ _).trans (by simp), (foldl_keeps (·.store) (heardConfirm h d) (by simp) _ _).trans (by simp), (foldl_keeps (·.claims) (heardConfirm h d) (by simp) _ _).trans (by simp), (foldl_keeps (·.free) (heardConfirm h d) (by simp) _ _).trans (by simp)⟩

@[simp] theorem takeFinding_keeps (x h : Nat) (rep : Report) :
    (takeFinding s x h rep).pending = s.pending ∧ (takeFinding s x h rep).reference = s.reference ∧ (takeFinding s x h rep).port = s.port ∧
    (takeFinding s x h rep).cfg = s.cfg ∧ (takeFinding s x h rep).alerts = s.alerts ∧ (takeFinding s x h rep).engine = s.engine ∧
    (takeFinding s x h rep).switch = s.switch ∧ (takeFinding s x h rep).acc = s.acc ∧ (takeFinding s x h rep).trace = s.trace ∧
    (takeFinding s x h rep).comp = s.comp ∧ (takeFinding s x h rep).store = s.store ∧ (takeFinding s x h rep).claims = s.claims ∧
    (takeFinding s x h rep).free = s.free := by
  unfold takeFinding; repeat' split
  all_goals simp

@[simp] theorem reOffer_keeps (h : Nat) (r : OpenRound) :
    (reOffer s h r).pending = s.pending ∧ (reOffer s h r).reference = s.reference ∧ (reOffer s h r).port = s.port ∧
    (reOffer s h r).cfg = s.cfg ∧ (reOffer s h r).clock = s.clock ∧ (reOffer s h r).alerts = s.alerts ∧
    (reOffer s h r).sched = s.sched ∧ (reOffer s h r).engine = s.engine ∧ (reOffer s h r).switch = s.switch ∧
    (reOffer s h r).acc = s.acc ∧ (reOffer s h r).trace = s.trace ∧ (reOffer s h r).comp = s.comp ∧
    (reOffer s h r).store = s.store ∧ (reOffer s h r).peers = s.peers ∧ (reOffer s h r).claims = s.claims ∧
    (reOffer s h r).corr = s.corr ∧ (reOffer s h r).notices = s.notices ∧ (reOffer s h r).free = s.free := by
  unfold reOffer; repeat' split
  all_goals simp

@[simp] theorem peerChangeRound_keeps (a : List Nat) (h : Nat) :
    (peerChangeRound a s h).pending = s.pending ∧ (peerChangeRound a s h).reference = s.reference ∧ (peerChangeRound a s h).port = s.port ∧
    (peerChangeRound a s h).cfg = s.cfg ∧ (peerChangeRound a s h).clock = s.clock ∧ (peerChangeRound a s h).alerts = s.alerts ∧
    (peerChangeRound a s h).sched = s.sched ∧ (peerChangeRound a s h).engine = s.engine ∧ (peerChangeRound a s h).switch = s.switch ∧
    (peerChangeRound a s h).acc = s.acc ∧ (peerChangeRound a s h).trace = s.trace ∧ (peerChangeRound a s h).comp = s.comp ∧
    (peerChangeRound a s h).store = s.store ∧ (peerChangeRound a s h).peers = s.peers ∧ (peerChangeRound a s h).claims = s.claims ∧
    (peerChangeRound a s h).free = s.free := by
  unfold peerChangeRound; repeat' split
  all_goals simp

@[simp] theorem peerTableChange_keeps (a : List Nat) :
    (peerTableChange s a).pending = s.pending ∧ (peerTableChange s a).reference = s.reference ∧ (peerTableChange s a).port = s.port ∧
    (peerTableChange s a).cfg = s.cfg ∧ (peerTableChange s a).clock = s.clock ∧ (peerTableChange s a).alerts = s.alerts ∧
    (peerTableChange s a).sched = s.sched ∧ (peerTableChange s a).engine = s.engine ∧ (peerTableChange s a).switch = s.switch ∧
    (peerTableChange s a).acc = s.acc ∧ (peerTableChange s a).trace = s.trace ∧ (peerTableChange s a).comp = s.comp ∧
    (peerTableChange s a).store = s.store ∧ (peerTableChange s a).peers = s.peers ∧ (peerTableChange s a).claims = s.claims ∧
    (peerTableChange s a).free = s.free := by
  refine ⟨foldl_keeps (·.pending) (peerChangeRound a) (by simp) _ s, foldl_keeps (·.reference) (peerChangeRound a) (by simp) _ s, foldl_keeps (·.port) (peerChangeRound a) (by simp) _ s, foldl_keeps (·.cfg) (peerChangeRound a) (by simp) _ s, foldl_keeps (·.clock) (peerChangeRound a) (by simp) _ s, foldl_keeps (·.alerts) (peerChangeRound a) (by simp) _ s, foldl_keeps (·.sched) (peerChangeRound a) (by simp) _ s, foldl_keeps (·.engine) (peerChangeRound a) (by simp) _ s, foldl_keeps (·.switch) (peerChangeRound a) (by simp) _ s, foldl_keeps (·.acc) (peerChangeRound a) (by simp) _ s, foldl_keeps (·.trace) (peerChangeRound a) (by simp) _ s, foldl_keeps (·.comp) (peerChangeRound a) (by simp) _ s, foldl_keeps (·.store) (peerChangeRound a) (by simp) _ s, foldl_keeps (·.peers) (peerChangeRound a) (by simp) _ s, foldl_keeps (·.claims) (peerChangeRound a) (by simp) _ s, foldl_keeps (·.free) (peerChangeRound a) (by simp) _ s⟩

@[simp] theorem askClaim_keeps (g l : Nat) :
    (askClaim s g l).pending = s.pending ∧ (askClaim s g l).reference = s.reference ∧ (askClaim s g l).port = s.port ∧
    (askClaim s g l).cfg = s.cfg ∧ (askClaim s g l).clock = s.clock ∧ (askClaim s g l).alerts = s.alerts ∧
    (askClaim s g l).sched = s.sched ∧ (askClaim s g l).engine = s.engine ∧ (askClaim s g l).switch = s.switch ∧
    (askClaim s g l).acc = s.acc ∧ (askClaim s g l).trace = s.trace ∧ (askClaim s g l).comp = s.comp ∧
    (askClaim s g l).store = s.store ∧ (askClaim s g l).peers = s.peers ∧ (askClaim s g l).corr = s.corr ∧
    (askClaim s g l).notices = s.notices ∧ (askClaim s g l).free = s.free := by
  unfold askClaim; split <;> simp

@[simp] theorem releaseClaim_keeps (g : Nat) :
    (releaseClaim s g).pending = s.pending ∧ (releaseClaim s g).reference = s.reference ∧ (releaseClaim s g).port = s.port ∧
    (releaseClaim s g).cfg = s.cfg ∧ (releaseClaim s g).clock = s.clock ∧ (releaseClaim s g).alerts = s.alerts ∧
    (releaseClaim s g).sched = s.sched ∧ (releaseClaim s g).engine = s.engine ∧ (releaseClaim s g).switch = s.switch ∧
    (releaseClaim s g).acc = s.acc ∧ (releaseClaim s g).trace = s.trace ∧ (releaseClaim s g).comp = s.comp ∧
    (releaseClaim s g).store = s.store ∧ (releaseClaim s g).peers = s.peers ∧ (releaseClaim s g).corr = s.corr ∧
    (releaseClaim s g).notices = s.notices ∧ (releaseClaim s g).free = s.free := by
  unfold releaseClaim; split <;> simp

@[simp] theorem giveUpClaim_keeps (g : Nat) :
    (giveUpClaim s g).pending = s.pending ∧ (giveUpClaim s g).reference = s.reference ∧ (giveUpClaim s g).port = s.port ∧
    (giveUpClaim s g).cfg = s.cfg ∧ (giveUpClaim s g).clock = s.clock ∧ (giveUpClaim s g).alerts = s.alerts ∧
    (giveUpClaim s g).sched = s.sched ∧ (giveUpClaim s g).engine = s.engine ∧ (giveUpClaim s g).switch = s.switch ∧
    (giveUpClaim s g).acc = s.acc ∧ (giveUpClaim s g).trace = s.trace ∧ (giveUpClaim s g).comp = s.comp ∧
    (giveUpClaim s g).store = s.store ∧ (giveUpClaim s g).peers = s.peers ∧ (giveUpClaim s g).corr = s.corr ∧
    (giveUpClaim s g).notices = s.notices ∧ (giveUpClaim s g).free = s.free := by
  unfold giveUpClaim; repeat' split
  all_goals simp

@[simp] theorem withdrawClaim_keeps (g x l a : Nat) :
    (withdrawClaim s g x l a).pending = s.pending ∧ (withdrawClaim s g x l a).reference = s.reference ∧ (withdrawClaim s g x l a).port = s.port ∧
    (withdrawClaim s g x l a).cfg = s.cfg ∧ (withdrawClaim s g x l a).clock = s.clock ∧ (withdrawClaim s g x l a).alerts = s.alerts ∧
    (withdrawClaim s g x l a).sched = s.sched ∧ (withdrawClaim s g x l a).engine = s.engine ∧ (withdrawClaim s g x l a).switch = s.switch ∧
    (withdrawClaim s g x l a).acc = s.acc ∧ (withdrawClaim s g x l a).trace = s.trace ∧ (withdrawClaim s g x l a).comp = s.comp ∧
    (withdrawClaim s g x l a).store = s.store ∧ (withdrawClaim s g x l a).peers = s.peers ∧ (withdrawClaim s g x l a).corr = s.corr ∧
    (withdrawClaim s g x l a).notices = s.notices ∧ (withdrawClaim s g x l a).free = s.free := by
  unfold withdrawClaim; repeat' split
  all_goals simp

@[simp] theorem loseOpen_keeps (g x l a : Nat) :
    (loseOpen s g x l a).pending = s.pending ∧ (loseOpen s g x l a).reference = s.reference ∧ (loseOpen s g x l a).port = s.port ∧
    (loseOpen s g x l a).cfg = s.cfg ∧ (loseOpen s g x l a).clock = s.clock ∧ (loseOpen s g x l a).alerts = s.alerts ∧
    (loseOpen s g x l a).sched = s.sched ∧ (loseOpen s g x l a).engine = s.engine ∧ (loseOpen s g x l a).switch = s.switch ∧
    (loseOpen s g x l a).acc = s.acc ∧ (loseOpen s g x l a).trace = s.trace ∧ (loseOpen s g x l a).comp = s.comp ∧
    (loseOpen s g x l a).store = s.store ∧ (loseOpen s g x l a).peers = s.peers ∧ (loseOpen s g x l a).corr = s.corr ∧
    (loseOpen s g x l a).notices = s.notices ∧ (loseOpen s g x l a).free = s.free := by
  simp [loseOpen]

@[simp] theorem recordHolder_keeps (g x l a : Nat) :
    (recordHolder s g x l a).pending = s.pending ∧ (recordHolder s g x l a).reference = s.reference ∧ (recordHolder s g x l a).port = s.port ∧
    (recordHolder s g x l a).cfg = s.cfg ∧ (recordHolder s g x l a).clock = s.clock ∧ (recordHolder s g x l a).alerts = s.alerts ∧
    (recordHolder s g x l a).sched = s.sched ∧ (recordHolder s g x l a).engine = s.engine ∧ (recordHolder s g x l a).switch = s.switch ∧
    (recordHolder s g x l a).acc = s.acc ∧ (recordHolder s g x l a).trace = s.trace ∧ (recordHolder s g x l a).comp = s.comp ∧
    (recordHolder s g x l a).store = s.store ∧ (recordHolder s g x l a).line = s.line ∧ (recordHolder s g x l a).peers = s.peers ∧
    (recordHolder s g x l a).corr = s.corr ∧ (recordHolder s g x l a).notices = s.notices ∧ (recordHolder s g x l a).free = s.free := by
  simp [recordHolder]

@[simp] theorem claimTransmitted_keeps (g : Nat) :
    (claimTransmitted s g).pending = s.pending ∧ (claimTransmitted s g).reference = s.reference ∧ (claimTransmitted s g).port = s.port ∧
    (claimTransmitted s g).cfg = s.cfg ∧ (claimTransmitted s g).clock = s.clock ∧ (claimTransmitted s g).alerts = s.alerts ∧
    (claimTransmitted s g).sched = s.sched ∧ (claimTransmitted s g).engine = s.engine ∧ (claimTransmitted s g).switch = s.switch ∧
    (claimTransmitted s g).acc = s.acc ∧ (claimTransmitted s g).trace = s.trace ∧ (claimTransmitted s g).comp = s.comp ∧
    (claimTransmitted s g).store = s.store ∧ (claimTransmitted s g).peers = s.peers ∧ (claimTransmitted s g).corr = s.corr ∧
    (claimTransmitted s g).notices = s.notices ∧ (claimTransmitted s g).free = s.free := by
  unfold claimTransmitted; split <;> simp

@[simp] theorem sendSwitch_keeps (p : Nat) :
    (sendSwitch s p).pending = s.pending ∧ (sendSwitch s p).reference = s.reference ∧ (sendSwitch s p).port = s.port ∧
    (sendSwitch s p).cfg = s.cfg ∧ (sendSwitch s p).clock = s.clock ∧ (sendSwitch s p).alerts = s.alerts ∧
    (sendSwitch s p).sched = s.sched ∧ (sendSwitch s p).engine = s.engine ∧ (sendSwitch s p).acc = s.acc ∧
    (sendSwitch s p).trace = s.trace ∧ (sendSwitch s p).comp = s.comp ∧ (sendSwitch s p).store = s.store ∧
    (sendSwitch s p).line = s.line ∧ (sendSwitch s p).peers = s.peers ∧ (sendSwitch s p).claims = s.claims ∧
    (sendSwitch s p).corr = s.corr ∧ (sendSwitch s p).notices = s.notices ∧ (sendSwitch s p).free = s.free := by
  unfold sendSwitch; repeat' split
  all_goals simp

@[simp] theorem checkPrepared_keeps :
    (checkPrepared s).pending = s.pending ∧ (checkPrepared s).reference = s.reference ∧ (checkPrepared s).port = s.port ∧
    (checkPrepared s).cfg = s.cfg ∧ (checkPrepared s).clock = s.clock ∧ (checkPrepared s).alerts = s.alerts ∧
    (checkPrepared s).sched = s.sched ∧ (checkPrepared s).switch = s.switch ∧ (checkPrepared s).acc = s.acc ∧
    (checkPrepared s).trace = s.trace ∧ (checkPrepared s).comp = s.comp ∧ (checkPrepared s).store = s.store ∧
    (checkPrepared s).line = s.line ∧ (checkPrepared s).peers = s.peers ∧ (checkPrepared s).claims = s.claims ∧
    (checkPrepared s).corr = s.corr ∧ (checkPrepared s).notices = s.notices ∧ (checkPrepared s).free = s.free := by
  unfold checkPrepared; repeat' split
  all_goals simp

@[simp] theorem takeSlot_keeps (n : Nat) :
    (takeSlot s n).pending = s.pending ∧ (takeSlot s n).reference = s.reference ∧ (takeSlot s n).port = s.port ∧
    (takeSlot s n).cfg = s.cfg ∧ (takeSlot s n).clock = s.clock ∧ (takeSlot s n).alerts = s.alerts ∧
    (takeSlot s n).switch = s.switch ∧ (takeSlot s n).trace = s.trace ∧ (takeSlot s n).comp = s.comp ∧
    (takeSlot s n).store = s.store ∧ (takeSlot s n).line = s.line ∧ (takeSlot s n).peers = s.peers ∧
    (takeSlot s n).claims = s.claims ∧ (takeSlot s n).corr = s.corr ∧ (takeSlot s n).notices = s.notices ∧
    (takeSlot s n).free = s.free := by
  unfold takeSlot; split <;> simp

@[simp] theorem claimOpened_keeps (g : Nat) :
    (claimOpened s g).pending = s.pending ∧ (claimOpened s g).reference = s.reference ∧ (claimOpened s g).port = s.port ∧
    (claimOpened s g).cfg = s.cfg ∧ (claimOpened s g).clock = s.clock ∧ (claimOpened s g).alerts = s.alerts ∧
    (claimOpened s g).switch = s.switch ∧ (claimOpened s g).trace = s.trace ∧ (claimOpened s g).comp = s.comp ∧
    (claimOpened s g).store = s.store ∧ (claimOpened s g).line = s.line ∧ (claimOpened s g).peers = s.peers ∧
    (claimOpened s g).claims = s.claims ∧ (claimOpened s g).corr = s.corr ∧ (claimOpened s g).notices = s.notices ∧
    (claimOpened s g).free = s.free := by
  unfold claimOpened; repeat' split
  all_goals simp

@[simp] theorem giveBack_keeps :
    (giveBack s).pending = s.pending ∧ (giveBack s).reference = s.reference ∧ (giveBack s).port = s.port ∧
    (giveBack s).cfg = s.cfg ∧ (giveBack s).clock = s.clock ∧ (giveBack s).alerts = s.alerts ∧
    (giveBack s).switch = s.switch ∧ (giveBack s).trace = s.trace ∧ (giveBack s).comp = s.comp ∧
    (giveBack s).store = s.store ∧ (giveBack s).line = s.line ∧ (giveBack s).peers = s.peers ∧
    (giveBack s).claims = s.claims ∧ (giveBack s).corr = s.corr ∧ (giveBack s).notices = s.notices ∧
    (giveBack s).free = s.free := by
  unfold giveBack; split <;> simp

@[simp] theorem seekClaim_keeps (g l : Nat) :
    (seekClaim s g l).pending = s.pending ∧ (seekClaim s g l).reference = s.reference ∧ (seekClaim s g l).port = s.port ∧
    (seekClaim s g l).cfg = s.cfg ∧ (seekClaim s g l).clock = s.clock ∧ (seekClaim s g l).alerts = s.alerts ∧
    (seekClaim s g l).switch = s.switch ∧ (seekClaim s g l).trace = s.trace ∧ (seekClaim s g l).comp = s.comp ∧
    (seekClaim s g l).store = s.store ∧ (seekClaim s g l).peers = s.peers ∧ (seekClaim s g l).corr = s.corr ∧
    (seekClaim s g l).notices = s.notices ∧ (seekClaim s g l).free = s.free := by
  unfold seekClaim; simp only []; split <;> simp

@[simp] theorem beginSlot_keeps (n l : Nat) :
    (beginSlot s n l).pending = s.pending ∧ (beginSlot s n l).reference = s.reference ∧ (beginSlot s n l).port = s.port ∧
    (beginSlot s n l).cfg = s.cfg ∧ (beginSlot s n l).alerts = s.alerts ∧ (beginSlot s n l).trace = s.trace ∧
    (beginSlot s n l).comp = s.comp ∧ (beginSlot s n l).store = s.store ∧ (beginSlot s n l).peers = s.peers ∧
    (beginSlot s n l).corr = s.corr ∧ (beginSlot s n l).notices = s.notices ∧ (beginSlot s n l).free = s.free := by
  unfold beginSlot; simp only []; split <;> simp

@[simp] theorem beginResume_keeps (c : Ctx) :
    (beginResume s c).pending = s.pending ∧ (beginResume s c).reference = s.reference ∧ (beginResume s c).port = s.port ∧
    (beginResume s c).cfg = s.cfg ∧ (beginResume s c).alerts = s.alerts ∧ (beginResume s c).trace = s.trace ∧
    (beginResume s c).comp = s.comp ∧ (beginResume s c).store = s.store ∧ (beginResume s c).peers = s.peers ∧
    (beginResume s c).corr = s.corr ∧ (beginResume s c).notices = s.notices ∧ (beginResume s c).free = s.free := by
  unfold beginResume; simp only []; split <;> simp

@[simp] theorem select_keeps :
    (select s).pending = s.pending ∧ (select s).reference = s.reference ∧ (select s).port = s.port ∧
    (select s).cfg = s.cfg ∧ (select s).alerts = s.alerts ∧ (select s).trace = s.trace ∧
    (select s).comp = s.comp ∧ (select s).store = s.store ∧ (select s).peers = s.peers ∧
    (select s).corr = s.corr ∧ (select s).notices = s.notices ∧ (select s).free = s.free := by
  unfold select; repeat' split
  all_goals simp

@[simp] theorem settleSelect_keeps :
    (settleSelect s).pending = s.pending ∧ (settleSelect s).reference = s.reference ∧ (settleSelect s).port = s.port ∧
    (settleSelect s).cfg = s.cfg ∧ (settleSelect s).alerts = s.alerts ∧ (settleSelect s).trace = s.trace ∧
    (settleSelect s).comp = s.comp ∧ (settleSelect s).store = s.store ∧ (settleSelect s).corr = s.corr ∧
    (settleSelect s).notices = s.notices ∧ (settleSelect s).free = s.free := by
  simp [settleSelect]

@[simp] theorem writeResult_keeps (c : Ctx) (o : SweepOutcome) (l : Nat) :
    (writeResult s c o l).pending = s.pending ∧ (writeResult s c o l).reference = s.reference ∧ (writeResult s c o l).port = s.port ∧
    (writeResult s c o l).cfg = s.cfg ∧ (writeResult s c o l).clock = s.clock ∧ (writeResult s c o l).alerts = s.alerts ∧
    (writeResult s c o l).sched = s.sched ∧ (writeResult s c o l).engine = s.engine ∧ (writeResult s c o l).switch = s.switch ∧
    (writeResult s c o l).acc = s.acc ∧ (writeResult s c o l).trace = s.trace ∧ (writeResult s c o l).store = s.store ∧
    (writeResult s c o l).line = s.line ∧ (writeResult s c o l).peers = s.peers ∧ (writeResult s c o l).claims = s.claims ∧
    (writeResult s c o l).corr = s.corr ∧ (writeResult s c o l).notices = s.notices ∧ (writeResult s c o l).free = s.free := by
  simp [writeResult]

@[simp] theorem confirmReport_keeps (c : Ctx) (w : Option Comparison) :
    (confirmReport s c w).pending = s.pending ∧ (confirmReport s c w).reference = s.reference ∧ (confirmReport s c w).port = s.port ∧
    (confirmReport s c w).cfg = s.cfg ∧ (confirmReport s c w).clock = s.clock ∧ (confirmReport s c w).alerts = s.alerts ∧
    (confirmReport s c w).sched = s.sched ∧ (confirmReport s c w).engine = s.engine ∧ (confirmReport s c w).switch = s.switch ∧
    (confirmReport s c w).acc = s.acc ∧ (confirmReport s c w).trace = s.trace ∧ (confirmReport s c w).comp = s.comp ∧
    (confirmReport s c w).store = s.store ∧ (confirmReport s c w).peers = s.peers ∧ (confirmReport s c w).claims = s.claims ∧
    (confirmReport s c w).free = s.free := by
  unfold confirmReport; repeat' split
  all_goals simp

@[simp] theorem findingDecision_keeps (c : Ctx) (o : SweepOutcome) (w : Option Comparison) :
    (findingDecision s c o w).pending = s.pending ∧ (findingDecision s c o w).reference = s.reference ∧ (findingDecision s c o w).port = s.port ∧
    (findingDecision s c o w).cfg = s.cfg ∧ (findingDecision s c o w).alerts = s.alerts ∧ (findingDecision s c o w).engine = s.engine ∧
    (findingDecision s c o w).switch = s.switch ∧ (findingDecision s c o w).acc = s.acc ∧ (findingDecision s c o w).trace = s.trace ∧
    (findingDecision s c o w).comp = s.comp ∧ (findingDecision s c o w).store = s.store ∧ (findingDecision s c o w).peers = s.peers ∧
    (findingDecision s c o w).claims = s.claims ∧ (findingDecision s c o w).free = s.free := by
  unfold findingDecision; repeat' split
  all_goals simp

@[simp] theorem endSweep_keeps (o : SweepOutcome) (p : List NoticeBody) :
    (endSweep s o p).pending = s.pending ∧ (endSweep s o p).reference = s.reference ∧ (endSweep s o p).port = s.port ∧
    (endSweep s o p).cfg = s.cfg ∧ (endSweep s o p).switch = s.switch ∧ (endSweep s o p).trace = s.trace ∧
    (endSweep s o p).store = s.store ∧ (endSweep s o p).peers = s.peers ∧ (endSweep s o p).claims = s.claims ∧
    (endSweep s o p).free = s.free := by
  unfold endSweep; split <;> simp

@[simp] theorem dropClaim_keeps (n : Nat) :
    (dropClaim s n).pending = s.pending ∧ (dropClaim s n).reference = s.reference ∧ (dropClaim s n).port = s.port ∧
    (dropClaim s n).cfg = s.cfg ∧ (dropClaim s n).clock = s.clock ∧ (dropClaim s n).alerts = s.alerts ∧
    (dropClaim s n).sched = s.sched ∧ (dropClaim s n).engine = s.engine ∧ (dropClaim s n).switch = s.switch ∧
    (dropClaim s n).acc = s.acc ∧ (dropClaim s n).trace = s.trace ∧ (dropClaim s n).comp = s.comp ∧
    (dropClaim s n).store = s.store ∧ (dropClaim s n).peers = s.peers ∧ (dropClaim s n).corr = s.corr ∧
    (dropClaim s n).notices = s.notices ∧ (dropClaim s n).free = s.free := by
  unfold dropClaim; split <;> simp

@[simp] theorem stopWrite_keeps (n : Nat) :
    (stopWrite s n).pending = s.pending ∧ (stopWrite s n).reference = s.reference ∧ (stopWrite s n).port = s.port ∧
    (stopWrite s n).cfg = s.cfg ∧ (stopWrite s n).clock = s.clock ∧ (stopWrite s n).alerts = s.alerts ∧
    (stopWrite s n).sched = s.sched ∧ (stopWrite s n).engine = s.engine ∧ (stopWrite s n).switch = s.switch ∧
    (stopWrite s n).acc = s.acc ∧ (stopWrite s n).trace = s.trace ∧ (stopWrite s n).comp = s.comp ∧
    (stopWrite s n).line = s.line ∧ (stopWrite s n).peers = s.peers ∧ (stopWrite s n).claims = s.claims ∧
    (stopWrite s n).corr = s.corr ∧ (stopWrite s n).notices = s.notices := by
  unfold stopWrite; split <;> simp

@[simp] theorem abort_keeps (o : SweepOutcome) (p : List NoticeBody) :
    (abort s o p).pending = s.pending ∧ (abort s o p).reference = s.reference ∧ (abort s o p).port = s.port ∧
    (abort s o p).cfg = s.cfg ∧ (abort s o p).switch = s.switch ∧ (abort s o p).peers = s.peers := by
  unfold abort; split <;> simp

@[simp] theorem stopSweep_keeps (o : SweepOutcome) (p : List NoticeBody) :
    (stopSweep s o p).pending = s.pending ∧ (stopSweep s o p).reference = s.reference ∧ (stopSweep s o p).port = s.port ∧
    (stopSweep s o p).cfg = s.cfg ∧ (stopSweep s o p).switch = s.switch ∧ (stopSweep s o p).peers = s.peers := by
  unfold stopSweep; repeat' split
  all_goals simp

@[simp] theorem suspend_keeps :
    (suspend s).pending = s.pending ∧ (suspend s).reference = s.reference ∧ (suspend s).port = s.port ∧
    (suspend s).cfg = s.cfg ∧ (suspend s).clock = s.clock ∧ (suspend s).alerts = s.alerts ∧
    (suspend s).switch = s.switch ∧ (suspend s).trace = s.trace ∧ (suspend s).comp = s.comp ∧
    (suspend s).store = s.store ∧ (suspend s).peers = s.peers ∧ (suspend s).corr = s.corr ∧
    (suspend s).notices = s.notices ∧ (suspend s).free = s.free := by
  unfold suspend; split <;> simp

@[simp] theorem endSuspended_keeps (o : SweepOutcome) :
    (endSuspended s o).pending = s.pending ∧ (endSuspended s o).reference = s.reference ∧ (endSuspended s o).port = s.port ∧
    (endSuspended s o).cfg = s.cfg ∧ (endSuspended s o).clock = s.clock ∧ (endSuspended s o).engine = s.engine ∧
    (endSuspended s o).switch = s.switch ∧ (endSuspended s o).trace = s.trace ∧ (endSuspended s o).store = s.store ∧
    (endSuspended s o).peers = s.peers ∧ (endSuspended s o).claims = s.claims ∧ (endSuspended s o).free = s.free := by
  unfold endSuspended; split <;> simp

end Sys2Proof.Machine
end

