-- ==== Sys2Proof/Laws/Layout.lean ====
section
/-! SUPPORT. What joined fields are, piece by piece (chapter 12): the laws by which a layout written as bytes is compared with
its table of fields. -/

namespace Sys2Proof.Machine

@[simp] theorem joinFields_nil : joinFields [] = [] := rfl

@[simp] theorem joinFields_cons (f : Nat × Nat) (fs : List (Nat × Nat)) :
    joinFields (f :: fs) = beBytes f.1 f.2 ++ joinFields fs := rfl

@[simp] theorem joinFields_append : ∀ fs gs : List (Nat × Nat), joinFields (fs ++ gs) = joinFields fs ++ joinFields gs
  | [], _ => rfl
  | f :: fs, gs => by
    rw [List.cons_append, joinFields_cons, joinFields_cons, joinFields_append fs gs, List.append_assoc]

/-- The fields of a list of parts, part by part. -/
theorem joinFields_flatMap {α : Type} (g : α → List (Nat × Nat)) :
    ∀ l : List α, joinFields (l.flatMap g) = l.flatMap fun a => joinFields (g a)
  | [] => rfl
  | a :: l => by
    rw [List.flatMap_cons, joinFields_append, joinFields_flatMap g l, List.flatMap_cons]

/-- One-byte fields of value 0 are zero bytes. -/
theorem joinFields_zeros : ∀ n : Nat, joinFields (List.replicate n (1, 0)) = List.replicate n 0#8
  | 0 => rfl
  | n + 1 => by
    rw [List.replicate_succ, joinFields_cons, joinFields_zeros n, List.replicate_succ]
    rfl

@[simp] theorem length_beBytes : ∀ n v : Nat, (beBytes n v).length = n
  | 0, _ => rfl
  | n + 1, v => by rw [beBytes, List.length_cons, length_beBytes n v]

/-- A layout is as long as its fields are wide. -/
theorem length_joinFields : ∀ fs : List (Nat × Nat), (joinFields fs).length = (fs.map Prod.fst).sum
  | [] => rfl
  | f :: fs => by
    rw [joinFields_cons, List.length_append, length_beBytes, length_joinFields fs, List.map_cons, List.sum_cons]

end Sys2Proof.Machine
end

