-- ==== Sys2Proof/Laws/Tables.lean ====
section
/-! SUPPORT. Tables keyed by number: what a read gives after each update, and that each update keeps the canonical
form. -/

namespace Sys2Proof

variable {α : Type}

/-! ### Reads -/

@[simp] theorem Table.find_nil (k : Nat) : Table.find ([] : Table α) k = none := rfl

theorem Table.find_cons (e : Nat × α) (t : Table α) (k : Nat) :
    Table.find (e :: t) k = if k = e.1 then some e.2 else Table.find t k := by
  obtain ⟨a, v⟩ := e; rfl

@[simp] theorem Table.find_put_same : ∀ (t : Table α) (k : Nat) (v : α), (t.put k v).find k = some v
  | [], k, v => by simp [Table.put, Table.find_cons]
  | (a, w) :: t, k, v => by
    have ih := Table.find_put_same t k v
    simp only [Table.put]
    split
    · simp [Table.find_cons]
    · split
      · simp [Table.find_cons]
      · next h => simp [Table.find_cons, h, ih]

theorem Table.find_put_other : ∀ (t : Table α) (k j : Nat) (v : α), j ≠ k → (t.put k v).find j = t.find j
  | [], k, j, v, h => by simp [Table.put, Table.find_cons, h]
  | (a, w) :: t, k, j, v, h => by
    have ih := Table.find_put_other t k j v h
    simp only [Table.put]
    split
    · simp [Table.find_cons, h]
    · split
      · next e => subst e; simp [Table.find_cons, h]
      · simp [Table.find_cons, ih]

/-- What a read gives after a put. -/
theorem Table.find_put (t : Table α) (k j : Nat) (v : α) :
    (t.put k v).find j = if j = k then some v else t.find j := by
  split
  · next h => subst h; simp
  · next h => exact Table.find_put_other t k j v h

/-- What a read gives after a filter on the key. -/
theorem Table.find_filter_key (p : Nat → Bool) : ∀ (t : Table α) (k : Nat),
    Table.find (t.filter fun e => p e.1) k = if p k then t.find k else none
  | [], k => by simp
  | e :: t, k => by
    have ih := Table.find_filter_key p t k
    rw [List.filter_cons, Table.find_cons]
    split
    · rw [Table.find_cons, ih]
      split
      · next h1 h2 => subst h2; simp [h1]
      · rfl
    · next h1 =>
      rw [ih]
      by_cases h2 : k = e.1
      · rw [h2, if_neg h1, if_neg h1]
      · rw [if_neg h2]

/-- What a read gives after an erase. -/
theorem Table.find_erase (t : Table α) (k j : Nat) : (t.erase k).find j = if j = k then none else t.find j := by
  have h := Table.find_filter_key (fun x => decide (x ≠ k)) t j
  unfold Table.erase
  rw [h]
  by_cases hj : j = k <;> simp [hj]

/-- What a read gives after an adjust. -/
theorem Table.find_adjust (f : α → α) : ∀ (t : Table α) (k j : Nat),
    (t.adjust k f).find j = if j = k then (t.find j).map f else t.find j
  | [], k, j => by simp [Table.adjust]
  | e :: t, k, j => by
    have ih := Table.find_adjust f t k j
    unfold Table.adjust at ih ⊢
    rw [List.map_cons, Table.find_cons, Table.find_cons, ih]
    by_cases h : e.1 = k <;> by_cases hj : j = k <;> by_cases hje : j = e.1 <;> simp_all

theorem Table.find_append (t u : Table α) (k : Nat) :
    Table.find (t ++ u) k = (t.find k).or (u.find k) := by
  induction t with
  | nil => simp
  | cons e t ih =>
    rw [List.cons_append, Table.find_cons, Table.find_cons, ih]
    split <;> simp

theorem Table.find_number : ∀ (vs : List α) (k j : Nat),
    Table.find (Table.number k vs) j = if k ≤ j then vs[j - k]? else none
  | [], k, j => by simp [Table.number]
  | v :: vs, k, j => by
    rw [Table.number, Table.find_cons, Table.find_number vs (k + 1) j]
    by_cases h : j = k
    · simp [h]
    · by_cases h2 : k ≤ j
      · have h3 : k + 1 ≤ j := by omega
        have h4 : j - k = (j - (k + 1)) + 1 := by omega
        simp [h, h2, h3, h4]
      · have h3 : ¬ k + 1 ≤ j := by omega
        simp [h, h2, h3]

/-- What a read gives after a run of values was put at k, k + 1, … -/
theorem Table.find_putRun (t : Table α) (k j : Nat) (vs : List α) :
    (t.putRun k vs).find j = if k ≤ j ∧ j < k + vs.length then vs[j - k]? else t.find j := by
  unfold Table.putRun
  rw [Table.find_append, Table.find_append, Table.find_number,
    Table.find_filter_key (fun x => decide (x < k)), Table.find_filter_key (fun x => decide (k + vs.length ≤ x))]
  by_cases h1 : j < k
  · have h2 : ¬ k ≤ j := by omega
    have h3 : ¬ k + vs.length ≤ j := by omega
    simp [h1, h2, h3]
  · have h2 : k ≤ j := by omega
    by_cases h3 : k + vs.length ≤ j
    · have h4 : ¬ j < k + vs.length := by omega
      have h5 : vs[j - k]? = none := List.getElem?_eq_none (by omega)
      simp [h1, h2, h3, h4, h5]
    · have h4 : j < k + vs.length := by omega
      simp [h1, h2, h3, h4]

/-! ### Keys and the canonical form -/

theorem Table.find_isSome_iff : ∀ (t : Table α) (k : Nat), (t.find k).isSome = true ↔ k ∈ t.keys
  | [], k => by simp [Table.keys]
  | e :: t, k => by
    have ih := Table.find_isSome_iff t k
    unfold Table.keys at ih ⊢
    rw [Table.find_cons, List.map_cons, List.mem_cons, ← ih]
    split
    · next h => simp [h]
    · next h => simp [h]

theorem Table.has_iff (t : Table α) (k : Nat) : t.has k = true ↔ k ∈ t.keys := Table.find_isSome_iff t k

@[simp] theorem Table.keys_adjust (t : Table α) (k : Nat) (f : α → α) : (t.adjust k f).keys = t.keys := by
  unfold Table.adjust Table.keys
  rw [List.map_map]
  congr 1
  funext e
  simp only [Function.comp_apply]
  split <;> rfl

theorem Table.mem_keys_put : ∀ (t : Table α) (k j : Nat) (v : α), j ∈ (t.put k v).keys ↔ j = k ∨ j ∈ t.keys
  | [], k, j, v => by simp [Table.put, Table.keys]
  | (a, w) :: t, k, j, v => by
    have ih := Table.mem_keys_put t k j v
    unfold Table.keys at ih ⊢
    simp only [Table.put]
    split
    · simp
    · split
      · next e => subst e; simp
      · rw [List.map_cons, List.mem_cons, ih, List.map_cons, List.mem_cons]; exact or_left_comm

theorem Table.keys_filter_sublist (t : Table α) (p : Nat × α → Bool) :
    (Table.keys (t.filter p)).Sublist t.keys := List.Sublist.map _ List.filter_sublist

@[simp] theorem Table.wf_nil : Table.wf ([] : Table α) := List.Pairwise.nil

theorem Table.wf_filter {t : Table α} (p : Nat × α → Bool) (h : t.wf) : Table.wf (t.filter p) :=
  List.Pairwise.sublist (Table.keys_filter_sublist t p) h

theorem Table.wf_erase {t : Table α} (k : Nat) (h : t.wf) : (t.erase k).wf := Table.wf_filter _ h

theorem Table.wf_adjust {t : Table α} (k : Nat) (f : α → α) (h : t.wf) : (t.adjust k f).wf := by
  unfold Table.wf; rw [Table.keys_adjust]; exact h

/-- A map of the values keeps the keys. -/
theorem Table.keys_map {β : Type} (t : Table α) (f : Nat × α → Nat × β) (h : ∀ e, (f e).1 = e.1) :
    Table.keys (t.map f) = t.keys := by
  unfold Table.keys; rw [List.map_map]; congr 1; funext e; exact h e

theorem Table.wf_map {β : Type} {t : Table α} (f : Nat × α → Nat × β) (hf : ∀ e, (f e).1 = e.1) (h : t.wf) :
    Table.wf (t.map f) := by
  unfold Table.wf; rw [Table.keys_map t f hf]; exact h

theorem Table.wf_cons (e : Nat × α) (t : Table α) : Table.wf (e :: t) ↔ (∀ j ∈ t.keys, e.1 < j) ∧ t.wf := by
  unfold Table.wf Table.keys; rw [List.map_cons, List.pairwise_cons]

theorem Table.wf_put : ∀ {t : Table α} (k : Nat) (v : α), t.wf → (t.put k v).wf
  | [], k, v, _ => by simp [Table.put, Table.wf, Table.keys]
  | (a, w) :: t, k, v, h => by
    rw [Table.wf_cons] at h
    have ih := Table.wf_put k v h.2
    simp only [Table.put]
    split
    · next hk =>
      rw [Table.wf_cons, Table.wf_cons]
      refine ⟨?_, h⟩
      intro j hj
      simp only [Table.keys, List.map_cons, List.mem_cons] at hj
      rcases hj with rfl | hj
      · exact hk
      · exact Nat.lt_trans hk (h.1 j hj)
    · split
      · next h1 h2 => subst h2; rw [Table.wf_cons]; exact h
      · next h1 h2 =>
        rw [Table.wf_cons]
        refine ⟨?_, ih⟩
        intro j hj
        rw [Table.mem_keys_put] at hj
        rcases hj with rfl | hj
        · show a < _; omega
        · exact h.1 j hj

theorem Table.keys_number : ∀ (vs : List α) (k j : Nat), j ∈ (Table.number k vs).keys → k ≤ j ∧ j < k + vs.length
  | [], k, j, h => by simp [Table.number, Table.keys] at h
  | v :: vs, k, j, h => by
    have ih := Table.keys_number vs (k + 1) j
    simp only [Table.number, Table.keys, List.map_cons, List.mem_cons] at h ih
    simp only [List.length_cons]
    rcases h with rfl | h
    · omega
    · have := ih h; omega

theorem Table.wf_number : ∀ (vs : List α) (k : Nat), Table.wf (Table.number k vs)
  | [], _ => Table.wf_nil
  | v :: vs, k => by
    rw [Table.number, Table.wf_cons]
    refine ⟨?_, Table.wf_number vs (k + 1)⟩
    intro j hj
    have := Table.keys_number vs (k + 1) j hj
    show k < j; omega

theorem Table.keys_append (t u : Table α) : Table.keys (t ++ u) = t.keys ++ u.keys := List.map_append

theorem Table.mem_keys_filter {t : Table α} {p : Nat → Bool} {j : Nat}
    (h : j ∈ Table.keys (t.filter fun e => p e.1)) : p j = true := by
  simp only [Table.keys, List.mem_map, List.mem_filter] at h
  obtain ⟨e, he, rfl⟩ := h
  exact he.2

theorem Table.wf_putRun {t : Table α} (k : Nat) (vs : List α) (h : t.wf) : (t.putRun k vs).wf := by
  unfold Table.putRun Table.wf
  rw [Table.keys_append, Table.keys_append, List.pairwise_append, List.pairwise_append]
  refine ⟨⟨Table.wf_filter _ h, Table.wf_number vs k, ?_⟩, Table.wf_filter _ h, ?_⟩
  · intro a ha b hb
    have h1 := Table.mem_keys_filter (p := fun x => decide (x < k)) ha
    have h2 := Table.keys_number vs k b hb
    simp at h1; omega
  · intro a ha b hb
    have h2 := Table.mem_keys_filter (p := fun x => decide (k + vs.length ≤ x)) hb
    simp at h2
    rcases List.mem_append.mp ha with ha | ha
    · have h1 := Table.mem_keys_filter (p := fun x => decide (x < k)) ha
      simp at h1; omega
    · have h1 := Table.keys_number vs k a ha
      omega

/-! ### Ascending sets -/

theorem mem_insertAsc (n m : Nat) : ∀ l : List Nat, m ∈ insertAsc n l ↔ m = n ∨ m ∈ l
  | [] => by simp [insertAsc]
  | a :: l => by
    have ih := mem_insertAsc n m l
    simp only [insertAsc]
    split
    · simp
    · split
      · next e => subst e; simp
      · rw [List.mem_cons, ih, List.mem_cons]; exact or_left_comm

theorem sorted_insertAsc (n : Nat) : ∀ l : List Nat, l.Pairwise (· < ·) → (insertAsc n l).Pairwise (· < ·)
  | [], _ => by simp [insertAsc]
  | a :: l, h => by
    have ih := sorted_insertAsc n l (List.pairwise_cons.mp h).2
    have h1 := (List.pairwise_cons.mp h).1
    simp only [insertAsc]
    split
    · next hn =>
      refine List.pairwise_cons.mpr ⟨?_, h⟩
      intro b hb
      rcases List.mem_cons.mp hb with rfl | hb
      · exact hn
      · exact Nat.lt_trans hn (h1 b hb)
    · split
      · exact h
      · refine List.pairwise_cons.mpr ⟨?_, ih⟩
        intro b hb
        rcases (mem_insertAsc n b l).mp hb with rfl | hb
        · omega
        · exact h1 b hb

theorem mem_ascSet (m : Nat) : ∀ l : List Nat, m ∈ ascSet l ↔ m ∈ l
  | [] => by simp [ascSet]
  | a :: l => by
    have ih := mem_ascSet m l
    unfold ascSet at ih ⊢
    rw [List.foldr_cons, mem_insertAsc, ih, List.mem_cons]

theorem sorted_ascSet : ∀ l : List Nat, (ascSet l).Pairwise (· < ·)
  | [] => by simp [ascSet]
  | a :: l => by
    have ih := sorted_ascSet l
    unfold ascSet at ih ⊢
    exact sorted_insertAsc a _ ih

end Sys2Proof
end

