-- ==== Sys2Proof/Laws/Memory.lean ====
section
/-! SUPPORT. The fingerprint memory: every operation over it keeps the canonical form, State.reset has it, and what a read
of one cell gives after each. -/

namespace Sys2Proof.Machine

variable (s : State)

/-! ## The canonical form -/

theorem reset_mem_wf : Memory.wf State.reset.store.mem := List.Pairwise.nil

theorem writeLevels_mem_wf (r : SpanRecord) (bin : Nat) (levels : List Nat) (h : Memory.wf s.store.mem) :
    Memory.wf (writeLevels s r bin levels).store.mem := Table.wf_putRun _ _ h

theorem copyTrace_mem_wf (span n : Nat) (h : Memory.wf s.store.mem) : Memory.wf (copyTrace s span n).store.mem := by
  unfold copyTrace; split
  · exact writeLevels_mem_wf _ _ _ _ h
  · exact h

theorem cutCopy_mem_wf (span : Nat) (h : Memory.wf s.store.mem) : Memory.wf (cutCopy s span).store.mem :=
  copyTrace_mem_wf s span _ h

theorem stopWrite_mem_wf (span : Nat) (h : Memory.wf s.store.mem) : Memory.wf (stopWrite s span).store.mem := by
  unfold stopWrite; split
  · exact cutCopy_mem_wf s span h
  · exact h

theorem stoppedStore_mem_wf (h : Memory.wf s.store.mem) : Memory.wf (stoppedStore s).mem := by
  unfold stoppedStore; repeat' split
  · exact cutCopy_mem_wf s _ h
  · exact h
  · exact h

theorem resetValues_mem_wf (straps : BitVec 5) : Memory.wf (resetValues straps s).store.mem := List.Pairwise.nil

theorem warmValues_mem_wf (straps : BitVec 5) (h : Memory.wf s.store.mem) :
    Memory.wf (warmValues straps s).store.mem := stoppedStore_mem_wf s h

theorem losePages_mem_wf (h : Memory.wf s.store.mem) : Memory.wf (losePages s).store.mem := Table.wf_filter _ h

/-! ## One cell -/

/-- A run of levels written from a bin on: the cells from there hold them, every other cell is as it was. -/
theorem find_writeLevels (r : SpanRecord) (bin : Nat) (levels : List Nat) (a : Nat) :
    (writeLevels s r bin levels).store.mem.find a =
      if r.cell bin ≤ a ∧ a < r.cell bin + levels.length then levels[a - r.cell bin]? else s.store.mem.find a :=
  Table.find_putRun _ _ _ _

/-- The cells of one record follow each other: bin p + i lies i cells after bin p. -/
theorem cell_add (r : SpanRecord) (p i : Nat) : r.cell (p + i) = r.cell p + i := by
  unfold SpanRecord.cell Config.pageLevels; omega

/-- At doze entry the cells of retained banks stay, every other cell is no longer listed (R5, R20). -/
theorem find_losePages (a : Nat) :
    (losePages s).store.mem.find a =
      if s.cfg.block.retains (bankOf (a / Config.pageLevels)) = true then s.store.mem.find a else none :=
  Table.find_filter_key (fun x => s.cfg.block.retains (bankOf (x / Config.pageLevels))) s.store.mem a

/-! ## The end of a row's step with a sweep in the engine -/

/-- With a sweep in the engine and the clock unit AWAKE, the end of a row's step only stops the doze delay timer. -/
theorem settle_occupied (h : s.occupied) : settle s = stopDoze s := by
  obtain ⟨he, hc⟩ := h
  have hw : wakeForCandidate s = s := by unfold wakeForCandidate wake; simp [hc]
  have hd : dozeConditions s = false := by simp [dozeConditions, he]
  rw [settle, hw, refreshDoze, hd]; rfl

/-- The same where the row's step is an occasion for selection. -/
theorem settleSelect_occupied (h : s.occupied) : settleSelect s = stopDoze s := by
  have hs : select s = s := by simp [select, h.1]
  rw [settleSelect, hs, settle_occupied s h]

end Sys2Proof.Machine
end

