-- ==== Sys2Proof/Laws/Line.lean ====
section
/-! SUPPORT. What offering a frame does (R136 to R139): the line after an offer, and which frame then waits. -/

namespace Sys2Proof.Machine

theorem mem_insertByAge (f x : TxFrame) : ∀ q : List TxFrame, x ∈ insertByAge f q ↔ x = f ∨ x ∈ q
  | [] => by simp [insertByAge]
  | g :: q => by
    unfold insertByAge
    split
    · simp
    · simp only [List.mem_cons, mem_insertByAge f x q]
      constructor <;> rintro (h | h | h) <;> simp_all

/-- A frame entered as a claim frame waits; every other frame that waits was waiting before. -/
theorem mem_enterClaimFrame_self (q : List TxFrame) (f : TxFrame) : f ∈ enterClaimFrame q f := by
  unfold enterClaimFrame; rw [mem_insertByAge]; exact .inl rfl

theorem mem_dropOldest (p : FrameBody → Bool) (x : TxFrame) : ∀ q : List TxFrame, x ∈ dropOldest p q → x ∈ q
  | [], h => h
  | f :: q, h => by
    unfold dropOldest at h
    split at h
    · exact List.mem_cons_of_mem _ h
    · rcases List.mem_cons.1 h with h | h
      · exact List.mem_cons.2 (.inl h)
      · exact List.mem_cons_of_mem _ (mem_dropOldest p x q h)

theorem mem_makeRoom (q : List TxFrame) (x : TxFrame) (h : x ∈ makeRoom q) : x ∈ q := by
  unfold makeRoom at h
  split at h
  · exact mem_dropOldest _ x q h
  · split at h <;> exact mem_dropOldest _ x q h

theorem mem_enterClaimFrame (q : List TxFrame) (f x : TxFrame) (h : x ∈ enterClaimFrame q f) : x = f ∨ x ∈ q := by
  unfold enterClaimFrame at h
  rw [mem_insertByAge] at h
  rcases h with h | h
  · exact .inl h
  · split at h
    · exact .inr (mem_makeRoom q x h)
    · exact .inr h

/-- A frame that a queue replaces stands in it. -/
theorem mem_replaceWaiting (q : List TxFrame) (u : Nat) (b : FrameBody) (h : q.any (fun x => sameFrame x.body b) = true) :
    ∃ x ∈ replaceWaiting q u b, x.urgency = u ∧ x.body = b := by
  obtain ⟨x, hx, hs⟩ := List.any_eq_true.1 h
  exact ⟨⟨x.age, u, b⟩, List.mem_map.2 ⟨x, hx, if_pos hs⟩, rfl, rfl⟩

/-! ## How many claim frames wait (R136) -/

theorem claimFrames_insertByAge (f : TxFrame) : ∀ q : List TxFrame,
    (claimFrames (insertByAge f q)).length = (claimFrames q).length + if isClaimFrame f.body then 1 else 0
  | [] => by by_cases h : isClaimFrame f.body = true <;> simp [insertByAge, claimFrames, h]
  | g :: q => by
    have ih := claimFrames_insertByAge f q
    unfold insertByAge
    split
    · by_cases h : isClaimFrame f.body = true <;> simp [claimFrames, h]
    · simp only [claimFrames, List.filter_cons] at ih ⊢
      split <;> simp only [List.length_cons, ih] <;> omega

theorem claimFrames_dropOldest (p : FrameBody → Bool) (hp : ∀ b, p b = true → isClaimFrame b = true) :
    ∀ q : List TxFrame, q.any (fun f => p f.body) = true →
      (claimFrames (dropOldest p q)).length + 1 = (claimFrames q).length
  | [], h => by simp at h
  | f :: q, h => by
    unfold dropOldest
    split
    · rename_i hf; simp [claimFrames, hp _ hf]
    · rename_i hf
      have h' : q.any (fun f => p f.body) = true := by simpa [hf] using h
      have ih := claimFrames_dropOldest p hp q h'
      simp only [claimFrames, List.filter_cons] at ih ⊢
      split
      · simp only [List.length_cons]; omega
      · exact ih

theorem isClaimFrame_of_isRelease (b : FrameBody) (h : isRelease b = true) : isClaimFrame b = true := by
  cases b <;> simp_all [isRelease, isClaimFrame, claimGroup]

theorem isClaimFrame_of_isHold (b : FrameBody) (h : isHold b = true) : isClaimFrame b = true := by
  cases b <;> simp_all [isHold, isClaimFrame, claimGroup]

/-- Making room takes exactly one waiting claim frame out, if there is one. -/
theorem claimFrames_makeRoom (q : List TxFrame) (h : 1 ≤ (claimFrames q).length) :
    (claimFrames (makeRoom q)).length + 1 = (claimFrames q).length := by
  unfold makeRoom
  split
  · rename_i hr; exact claimFrames_dropOldest _ isClaimFrame_of_isRelease q hr
  · split
    · rename_i hh; exact claimFrames_dropOldest _ isClaimFrame_of_isHold q hh
    · refine claimFrames_dropOldest _ (fun _ hb => hb) q ?_
      obtain ⟨x, hx⟩ := List.exists_mem_of_length_pos h
      exact List.any_eq_true.2 ⟨x, (List.mem_filter.1 hx).1, (List.mem_filter.1 hx).2⟩

/-- A claim frame that enters leaves no more than two claim frames waiting (R136). -/
theorem claimFrames_enterClaimFrame (q : List TxFrame) (f : TxFrame) (h : (claimFrames q).length ≤ 2) :
    (claimFrames (enterClaimFrame q f)).length ≤ 2 := by
  unfold enterClaimFrame
  rw [claimFrames_insertByAge]
  split
  · have := claimFrames_makeRoom q (by omega); split <;> omega
  · split <;> omega

variable (s : State)

/-- The line after an offer in a state that can send and is not IDLE: the queue as R138 and R139 leave it. -/
theorem offer_line (u : Nat) (b : FrameBody) (h1 : s.line.state ≠ .passive) (h2 : s.port.station ≠ .isolated)
    (h3 : s.line.state ≠ .idle) : (offer s u b).line = { s.line with
      queue := queueOffer s.line.queue ⟨s.line.nextAge, u, b⟩, nextAge := s.line.nextAge + 1 } := by
  simp [offer, canSend, h1, h2, startAttempt, h3]

/-- An offer changes the line alone. -/
theorem offer_eq (u : Nat) (b : FrameBody) : offer s u b = { s with line := (offer s u b).line } := by
  have h := offer_keeps s u b
  cases hs : offer s u b
  simp only [hs] at h
  simp [h]

/-- In ISOLATED, and before START, an offer is discarded (R136, R145). -/
theorem offer_discarded (u : Nat) (b : FrameBody) (h : s.line.state = .passive ∨ s.port.station = .isolated) :
    offer s u b = s := by
  rcases h with h | h <;> simp [offer, canSend, h]

/-- An offered HOLD waits itself, or a CLAIM for its group waits with at least its urgency (R139). -/
theorem offer_hold (u g l : Nat) (h1 : s.line.state ≠ .passive) (h2 : s.port.station ≠ .isolated)
    (h3 : s.line.state ≠ .idle) :
    ∃ x ∈ (offer s u (.hold g l)).line.queue, u ≤ x.urgency ∧ (x.body = .hold g l ∨ isClaimOf g x.body = true) := by
  rw [offer_line s u _ h1 h2 h3]
  show ∃ x ∈ queueOffer s.line.queue ⟨s.line.nextAge, u, .hold g l⟩, _
  unfold queueOffer
  simp only
  split
  · rename_i h
    obtain ⟨x, hx, hc⟩ := List.any_eq_true.1 h
    refine ⟨{ x with urgency := max x.urgency u }, List.mem_map.2 ⟨x, hx, if_pos hc⟩, Nat.le_max_right _ _, .inr hc⟩
  · split
    · rename_i h
      obtain ⟨x, hx, hu, hb⟩ := mem_replaceWaiting _ u _ h
      exact ⟨x, hx, Nat.le_of_eq hu.symm, .inl hb⟩
    · exact ⟨_, mem_enterClaimFrame_self _ _, Nat.le_refl _, .inl rfl⟩

/-- An offered CLAIM waits, and no RELEASE that was removed before comes back. -/
theorem offer_claim (u g l : Nat) (h1 : s.line.state ≠ .passive) (h2 : s.port.station ≠ .isolated)
    (h3 : s.line.state ≠ .idle) :
    (offer s u (.claim g l)).line.queue = enterClaimFrame s.line.queue ⟨s.line.nextAge, u, .claim g l⟩ := by
  rw [offer_line s u _ h1 h2 h3]; rfl

/-- An offered RELEASE waits (R139). -/
theorem offer_release (u g l : Nat) (h1 : s.line.state ≠ .passive) (h2 : s.port.station ≠ .isolated)
    (h3 : s.line.state ≠ .idle) :
    ∃ x ∈ (offer s u (.release g l)).line.queue, x.urgency = u ∧ x.body = .release g l := by
  rw [offer_line s u _ h1 h2 h3]
  exact ⟨_, mem_enterClaimFrame_self _ _, rfl, rfl⟩

/-- An offered PRESENCE waits, in its predecessor's place if one waited (R138). -/
theorem offer_presence (u : Nat) (p : PresenceState) (gs : List Nat) (h1 : s.line.state ≠ .passive)
    (h2 : s.port.station ≠ .isolated) (h3 : s.line.state ≠ .idle) :
    ∃ x ∈ (offer s u (.presence p gs)).line.queue, x.urgency = u ∧ x.body = .presence p gs := by
  rw [offer_line s u _ h1 h2 h3]
  show ∃ x ∈ queueOffer s.line.queue ⟨s.line.nextAge, u, .presence p gs⟩, _
  unfold queueOffer
  simp only
  split
  · rename_i h; exact mem_replaceWaiting _ u _ h
  · exact ⟨_, (mem_insertByAge _ _ _).2 (.inl rfl), rfl, rfl⟩

/-! ## Waiting or in the attempt, in every line access state -/

/-- A frame that waits as an attempt starts still waits, or is the frame of the attempt (R134). -/
theorem startAttempt_mem (x : TxFrame) (h : x ∈ s.line.queue) :
    x ∈ (startAttempt s).line.queue ++ (startAttempt s).line.attempt.toList := by
  unfold startAttempt
  split
  · split
    · exact List.mem_append_left _ h
    · rename_i f _
      by_cases hx : x = f
      · subst hx; simp
      · exact List.mem_append_left _ (List.mem_filter.2 ⟨h, by simpa using hx⟩)
  · exact List.mem_append_left _ h

/-- An offered PRESENCE, FINDING or RELEASE waits or is in the attempt (R134, R138, R139). -/
theorem offer_hasFrame (u : Nat) (b : FrameBody) (h : s.onLine)
    (hb : isRelease b = true ∨ claimGroup b = none) : (offer s u b).hasFrame u b := by
  have hq : ∃ x ∈ queueOffer s.line.queue ⟨s.line.nextAge, u, b⟩, x.urgency = u ∧ x.body = b := by
    cases b with
    | claim => simp [isRelease, claimGroup] at hb
    | hold => simp [isRelease, claimGroup] at hb
    | release => exact ⟨_, mem_enterClaimFrame_self _ _, rfl, rfl⟩
    | presence =>
      simp only [queueOffer]
      split
      · rename_i hx; exact mem_replaceWaiting _ u _ hx
      · exact ⟨_, (mem_insertByAge _ _ _).2 (.inl rfl), rfl, rfl⟩
    | finding =>
      simp only [queueOffer]
      split
      · rename_i hx; exact mem_replaceWaiting _ u _ hx
      · exact ⟨_, (mem_insertByAge _ _ _).2 (.inl rfl), rfl, rfl⟩
  obtain ⟨x, hx, hu, hb⟩ := hq
  refine ⟨x, ?_, hu, hb⟩
  unfold offer
  rw [if_pos (by simp [canSend, h.1, h.2])]
  exact startAttempt_mem _ x hx

end Sys2Proof.Machine
end

