-- ==== Sys2Proof/Laws/PerInstr.lean ====
section
/-! SUPPORT. One law stated for every command: how many bytes the host sends for it, code and parameters, as 12.2 lays
them out; none for a row that is no host command. -/

namespace Sys2Proof.Laws

/-- v in n bytes is n bytes long. -/
@[simp] theorem length_beBytes : ∀ n v : Nat, (beBytes n v).length = n
  | 0, _ => rfl
  | n + 1, v => by simp [beBytes, length_beBytes n v]

/-- Fields of two bytes each. -/
theorem length_joinTwo : ∀ ls : List Nat, (joinFields (ls.map fun v => (2, v))).length = 2 * ls.length
  | [] => rfl
  | v :: ls => by simp [joinFields, length_joinTwo ls]; omega

/-- The bytes of a row as 12.2 counts them: code and parameters; none for a row the host does not send. -/
def sentLength : Instr → Option Nat
  | .coldReset _ => none
  | .warmReset _ => none
  | .configWriteSpan _ _ => some 19
  | .configWriteStation _ => some 36
  | .start _ => some 5
  | .run => some 1
  | .halt => some 1
  | .readStatus => some 1
  | .readNotice => some 1
  | .readResult _ => some 2
  | .readTrace _ => some 10
  | .sweep _ _ _ => some 4
  | .spanOff _ => some 2
  | .spanOn _ => some 2
  | .clearFault => some 1
  | .fpBegin _ => some 2
  | .fpData _ ls => some (4 + 2 * ls.length)
  | .fpEnd _ => some 2
  | .unknownCommand _ => none
  | .partialCommandDiscarded _ => none
  | .endOfLocking => none
  | .windowStart => none
  | .windowEnd => none
  | .dozeEntry => none
  | .alertLineAsserted _ => none
  | .alertLineReleased _ => none
  | .reRaiseTimerExpiry _ => none
  | .switchSettleExpiry => none
  | .darkShotComplete _ => none
  | .litShotComplete _ => none
  | .interleavedDarkShotCheck _ => none
  | .reductionComplete => none
  | .comparisonComplete => none
  | .baselineWriteComplete => none
  | .resumeTimerExpiry => none
  | .laserFaultReport _ => none
  | .laserFaultConditionClears => none
  | .idleGap => none
  | .arbitrationLost => none
  | .frameTransmitted => none
  | .readbackError => none
  | .frameReceived _ => none
  | .presenceDelivered => none
  | .claimDelivered => none
  | .holdDelivered => none
  | .releaseDelivered => none
  | .findingDelivered => none
  | .presenceTimerExpiry => none
  | .learningTimerExpiry => none
  | .ageTimerExpiry _ => none
  | .holdOffExpiry _ => none
  | .holdRepetition _ => none
  | .heldExpiry _ => none
  | .roundTimerExpiry _ => none
  | .holdDownExpiry _ => none
  | .frameStartHeard => none
  | .arbitrationWon => none

namespace Length

/-- A row's bytes are as many as 12.2 gives it. -/
def Statement (i : Instr) : Prop := (encodeCommand i).map List.length = sentLength i

theorem coldReset (a : BitVec 5) : Statement (.coldReset a) := rfl
theorem warmReset (a : BitVec 5) : Statement (.warmReset a) := rfl
theorem configWriteSpan (a : Nat) (b : SpanRecord) : Statement (.configWriteSpan a b) := rfl
theorem configWriteStation (a : StationBlock) : Statement (.configWriteStation a) := rfl
theorem start (a : Nat) : Statement (.start a) := rfl
theorem run : Statement (.run) := rfl
theorem halt : Statement (.halt) := rfl
theorem readStatus : Statement (.readStatus) := rfl
theorem readNotice : Statement (.readNotice) := rfl
theorem readResult (a : Nat) : Statement (.readResult a) := rfl
theorem readTrace (a : TraceRequest) : Statement (.readTrace a) := rfl
theorem sweep (a b c : Nat) : Statement (.sweep a b c) := rfl
theorem spanOff (a : Nat) : Statement (.spanOff a) := rfl
theorem spanOn (a : Nat) : Statement (.spanOn a) := rfl
theorem clearFault : Statement (.clearFault) := rfl
theorem fpBegin (a : Nat) : Statement (.fpBegin a) := rfl
theorem fpData (a : Nat) (b : List Nat) : Statement (.fpData a b) := by
  simp [Statement, encodeCommand, sentLength, joinFields, length_joinTwo]; omega
theorem fpEnd (a : Nat) : Statement (.fpEnd a) := rfl
theorem unknownCommand (a : List Byte) : Statement (.unknownCommand a) := rfl
theorem partialCommandDiscarded (a : List Byte) : Statement (.partialCommandDiscarded a) := rfl
theorem endOfLocking : Statement (.endOfLocking) := rfl
theorem windowStart : Statement (.windowStart) := rfl
theorem windowEnd : Statement (.windowEnd) := rfl
theorem dozeEntry : Statement (.dozeEntry) := rfl
theorem alertLineAsserted (a : Nat) : Statement (.alertLineAsserted a) := rfl
theorem alertLineReleased (a : Nat) : Statement (.alertLineReleased a) := rfl
theorem reRaiseTimerExpiry (a : Nat) : Statement (.reRaiseTimerExpiry a) := rfl
theorem switchSettleExpiry : Statement (.switchSettleExpiry) := rfl
theorem darkShotComplete (a : List Adc) : Statement (.darkShotComplete a) := rfl
theorem litShotComplete (a : List Adc) : Statement (.litShotComplete a) := rfl
theorem interleavedDarkShotCheck (a : List Adc) : Statement (.interleavedDarkShotCheck a) := rfl
theorem reductionComplete : Statement (.reductionComplete) := rfl
theorem comparisonComplete : Statement (.comparisonComplete) := rfl
theorem baselineWriteComplete : Statement (.baselineWriteComplete) := rfl
theorem resumeTimerExpiry : Statement (.resumeTimerExpiry) := rfl
theorem laserFaultReport (a : LaserCode) : Statement (.laserFaultReport a) := rfl
theorem laserFaultConditionClears : Statement (.laserFaultConditionClears) := rfl
theorem idleGap : Statement (.idleGap) := rfl
theorem arbitrationLost : Statement (.arbitrationLost) := rfl
theorem frameTransmitted : Statement (.frameTransmitted) := rfl
theorem readbackError : Statement (.readbackError) := rfl
theorem frameReceived (a : List Bool) : Statement (.frameReceived a) := rfl
theorem presenceDelivered : Statement (.presenceDelivered) := rfl
theorem claimDelivered : Statement (.claimDelivered) := rfl
theorem holdDelivered : Statement (.holdDelivered) := rfl
theorem releaseDelivered : Statement (.releaseDelivered) := rfl
theorem findingDelivered : Statement (.findingDelivered) := rfl
theorem presenceTimerExpiry : Statement (.presenceTimerExpiry) := rfl
theorem learningTimerExpiry : Statement (.learningTimerExpiry) := rfl
theorem ageTimerExpiry (a : Nat) : Statement (.ageTimerExpiry a) := rfl
theorem holdOffExpiry (a : Nat) : Statement (.holdOffExpiry a) := rfl
theorem holdRepetition (a : Nat) : Statement (.holdRepetition a) := rfl
theorem heldExpiry (a : Nat) : Statement (.heldExpiry a) := rfl
theorem roundTimerExpiry (a : Nat) : Statement (.roundTimerExpiry a) := rfl
theorem holdDownExpiry (a : Nat) : Statement (.holdDownExpiry a) := rfl
theorem frameStartHeard : Statement (.frameStartHeard) := rfl
theorem arbitrationWon : Statement (.arbitrationWon) := rfl

end Length

end Sys2Proof.Laws
end

