-- ==== Sys2Proof/Laws/Sweeps.lean ====
section
/-! SUPPORT. The steps of a sweep as equations: taking (R56), the end of PREPARING (R70), a preparation given up (R57),
the notices and the result record that a sweep's end leaves (R85, R126), and what a released claim, a resume given back
and an answered alert input leave (R60, R85, R166). -/

namespace Sys2Proof.Machine

variable (s : State)

/-! ## Taking and the end of PREPARING -/

/-- A sweep that is taken in PREPARING enters the next state when the switch is SETTLED on its port (R70). -/
theorem checkPrepared_new (c : Ctx) (hc : s.engine.ctx = some c) (hp : s.engine.state = .preparing)
    (hs : s.sched.selection = none) (hr : c.resumed = false) :
    checkPrepared s =
      if s.switch = .settled c.span then
        { s with engine := { s.engine with state := .dark, ctx := some { c with phase := .dark }, darkShots := 0, darkTotal := 0 } }
      else s := by
  unfold checkPrepared
  simp only [hc, hp, hs, true_and]
  split
  · simp [hr, enterDark, enter, hc]
  · rfl

/-- A resumed sweep goes on in FULL (R70). -/
theorem checkPrepared_resumed (c : Ctx) (hc : s.engine.ctx = some c) (hp : s.engine.state = .preparing)
    (hs : s.sched.selection = none) (hr : c.resumed = true) :
    checkPrepared s =
      if s.switch = .settled c.span then
        { s with engine := { s.engine with state := .full, ctx := some { c with phase := .full } } }
      else s := by
  unfold checkPrepared
  simp only [hc, hp, hs, true_and]
  split
  · simp [hr, enter, hc]
  · rfl

/-- Taking a request (R56, R66, R95). -/
theorem takeSlot_eq (n : Nat) (r : Request) (rec : SpanRecord) (hr : s.sched.slots.find n = some r)
    (hrec : enabledRec s n = some rec) :
    takeSlot s n = { s with
      sched := { s.sched with slots := s.sched.slots.erase n, selection := none }
      engine := { s.engine with ctx := some (newCtx s n r rec) }
      acc := s.acc.claim (acquiredBins rec.len (newCtx s n r rec).window).1
        (acquiredBins rec.len (newCtx s n r rec).window).2 } := by
  simp only [takeSlot, hr, hrec]

/-- Taking a request with the engine in PREPARING, and what follows at once when the switch stands on its port. -/
theorem checkPrepared_takeSlot (n : Nat) (r : Request) (rec : SpanRecord) (hr : s.sched.slots.find n = some r)
    (hrec : enabledRec s n = some rec) (hp : s.engine.state = .preparing) :
    checkPrepared (takeSlot s n) = { s with
      sched := { s.sched with slots := s.sched.slots.erase n, selection := none }
      engine :=
        if s.switch = .settled n then
          { s.engine with state := .dark, ctx := some { newCtx s n r rec with phase := .dark }, darkShots := 0, darkTotal := 0 }
        else { s.engine with ctx := some (newCtx s n r rec) }
      acc := s.acc.claim (acquiredBins rec.len (newCtx s n r rec).window).1
        (acquiredBins rec.len (newCtx s n r rec).window).2 } := by
  have h := takeSlot_eq s n r rec hr hrec
  rw [checkPrepared_new (takeSlot s n) (newCtx s n r rec) (by rw [h]) (by rw [h]; exact hp) (by rw [h]) rfl, h]
  show (if s.switch = .settled n then _ else _) = _
  split <;> simp only [*]

/-- The claim of the group that a selected request seeks is OPEN (R160, R56). -/
theorem claimOpened_slot (g n : Nat) (rec : SpanRecord) (hs : s.sched.selection = some (.slot n))
    (hrec : enabledRec s n = some rec) (hg : rec.lightGroup = g) :
    claimOpened s g = checkPrepared (takeSlot s n) := by
  have hl : lightGroupOf s n = g := by simp [lightGroupOf, hrec, hg]
  simp only [claimOpened, hs, hl, if_true]

/-- The claim that a resume seeks is OPEN (R160, R60). -/
theorem claimOpened_save (g : Nat) (c : Ctx) (hs : s.sched.selection = some .save) (hc : s.engine.ctx = some c)
    (hg : lightGroupOf s c.span = g) :
    claimOpened s g = checkPrepared { s with sched := { s.sched with selection := none } } := by
  simp only [claimOpened, hs, hc, hg, if_true]

/-! ## A conflict during the last lit shot (R81, R166) -/

/-- A conflict leaves the running sweep as it is, or, during the last lit shot of a full acquisition, with the shot counted
or not. -/
theorem endLastShot_cases :
    endLastShot s = s ∨ ∃ c r, s.engine.ctx = some c ∧ s.engine.state = .full ∧ enabledRec s c.span = some r ∧
      c.interleavedDue = false ∧ c.litDone + 1 = 2 ^ r.shots ∧
      (endLastShot s = bumpFree s ∨ ∃ xs, endLastShot s = bumpFree (addLit s xs)) := by
  unfold endLastShot
  split
  · rename_i c r h
    split
    · rename_i hl
      refine .inr ⟨c, r, ?_⟩
      simp only [sweepIn] at h
      split at h
      · rename_i c' hc
        split at h
        · rename_i hs
          obtain ⟨r', hr', he⟩ := Option.map_eq_some_iff.1 h
          obtain ⟨rfl, rfl⟩ := Prod.mk.inj he
          simp only [onLastShot, Bool.and_eq_true, Bool.not_eq_true', decide_eq_true_eq] at hl
          refine ⟨hc, by simpa using hs, hr', hl.1.2, hl.2, ?_⟩
          split
          · exact .inr ⟨_, rfl⟩
          · exact .inl rfl
        · simp at h
      · simp at h
    · exact .inl rfl
  · exact .inl rfl

/-! ## What an end, a release and a give-back leave (R34, R60, R85, R166) -/

/-- A waiting frame after an attempt may have started waited before. -/
theorem startAttempt_queue (x : TxFrame) (h : x ∈ (startAttempt s).line.queue) : x ∈ s.line.queue := by
  unfold startAttempt at h
  split at h
  · split at h
    · exact h
    · exact (List.mem_filter.1 h).1
  · exact h

/-- The engine's release of a claim (R166). -/
theorem releaseClaim_released (g : Nat) : claimReleased s (releaseClaim s g) g := by
  unfold releaseClaim
  split
  · rename_i l e m hf
    have hc : ∀ k, (offer (setClaim s g .free) l (.release g l)).claims.find k =
        if k = g then some ⟨.free, m⟩ else s.claims.find k := by
      intro k
      rw [show (offer (setClaim s g .free) l (.release g l)).claims = (setClaim s g .free).claims by rw [offer_eq],
        setClaim, Table.find_adjust]
      split
      · subst_vars; simp [hf]
      · rfl
    refine ⟨fun k hk => by rw [hc, if_neg hk], fun l' e' m' hf' => ?_, fun hn => absurd hf (hn _ _ _)⟩
    rw [hf] at hf'
    cases hf'
    refine ⟨by rw [hc, if_pos rfl], fun ho => ⟨offer_hasFrame _ _ _ ho (.inl rfl), fun f hq => ?_⟩⟩
    unfold offer at hq
    rw [if_pos (by simp only [canSend, Bool.and_eq_true, decide_eq_true_eq]; exact ho)] at hq
    rcases mem_enterClaimFrame _ _ _ (startAttempt_queue _ _ hq) with rfl | hq
    · exact ⟨rfl, rfl⟩
    · simpa using (List.mem_filter.1 hq).2
  · rename_i hn
    exact ⟨fun _ _ => rfl, fun l e m hf => absurd hf (hn l e m), fun _ => rfl⟩

/-- The stale CLAIM mark that a withdrawal leaves (R162 step 2). -/
theorem withdrawnMark_marked (g : Nat) (m : Option (StaleMark × Nat)) : markedWithdrawn s g m (withdrawnMark s g m) := by
  refine ⟨fun f l hf hb => ?_, fun h => ?_⟩
  · simp [withdrawnMark, hf, hb, claimLevel]
  · unfold withdrawnMark
    unfold inAttempt at h
    cases ha : s.line.attempt with
    | none => rfl
    | some f =>
      rw [ha] at h
      cases hb : f.body <;> simp_all [claimLevel, isClaimOf]

/-- A withdrawal of a CLAIMING entry (R162 steps 1 and 2): the entry HELD by the winner with the mark of the CLAIM in the
attempt, and no CLAIM or HOLD of the group waiting. -/
theorem withdrawClaim_claiming (g x level arrival y : Nat) (ho : Option Nat) (m : Option (StaleMark × Nat))
    (h : s.claims.find g = some ⟨.claiming y ho, m⟩) :
    (withdrawClaim s g x level arrival).claims.find g =
      some ⟨.held x level (lifetimeFrom s arrival), withdrawnMark s g m⟩ ∧
    ∀ f ∈ (withdrawClaim s g x level arrival).line.queue, isClaimOf g f.body = false ∧ isHoldOf g f.body = false := by
  have e : withdrawClaim s g x level arrival =
      setStale (askRemove (setClaim s g (.held x level (lifetimeFrom s arrival))) (isClaimOrHold g)) g
        (withdrawnMark s g m) := by simp [withdrawClaim, h]
  rw [e]
  constructor
  · simp [setStale, askRemove, setClaim, Table.find_adjust, h]
  · intro f hf
    simp [setStale, askRemove, setClaim, isClaimOrHold] at hf
    exact hf.2

/-- A resume that is given up before it is taken goes back to the save slot (R60). -/
theorem giveBack_save (c : Ctx) (hs : s.sched.selection = some .save) (hc : s.engine.ctx = some c) :
    resumeReturned s (giveBack s) c := by
  simp only [giveBack, hs, hc]
  refine ⟨rfl, rfl, rfl, rfl, rfl, ?_, ?_⟩ <;>
    by_cases h : s.acc.active = 0 <;> simp [Acc.setAside, Acc.saved, Acc.slot, Acc.adjust, Acc.current, h]

/-- Step 4 of R85. -/
theorem sweepOver_answers (c : Ctx) : alertAnswered s (sweepOver s c) c := by
  have hm : ∀ t : State, t.cfg = s.cfg → alertModeOfSpan t c.span = alertModeOfSpan s c.span := by
    intro t h; simp [alertModeOfSpan, enabledRec, h]
  unfold sweepOver startReRaise
  rw [hm _ (by split <;> rfl)]
  refine ⟨by by_cases ha : c.answersLatch = true <;> by_cases hl : alertModeOfSpan s c.span = .level <;> simp [ha, hl, clearLatch], fun n => ?_, fun n => ?_⟩
  · by_cases ha : c.answersLatch = true <;> by_cases hl : alertModeOfSpan s c.span = .level <;>
      simp [ha, hl, clearLatch, removeFrom]
  · by_cases hl : alertModeOfSpan s c.span = .level
    · by_cases hn : n = c.span
      · subst hn
        by_cases ha : c.answersLatch = true <;> simp [hl, ha, clearLatch, after]
      · by_cases ha : c.answersLatch = true <;> simp [hl, ha, hn, Table.find_put, clearLatch]
    · have : ¬ (n = c.span ∧ alertModeOfSpan s n = .level) := by rintro ⟨rfl, h⟩; exact hl h
      by_cases ha : c.answersLatch = true <;> simp [hl, ha, this, clearLatch]

/-- The eight conditions of R34. -/
theorem dozeConditions_iff : dozeConditions s = true ↔ s.mayDoze := by
  have hr : anyRoundOpen s = false ↔ ∀ e ∈ s.corr, ∀ r, e.2 ≠ .opened r := by
    simp only [anyRoundOpen, List.any_eq_false]
    refine forall₂_congr fun e _ => ?_
    cases e.2 <;> simp
  simp only [dozeConditions, Bool.and_eq_true, Bool.not_eq_true', hr, State.mayDoze, pendingCandidate, and_assoc]
  simp

end Sys2Proof.Machine
end

