-- ==== Sys2Proof/Tests/Slice0.lean ====
section
/-! SUPPORT. Tests: the checks of WellFormed refuse what they name, the layouts of chapter 12 on bytes and bits written out
from the spec, the worked figures of the manual, single commands, and for each statement with hypotheses states that meet
them, clause by clause. -/

namespace Sys2Proof.Tests

open Sys2Proof Sys2Proof.Machine

-- The kernel checks the tests one after another: many at once take a thread each.
set_option Elab.async false

/-! ## WellFormed: each check refuses an ill-formed command -/

/-- A span record of 256 bins, private, page 0. -/
def recP : SpanRecord := ⟨true, 256, 0, 0, 0, 0, 16, 50, 8, 0, 0, 1⟩

/-- A legal station block: 25 MHz × 20 / 5, N_g 1.4682, quiet window 01:00 to 02:00, doze with bank 0 retained. -/
def block : StationBlock :=
  { defaultBlock with
    refKHz := 25000, mulM := 20, divP := 5, groupIndex := 14682, quietStart := 60, quietEnd := 120, dayFloor := 2
    retention := 1, dozeEnable := true }

theorem test_wf_span_byte : (Instr.configWriteSpan 256 recP).wellFormed = false := by decide
theorem test_wf_record_length : (Instr.configWriteSpan 1 { recP with len := 65536 }).wellFormed = false := by decide
theorem test_wf_record_offset : (Instr.configWriteSpan 1 { recP with offset := 16777216 }).wellFormed = false := by decide
theorem test_wf_block : (Instr.configWriteStation { block with refKHz := 4294967296 }).wellFormed = false := by decide
theorem test_wf_start : (Instr.start 4294967296).wellFormed = false := by decide
theorem test_wf_trace : (Instr.readTrace ⟨0, 0, 65536, 1, 0, 0⟩).wellFormed = false := by decide
theorem test_wf_sweep : (Instr.sweep 1 2 256).wellFormed = false := by decide
theorem test_wf_data : (Instr.fpData 1 [65536]).wellFormed = false := by decide
theorem test_wf_unknown : (Instr.unknownCommand []).wellFormed = false := by decide
theorem test_wf_alert_span : (Instr.alertLineAsserted 49).wellFormed = false := by decide
theorem test_wf_peer : (Instr.ageTimerExpiry 0).wellFormed = false := by decide
theorem test_wf_group : (Instr.heldExpiry 256).wellFormed = false := by decide
theorem test_wf_frame_sender : (Frame.mk 0 32 (.claim 7 0)).wellFormed = false := by decide
theorem test_wf_frame_groups : (Frame.mk 0 5 (.presence .running [4, 3])).wellFormed = false := by decide
theorem test_wf_samples : (Instr.litShotComplete (List.replicate 16385 0)).wellFormed = false := by
  show samplesFit (List.replicate 16385 0) = false
  unfold samplesFit
  rw [List.length_replicate]
  decide
theorem test_wf_host_spans : ∀ i ∈ [Instr.readResult 256, .spanOff 256, .spanOn 256, .fpBegin 256, .fpEnd 256],
    i.wellFormed = false := by decide
theorem test_wf_event_operands : ∀ i ∈ [Instr.alertLineReleased 0, .reRaiseTimerExpiry 0, .holdOffExpiry 0,
    .holdRepetition 256, .roundTimerExpiry 0, .holdDownExpiry 256], i.wellFormed = false := by decide
theorem test_wf_frame_fields : ∀ f ∈ [Frame.mk 4 5 (.claim 7 0), ⟨0, 5, .hold 7 4⟩, ⟨0, 5, .release 256 0⟩,
    ⟨0, 5, .finding 3 1 16777216⟩], f.wellFormed = false := by decide
theorem test_wf_legal : (Instr.configWriteSpan 48 recP).wellFormed = true ∧
    (Instr.configWriteStation block).wellFormed = true := by decide

/-! ## The layouts of chapter 12, written out from its tables -/

theorem test_parse_span : parseCommand [0x10, 7, 1, 0x40, 0x00, 12, 3, 0x00, 0x01, 0x2C, 4, 0x00, 0x40, 0x00, 0x32, 12,
    2, 1, 3] = some (.configWriteSpan 7 ⟨true, 16384, 12, 3, 300, 4, 64, 50, 12, 2, 1, 3⟩) := by decide
theorem test_parse_start : parseCommand [0x12, 0x05, 0x26, 0x5B, 0xFF] = some (.start 86399999) := by decide
theorem test_parse_sweep : parseCommand [0x20, 48, 5, 3] = some (.sweep 48 5 3) := by decide
theorem test_parse_trace : parseCommand [0x18, 0, 0, 0x01, 0x00, 0x00, 0x40, 1, 0x01, 0x00] =
    some (.readTrace ⟨0, 0, 256, 64, 1, 256⟩) := by decide
theorem test_parse_data : parseCommand [0x31, 2, 0, 2, 0x07, 0x0E, 0, 0] = some (.fpData 2 [1806, 0]) ∧
    parseCommand [0x31, 2, 0, 2, 0x07, 0x0E, 0] = none := by decide
theorem test_parse_unknown : parseCommand [0x24] = none ∧ parseCommand [0x13, 0] = none := by decide

/-- The levels of a bit string written as text. -/
def levels (w : String) : List Bool := w.toList.map fun c => decide (c = '1')

theorem test_claim_on_the_line : Frame.lineBits ⟨3, 5, .claim 12 3⟩ =
    levels "00001010000010100000100100000111000001000111101110111010111" := by decide +kernel
theorem test_finding_on_the_line : parseFrame (levels ("000100100000110100000110100000101100000100100000110101011010" ++
    "011001011101010111010001")) = some ⟨3, 9, .finding 3 1 350821⟩ := by decide +kernel
theorem test_cut_frame : parseFrame (levels "0000101000001010000010010000011100000100011111111") = none := by decide +kernel
theorem test_flipped_bit : parseFrame (levels "00001010000010100000100100000111000001000111101110111010110") = none := by decide +kernel

/-! ## The manual's figures -/

theorem test_spacing : binSpacing block = 1020952 := by decide
theorem test_distance : distanceOf 1020952 4903 = 50057 ∧ binOf 1020952 51257 = 5021 := by decide
theorem test_window : confirmWindow 16384 5021 = (4352, 1024) ∧ confirmWindow 8192 600 = (0, 1024) ∧
    confirmWindow 8192 8100 = (7168, 1024) := by decide
theorem test_level_low : levelOf 2 = 151 := by decide +kernel
theorem test_level_mid : levelOf 61 = 893 := by decide +kernel
theorem test_level_high : levelOf 1740 = 1620 := by decide +kernel
theorem test_level_top : levelOf 4095 = 1806 := by decide +kernel

/-! ## States the tests and witnesses stand on -/

/-- Span 1: light group 7, sheath group 3, EDGE, pages in bank 0, N = 1. -/
def rec1 : SpanRecord := ⟨true, 256, 7, 3, 0, 0, 16, 50, 8, 1, 1, 3⟩

/-- Span 2: private, sheath group 3, LEVEL, page 16 (bank 1), N = 0. -/
def rec2 : SpanRecord := ⟨true, 256, 0, 3, 10, 16, 16, 50, 8, 0, 2, 2⟩

/-- Span 4: private, alone, OFF, page 17 (bank 1). -/
def rec4 : SpanRecord := ⟨true, 256, 0, 0, 0, 17, 16, 50, 8, 0, 0, 1⟩

/-- The records of the tests. -/
def recs : Table SpanRecord := [(1, rec1), (2, rec2), (4, rec4)]

/-- An empty result record. -/
def noResult : ResultRecord := ⟨none, none, 0, none⟩

/-- A RUNNING, AWAKE, IDLE station of id 5 with three spans and no fingerprint. -/
def base : State :=
  { State.reset with
    port := ⟨none, none, .running, recs, block⟩
    cfg := ⟨recs, block, [7], [3]⟩
    clock := ⟨.awake, 5000, 40000000, 1020952, .outside, 2, [(1, 1)], none, none⟩
    engine := ⟨.idle, none, none, false, 0, 0⟩
    comp := ⟨[(1, noResult), (2, noResult), (4, noResult)], none⟩
    line := ⟨5, .busy, [], none, false, [], 1, [], false, false⟩
    peers := ⟨[(9, ⟨39999000, .running, [3], 8000⟩)], some 6000, none⟩
    claims := [(7, ⟨.free, none⟩)]
    corr := [(3, .idle)] }

/-- The station before START, with the records staged. -/
def staged : State :=
  { State.reset with
    port := ⟨none, none, .unconfigured, recs, block⟩
    line := { State.reset.line with id := 5 } }

/-- A taken HOST sweep of a span at level 1, without fingerprint. -/
def sweepOf (span : Nat) (st : EngineState) : Ctx :=
  { span := span, kind := .host, level := 1, window := none, target := none, round := none, phase := st, litDone := 0
    darkLevel := some 60, disturbed := 0, quickOnly := false, accSlot := 0, resumed := false, interleavedDue := false
    refPresent := false, answersLatch := false }

/-- base with a taken sweep of span 4 in the engine. -/
def busy (st : EngineState) (f : Ctx → Ctx) : State :=
  { base with
    engine := ⟨st, some (f (sweepOf 4 st)), none, false, 0, 0⟩
    switch := .settled 4 }

/-- base with one frame in the inbox, from station 9 at 4,990 ms. -/
def heard (b : FrameBody) (s : State) : State := { s with line := { s.line with inbox := [⟨9, b, 39999990, 4990⟩] } }

/-- The shot of a span of 256 bins with one code everywhere. -/
def shot (v : Adc) : List Adc := List.replicate 256 v

/-- A pending request. -/
def request (k : ReqKind) (l : Nat) : Request := ⟨k, l, decide (k = .confirm), none, none, 39000000, false⟩

/-- An OPEN round in which station 9 reported a BREAK at 1000 dm. -/
def openRound : OpenRound := ⟨.brk, 1000, 39990000, [(9, ⟨.brk, some 1000⟩)], [], none, false, false, 60000, false⟩

/-- The state after a command. -/
def after (i : Instr) (s : State) : State :=
  match exec i s with
  | .next t => t
  | .fault _ => s
  | .refused _ => s

/-! ## Single commands -/

theorem test_sweep_below_mask_waits : (after (.sweep 4 2 1) base).sched.slots.keys = [4] ∧
    (after (.sweep 4 2 1) base).engine.state = .idle := by decide
theorem test_sweep_at_mask_starts : (after (.sweep 4 2 2) base).engine.state = .preparing ∧
    (after (.sweep 4 2 2) base).switch = .travelling 4 5025 := by decide
theorem test_shared_span_claims : (after (.sweep 1 2 3) base).claims.find 7 = some ⟨.claiming 3 none, none⟩ ∧
    (after (.sweep 1 2 3) base).line.queue = [⟨1, 3, .claim 7 3⟩] := by decide
theorem test_edge_raises_once :
    (after (.alertLineAsserted 1) (after (.alertLineReleased 1) (after (.alertLineAsserted 1) base))).alerts.latches = [1] := by
  decide
theorem test_halt : (after .halt base).port.station = .halted ∧
    (after .halt base).line.queue = [⟨1, 0, .presence .halted [3]⟩] := by decide
theorem test_start : (after (.start 40000000) staged).port.station = .learning ∧
    (after (.start 40000000) staged).clock.spacing = 1020952 ∧
    (after (.start 40000000) staged).clock.mask = 2 := by decide +kernel
theorem test_start_without_id : (after (.start 0) { staged with line := State.reset.line }).port.reply =
    some ⟨.refusedParam, [1, 0]⟩ := by decide
theorem test_window_start : (after .windowStart { base with clock := { base.clock with tod := 3600000 } }).sched.slots.keys =
    [1] ∧ (after .windowStart { base with clock := { base.clock with tod := 3600000 } }).claims.find 7 =
    some ⟨.claiming 0 none, none⟩ := by decide
theorem test_open_claim_answers_hold : (after .claimDelivered (heard (.claim 7 3)
    { base with claims := [(7, ⟨.opened 3 9000, none⟩)], engine := (busy .full id).engine })).line.queue =
    [⟨1, 3, .hold 7 3⟩] := by decide
theorem test_heard_fault_confirms : (after .findingDelivered (heard (.finding 3 1 1000) base)).claims.find 7 =
    some ⟨.claiming 3 none, none⟩ := by decide

/-! ## States that meet the hypotheses of the statements, clause by clause -/

/-- base with two timer events due at once. -/
def twoDue : State := { base with peers := { base.peers with presence := some 5000, learning := some 5000 } }

theorem wit_empty_queue :
    (dueEvents { base with clock := { base.clock with tod := 86399999 } } = [] ∧ base.pending = [] ∧
      base.clock.state ≠ .stopped) ∧
    (dueEvents State.reset = [] ∧ State.reset.clock.state = .stopped) ∧
    dueEvents { base with peers := { base.peers with presence := some 5000 } } = [.presenceTimerExpiry] ∧
    2 ≤ (dueEvents twoDue).length := by decide

theorem wit_warm_reset : (∃ u, exec (.coldReset 31#5) base = .next u) ∧ base.engine.state ≠ .storing ∧
    (busy .storing id).engine.ctx = some (sweepOf 4 .storing) ∧ enabledRec (busy .storing id) 4 = some rec4 :=
  ⟨⟨_, rfl⟩, by decide, by decide, by decide⟩

theorem wit_config_write : State.reset.port.station = .unconfigured ∧ base.port.station ≠ .unconfigured ∧
    1 ≤ 48 ∧ 48 < 49 := by decide

/-- staged with a first record whose length is no multiple of 256. -/
def badSpan : State :=
  { staged with port := { staged.port with stagedSpans := [(1, { rec1 with len := 300 }), (2, rec2)] } }

theorem wit_start_checks :
    (base.port.station ≠ .unconfigured) ∧
    (State.reset.port.station = .unconfigured ∧ startFault State.reset 0 = some (1, 0)) ∧
    (stationChecks State.reset.line.id 0 State.reset.port.stagedStation)[0]? = some false ∧
    ((∀ j, j < 7 → (stationChecks 5 86400000 block)[j]? = some true) ∧
      (stationChecks 5 86400000 block)[7]? = some false) ∧
    (stagedEnabled badSpan = [] ++ (1, { rec1 with len := 300 }) :: [(2, rec2)] ∧
      (∀ b ∈ stationChecks badSpan.line.id 0 badSpan.port.stagedStation, b = true) ∧
      (spanChecks [] 1 { rec1 with len := 300 })[0]? = some false) := by decide +kernel

theorem wit_start : staged.port.station = .unconfigured ∧ startFault staged 0 = none ∧
    startFault staged 86399999 = none := by decide +kernel

/-- staged with the page of span 1 in the directory, and one page that names it by a wrong length. -/
def kept : State :=
  { staged with store := { staged.store with dir := [(0, ⟨1, 0, 256⟩), (16, ⟨2, 0, 512⟩)] } }

theorem wit_reconcile : kept.port.station = .unconfigured ∧ startFault kept 0 = none ∧ Table.wf kept.store.dir ∧
    Table.wf kept.port.stagedSpans ∧ (1, rec1) ∈ stagedEnabled kept ∧
    (∀ p ∈ rec1.pages, kept.store.dir.find p = some ⟨1, p - rec1.firstPage, rec1.len⟩) ∧
    ¬ (∀ p ∈ rec2.pages, kept.store.dir.find p = some ⟨2, p - rec2.firstPage, rec2.len⟩) := by decide +kernel

theorem wit_reconcile_runs : ∃ t, exec (.start 0) kept = .next t := ⟨_, rfl⟩

theorem wit_run : State.reset.port.station = .unconfigured ∧ base.port.station = .running ∧
    ({ base with port := { base.port with station := .halted } } : State).port.station = .halted ∧
    (busy .full id).engine.state ≠ .idle := by decide

theorem wit_halt : (busy .full id).port.station = .running ∧ (busy .full id).engineSound ∧
    (busy .full id).engine.ctx = some (sweepOf 4 .full) ∧ (busy .full id).sched.selection = none ∧
    (busy .full id).comp.results.find 4 = some noResult ∧ (busy .full id).sched.selection ≠ some .save ∧
    (busy .full id).engine.state ≠ .storing := by decide

theorem wit_reads : State.reset.port.station = .unconfigured ∧ base.port.station ≠ .unconfigured ∧
    enabledRec base 3 = none ∧ enabledRec base 1 = some rec1 ∧ base.comp.results.find 1 = some noResult ∧
    (∀ w, noResult.comparison = some w → w.events.length ≤ 8) := by
  refine ⟨by decide, by decide, by decide, by decide, by decide, ?_⟩
  intro w h; cases h

theorem wit_read_notice : base.notices.fifo = [] ∧
    (post base (.windowEnd 1)).notices.fifo = ⟨.windowEnd 1, 40000000⟩ :: [] := by decide

/-- A valid trace of 256 entries. -/
def traced : State :=
  { base with trace := ⟨.valid, some ⟨4, 256, 8, 60, none, 0⟩, List.replicate 256 (900, false)⟩ }

/-- Span 1 PRESENT with one level in each cell of its page. -/
def printed : State :=
  { base with store :=
      { base.store with fp := [(1, .present)], dir := [(0, ⟨1, 0, 256⟩)], mem := Table.number 0 (List.replicate 256 900) } }

theorem wit_read_trace :
    (busy .reducing id).engine.state = .reducing ∧ base.trace.state = .empty ∧
    (traced.trace.desc = some ⟨4, 256, 8, 60, none, 0⟩ ∧ traced.trace.state = .valid ∧ 256 ≤ 256 ∧ 255 < 256 ∧
      16 ≤ 16 ∧ 255 / 16 * 16 + 16 ≤ 256 ∧ 16 < 17 ∧ 256 < 255 / 1024 * 1024 + 1024) ∧
    fpOf { base with store := { base.store with fp := [(1, .writing)] } } 1 = .writing ∧ fpOf base 1 = .absent ∧
    (fpOf printed 1 = .present ∧ enabledRec printed 1 = some rec1 ∧ 255 < rec1.len) := by decide

theorem wit_read_fingerprint (p : Nat) (h : p < rec1.len) :
    printed.store.mem.find (4096 * (rec1.firstPage + p / 4096) + p % 4096) = some 900 := by
  have hp : p < 256 := h
  have hc : 4096 * (rec1.firstPage + p / 4096) + p % 4096 = p := by
    show 4096 * (0 + p / 4096) + p % 4096 = p
    omega
  have hw : printed.store.mem = Table.number 0 (List.replicate 256 900) := rfl
  rw [hc, hw, Table.find_number, if_pos (Nat.zero_le p), List.getElem?_replicate, if_pos (by omega)]

theorem wit_sweep : State.reset.port.station = .unconfigured ∧ base.port.station ≠ .isolated ∧
    isEnabled base 3 = false ∧ isEnabled base 4 = true ∧ 4 ∉ base.sched.off ∧
    (putSlot base 4 (request .host 0)).sched.slots.find 4 = some (request .host 0) ∧
    base.sched.slots.find 4 = none ∧ (busy .full id).engine.state ≠ .idle ∧ (busy .full id).clock.state = .awake := by
  decide

theorem wit_requests : isEnabled base 4 = true ∧ 4 ∉ base.sched.off ∧ base.sched.slots.find 4 = none ∧
    (putSlot base 4 (request .routine 0)).sched.slots.find 4 = some (request .routine 0) ∧
    (putSlot base 4 (request .baseline 0)).sched.slots.find 4 = some (request .baseline 0) := by decide

/-- busy in FULL with span 2 off and its line asserted. -/
def offTwo : State :=
  { busy .full id with
    sched := { base.sched with off := [2, 4] }
    alerts := ⟨[2], [], []⟩ }

theorem wit_span_off_on : isEnabled base 48 = false ∧ isEnabled base 4 = true ∧ 4 ∈ offTwo.sched.off ∧
    4 ∉ base.sched.off ∧ base.engine.state ≠ .storing ∧
    (offTwo.engine.state ≠ .idle ∧ offTwo.clock.state = .awake ∧ alertModeOfSpan offTwo 4 ≠ .level) ∧
    (2 ∈ offTwo.sched.off ∧ alertModeOfSpan offTwo 2 = .level ∧ 2 ∈ offTwo.alerts.asserted ∧
      offTwo.sched.slots.find 2 = none ∧ ctxIs offTwo.engine.ctx 2 = false ∧ ctxIs offTwo.sched.save 2 = false ∧
      offTwo.alerts.timers.find 2 = none) := by decide

/-- base with LASER_FAULT set, the condition gone. -/
def faulted : State := { base with engine := { base.engine with laserFault := some .drive } }

theorem wit_clear_fault : State.reset.port.station = .unconfigured ∧
    ({ faulted with engine := { faulted.engine with condition := true } } : State).engine.condition = true ∧
    base.engine.laserFault = none ∧ base.engine.condition = false ∧ faulted.engine.laserFault = some .drive ∧
    faulted.engine.condition = false := by decide

/-- base dozing. -/
def dozing : State :=
  { base with clock := { base.clock with state := .dozing }, engine := { base.engine with state := .off } }

/-- base with a host load of span 1 that has `n` levels. -/
def loading (n : Nat) : State :=
  { base with store := { base.store with fp := [(1, .writing)], load := some ⟨1, n⟩ } }

theorem wit_host_loads : enabledRec base 1 = some rec1 ∧ enabledRec dozing 2 = some rec2 ∧
    (dozing.clock.state = .dozing ∧ ∃ p ∈ rec2.pages, dozing.cfg.block.retention.getLsbD (p / 16) = false) ∧
    (∀ p ∈ rec1.pages, dozing.cfg.block.retention.getLsbD (p / 16) = true) ∧
    (base.clock.state ≠ .dozing ∧ engineSpan (busy .full id) = some 4 ∧ (1, FpState.writing) ∈ (loading 0).store.fp) ∧
    (base.store.fp = [] ∧ engineSpan base ≠ some 1 ∧ ctxIs base.sched.save 1 = false) ∧
    ((loading 255).store.load = some ⟨1, 255⟩ ∧ enabledRec (loading 255) 1 = some rec1 ∧ 255 + [1806].length ≤ rec1.len ∧
      rec1.len < 255 + [0, 0].length) ∧
    ((loading 256).store.load = some ⟨1, 256⟩ ∧ 256 = rec1.len) ∧ 255 ≠ rec1.len := by decide

theorem wit_no_load (c : Nat) : base.store.load ≠ some ⟨1, c⟩ := nofun

theorem wit_port : parseCommand [0xFF] = none ∧ parseCommand [0x12, 0, 0, 0] = none ∧
    (0x24#8 : Byte).toNat ∉ [0x10, 0x11, 0x12, 0x13, 0x14, 0x15, 0x16, 0x17, 0x18, 0x20, 0x21, 0x22, 0x23, 0x30, 0x31, 0x32] := by
  decide

/-- A station in the middle of its work, with a command waiting. -/
def working : State :=
  { busy .full id with pending := [.sweep 1 2 3], store := { printed.store with mem := [(0, 900), (255, 900)] } }

theorem wit_invariants : working.store.sound ∧ working.tablesSound ∧ working.notices.sound ∧ working.peersSound ∧
    working.line.queueSound ∧ working.clockSound ∧ working.acc.sound ∧ working.engineSound := by decide +kernel

theorem wit_firing : working.firingSound := by
  refine ⟨by decide, ?_⟩
  intro c hc
  cases hc
  decide

theorem wit_pages : working.pagesSound := by
  refine ⟨by decide, by decide +kernel, by decide, by decide, ?_, ?_⟩
  · intro l hl
    cases hl
  · intro c hc
    cases hc
    decide

theorem wit_step_answers : ∃ t, step working = .next t := ⟨_, rfl⟩

theorem wit_peer_bound : base.peersSound ∧ Table.wf base.peers.table ∧ 1 ≤ base.line.id ∧ base.line.id ≤ 31 := by decide

/-- base with an own claim. -/
def claiming : State :=
  { base with
    claims := [(7, ⟨.claiming 2 (some 5000), none⟩)]
    sched := { base.sched with slots := [(1, { request .host 2 with selected := true })], selection := some (.slot 1) }
    engine := { base.engine with state := .preparing }
    switch := .settled 1 }

theorem wit_one_claim : claiming.tablesSound ∧ claiming.engineSound ∧
    (7, (⟨.claiming 2 (some 5000), none⟩ : ClaimEntry)) ∈ claiming.claims ∧
    ownClaim (.claiming 2 (some 5000)) = true := by decide

/-- A sweep that may fire. -/
def firing (n : Nat) : State :=
  { busy .full fun c => { c with litDone := n } with
    acc := { emptyAcc with slot0 := ⟨.running, 0, 256, n, List.replicate 256 0, List.replicate 256 false⟩ } }

theorem wit_lit_shot_counts : (∃ t, exec (.litShotComplete (shot 500)) (firing 0) = .next t ∧ t ≠ firing 0) :=
  ⟨_, rfl, fun h => absurd (congrArg (fun t : State => t.acc.current.lit) h) (by decide +kernel)⟩

theorem wit_commands : (Instr.fpData 255 [65535]).wellFormed = true ∧ (encodeCommand (.fpData 255 [65535])).isSome = true ∧
    parseCommand [0x31, 255, 0, 1, 255, 255] = some (.fpData 255 [65535]) := by decide

theorem wit_frames : (Frame.mk 3 31 (.presence .halted [1, 2, 3, 4, 5, 6, 7, 255])).wellFormed = true ∧
    (Frame.mk 0 1 (.finding 255 255 16777215)).wellFormed = true := by decide

/-- The slowest and the fastest legal sample clock, at the extremes of N_g. -/
def slow : StationBlock := { block with refKHz := 10000, mulM := 5, divP := 1, groupIndex := 14000 }
def fast : StationBlock := { block with refKHz := 40000, mulM := 25, divP := 4, groupIndex := 15000 }

theorem wit_spacing : (1 ≤ slow.divP ∧ 14000 ≤ slow.groupIndex ∧ slow.groupIndex ≤ 15000 ∧
      50000 * slow.divP = slow.refKHz * slow.mulM ∧ slow.refKHz * slow.mulM ≤ 250000 * slow.divP) ∧
    (1 ≤ fast.divP ∧ fast.groupIndex = 15000 ∧ fast.refKHz * fast.mulM = 250000 * fast.divP) ∧
    binSpacing slow = 2141375 ∧ binSpacing fast = 399723 := by decide

theorem wit_spacing_kept : ∃ t, exec .run base = .next t := ⟨_, rfl⟩

theorem wit_levels : 1 ≤ 4095 ∧ 4095 * 2 ^ 6 ≤ 4095 * 2 ^ 6 ∧ 60 + 1 ≤ 4095 ∧ 0 < 60 + 1 := by decide

theorem wit_windows : 1024 ≤ 1024 ∧ 1024 < 16384 ∧ 16384 % 256 = 0 ∧ 16366 < 16384 ∧
    512 ≤ 5021 - 5021 % 256 ∧ 5021 - 5021 % 256 + 512 ≤ 16384 ∧ rec1.len % 256 = 0 ∧ rec1.anchor + 112 ≤ rec1.len ∧
    inCompRange rec1 80 = true ∧ inCompRange rec1 239 = true := by decide

/-- A comparison of two equal traces. -/
def level900 : Problem :=
  { trace := List.replicate 160 (900, false), fingerprint := List.replicate 160 900, anchor := 16, first := 80, last := 143
    theta := 50, rho := 300, floorLevel := 240, spacing := 1020952, held := none }

/-- The same with the light gone from bin 100 on. -/
def broken100 : Problem :=
  { level900 with trace := List.replicate 100 (900, false) ++ List.replicate 60 (100, false) }

theorem test_equal_traces_are_clean : (level900.result 0 false false).outcome = .clean := by decide +kernel
theorem test_lost_light_is_a_break : (broken100.result 0 false false).events.map (·.kind) = [.brk] ∧
    (broken100.result 0 false false).outcome = .broken := by decide +kernel
theorem wit_events : 1 ≤ level900.theta ∧ 32 ≤ level900.anchorBins.length ∧
    ({ level900 with trace := [] } : Problem).anchorBins.length < 32 := by decide +kernel

/-- base with two requests waiting and the engine IDLE. -/
def waiting : State :=
  { base with sched := { base.sched with slots := [(2, request .host 2), (4, request .host 3)] } }

/-- base with span 2's sweep suspended at level 3, and requests of spans 1 and 4. -/
def suspended : State :=
  { base with
    sched := { base.sched with
      slots := [(4, request .host 3)], save := some { sweepOf 2 .full with level := 3 }, resumeExpiry := some 30000 } }

theorem wit_selection : (waiting.engine.state = .idle ∧ Table.wf waiting.sched.slots ∧
      (4, request .host 3) ∈ waiting.sched.slots ∧ slotCandidate waiting 4 (request .host 3) = true ∧
      (∀ e ∈ waiting.sched.slots, slotCandidate waiting e.1 e.2 = true → e.1 ≠ 4 →
        e.2.level < 3 ∨ (e.2.level = 3 ∧ 4 < e.1))) ∧
    (suspended.engine.state = .idle ∧ saveCandidate suspended = true ∧
      (∀ e ∈ suspended.sched.slots, slotCandidate suspended e.1 e.2 = true → e.2.level ≤ 3)) ∧
    (busy .full id).engine.state ≠ .idle ∧ saveCandidate base = false := by decide

/-- base with a request of span 1, whose group is HELD by station 9. -/
def heldSeven : State :=
  { base with
    claims := [(7, ⟨.held 9 2 9000, none⟩)]
    sched := { base.sched with slots := [(1, request .host 2)] } }

theorem wit_prepared :
    (waiting.sched.slots.find 4 = some (request .host 3) ∧ enabledRec waiting 4 = some rec4 ∧ rec4.lightGroup = 0) ∧
    (heldSeven.sched.slots.find 1 = some (request .host 2) ∧ enabledRec heldSeven 1 = some rec1 ∧ rec1.lightGroup ≠ 0 ∧
      heldSeven.claims.find rec1.lightGroup = some ⟨.held 9 2 9000, none⟩) ∧
    (base.claims.find rec1.lightGroup = some ⟨.free, none⟩ ∧ base.line.state ≠ .idle ∧ base.line.state ≠ .passive ∧
      base.port.station ≠ .isolated) := by decide

theorem wit_suspend_resume : (busy .full id).engine.ctx = some (sweepOf 4 .full) ∧
    suspended.sched.save = some { sweepOf 2 .full with level := 3 } ∧ suspended.sched.resumeExpiry = some 30000 ∧
    lightGroupOf suspended 2 = 0 := by decide

/-- base in LOCKING since 4,998 ms. -/
def locking : State :=
  { dozing with clock := { base.clock with state := .locking, lockExpiry := some 5000 } }

theorem wit_locking : locking.clock.state = .locking ∧ locking.clock.lockExpiry = some 5000 ∧ 5000 ≤ locking.clock.now ∧
    ({ locking with port := { locking.port with station := .halted } } : State).port.station ≠ .running ∧
    base.clock.state ≠ .locking := by decide

/-- busy at a time of day. -/
def atTime (tod : Nat) (p : Phase) (s : State) : State := { s with clock := { s.clock with tod := tod, phase := p } }

theorem wit_window_start : phaseAt base.cfg.block 40000000 = .outside ∧
    ((atTime 3600000 .outside (busy .full id)).clock.phase = .outside ∧
      phaseAt block 3600000 = .inside ∧ phaseAt block 3599999 = .outside ∧
      (atTime 3600000 .outside (busy .full id)).occupied ∧
      (1, 1) ∈ (atTime 3600000 .outside (busy .full id)).clock.countdowns ∧ isEnabled base 1 = true ∧
      1 ∉ base.sched.off ∧ base.sched.slots.find 1 = none) ∧
    (dozing.clock.state = .dozing ∧ dozing.port.station ≠ .isolated) := by decide

/-- busy in the window, with a ROUTINE waiting for spans 1 and 2, span 2's line asserted. -/
def windowed : State :=
  atTime 7200000 .inside
    { busy .full id with
      sched := { base.sched with slots := [(1, request .routine 0), (2, request .routine 0)] }
      alerts := ⟨[2], [], []⟩ }

theorem wit_window_end : base.clock.phase = .outside ∧
    (windowed.clock.phase = .inside ∧ phaseAt block 7200000 = .outside ∧ phaseAt block 7199999 = .inside ∧
      windowed.occupied ∧ Table.wf windowed.sched.slots ∧ windowed.sched.slots.find 1 = some (request .routine 0) ∧
      alertModeOfSpan windowed 1 ≠ .level ∧ alertModeOfSpan windowed 2 = .level ∧ 2 ∈ windowed.alerts.asserted ∧
      2 ∉ windowed.sched.off ∧ ctxIs windowed.engine.ctx 2 = false ∧ ctxIs windowed.sched.save 2 = false ∧
      windowed.alerts.timers.find 2 = none) := by decide

/-- base with the doze delay run out, span 2 PRESENT outside the retained banks, a load of span 4. -/
def sleepy : State :=
  { base with
    clock := { base.clock with dozeExpiry := some 5000 }
    store := ⟨[(65536, 900)], [(16, ⟨2, 0, 256⟩)], [(2, .present), (4, .writing)], some ⟨4, 0⟩⟩ }

theorem wit_doze : base.clock.dozeExpiry = none ∧
    (sleepy.cfg.block.dozeEnable = true ∧ sleepy.clock.state = .awake ∧ sleepy.port.station = .running ∧
      sleepy.clock.phase = .outside ∧ pendingCandidate sleepy = false ∧ sleepy.engine.state = .idle ∧
      sleepy.sched.save = none ∧ sleepy.corr = [(3, .idle)] ∧ sleepy.clock.dozeExpiry = some 5000 ∧
      5000 ≤ sleepy.clock.now ∧ Table.wf sleepy.cfg.spans) ∧
    ((2, rec2) ∈ enabledSpans sleepy ∧ fpOf sleepy 2 = .present ∧
      (∃ p ∈ rec2.pages, sleepy.cfg.block.retention.getLsbD (p / 16) = false)) ∧
    ((1, rec1) ∈ enabledSpans sleepy ∧ ∀ p ∈ rec1.pages, sleepy.cfg.block.retention.getLsbD (p / 16) = true) ∧
    (sleepy.store.load = some ⟨4, 0⟩ ∧ enabledRec sleepy 4 = some rec4 ∧
      ∃ p ∈ rec4.pages, sleepy.cfg.block.retention.getLsbD (p / 16) = false) ∧ base.store.load = none := by decide

/-- busy with alert lines, latches and a re-raise timer that has run out. -/
def alerted : State := { busy .full id with alerts := ⟨[2], [1], [(2, 5000), (4, 5001)]⟩ }

theorem wit_alerts : 2 ∈ alerted.alerts.asserted ∧ 4 ∉ alerted.alerts.asserted ∧
    (alertModeOfSpan alerted 4 = .off) ∧
    (1 ∉ (busy .full id).alerts.asserted ∧ alertModeOfSpan (busy .full id) 1 = .edge ∧ (busy .full id).occupied ∧
      1 ∉ (busy .full id).alerts.latches ∧ 1 ∉ (busy .full id).sched.off ∧ (busy .full id).sched.slots.find 1 = none) ∧
    1 ∈ alerted.alerts.latches ∧
    (2 ∉ (busy .full id).alerts.asserted ∧ alertModeOfSpan (busy .full id) 2 = .level ∧
      ctxIs (busy .full id).engine.ctx 2 = false ∧ (busy .full id).alerts.timers.find 2 = none) ∧
    (offTwo.alerts.timers.find 2 = none ∧ 2 ∈ offTwo.sched.off) ∧
    (alerted.alerts.timers.find 4 = some 5001 ∧ alerted.clock.now < 5001) ∧ alerted.alerts.timers.find 1 = none ∧
    (alerted.alerts.timers.find 2 = some 5000 ∧ 5000 ≤ alerted.clock.now ∧ alerted.occupied ∧
      2 ∉ alerted.sched.off ∧ alerted.sched.slots.find 2 = none) := by decide

theorem wit_no_round (h : Nat) (r : OpenRound) : (h, CorrRecord.opened r) ∉ base.corr := by simp [base]

/-- base with the switch on its way to port 4. -/
def travelling (st : EngineState) (f : Ctx → Ctx) (e : Nat) : State := { busy st f with switch := .travelling 4 e }

theorem wit_switch : (∀ p e, base.switch ≠ .travelling p e) ∧
    ((travelling .preparing id 5001).switch = .travelling 4 5001 ∧ (travelling .preparing id 5001).clock.now < 5001) ∧
    ((travelling .preparing id 5000).switch = .travelling 4 5000 ∧ 5000 ≤ (travelling .preparing id 5000).clock.now ∧
      (travelling .preparing id 5000).engine.ctx = some (sweepOf 4 .preparing) ∧
      (travelling .preparing id 5000).engine.state = .preparing ∧
      (travelling .preparing id 5000).sched.selection = none ∧ (sweepOf 4 .preparing).resumed = false) ∧
    (travelling .preparing (fun c => { c with resumed := true }) 5000).engine.ctx.map (·.resumed) = some true ∧
    ctxIs base.engine.ctx 4 = false := ⟨nofun, by decide⟩

/-- busy in DARK with n dark shots of 60 codes taken. -/
def darkAfter (n : Nat) : State :=
  { busy .dark id with engine := { (busy .dark id).engine with darkShots := n, darkTotal := n * 256 * 60 } }

theorem wit_dark : 0 < 256 ∧ base.engine.state ≠ .dark ∧
    ((darkAfter 14).engine.state = .dark ∧ (darkAfter 14).engine.ctx = some (sweepOf 4 .dark) ∧
      enabledRec (darkAfter 14) 4 = some rec4 ∧ (sweepOf 4 .dark).window.getD (0, rec4.len) = (0, 256) ∧
      (darkAfter 14).engine.darkShots + 1 < 16 ∧ 16 ≤ (darkAfter 15).engine.darkShots + 1) ∧
    (darkLevelOf (16 * 256 * 200) 256 = 200 ∧ 200 ≤ base.cfg.block.foreignLight ∧
      base.cfg.block.foreignLight < darkLevelOf (16 * 256 * 201) 256) ∧
    base.comp.results.find 4 = some noResult ∧ base.notices.fifo.length < 32 := by decide

theorem wit_shot_length : (shot 60).length = rec4.len := List.length_replicate

theorem wit_lit : base.engine.ctx = none ∧ faulted.engine.laserFault ≠ none ∧
    ((firing 63).engine.ctx = some { sweepOf 4 .full with litDone := 63 } ∧ (firing 63).engine.state = .full ∧
      enabledRec (firing 63) 4 = some rec4 ∧ (sweepOf 4 .full).interleavedDue = false ∧
      (firing 63).switch = .settled 4 ∧ lightGroupOf (firing 63) 4 = 0 ∧ (firing 63).engine.laserFault = none) ∧
    63 + 1 < 2 ^ rec4.shots ∧ 2 ^ rec4.shots ≤ 255 + 1 := by decide +kernel

theorem wit_interleaved : 0 < 256 ∧ 256 % 2 = 0 ∧ base.engine.ctx = none ∧ (sweepOf 4 .full).interleavedDue = false ∧
    ((busy .full fun c => { c with interleavedDue := true, litDone := 256 }).engine.state = .full ∧
      (busy .full id).clock.state = .awake ∧ darkMean (256 * 160) 256 = 160 ∧ ¬ 60 + base.cfg.block.disturbance < 160 ∧
      60 + base.cfg.block.disturbance < darkMean (256 * 161) 256) ∧
    (256 % 256 = 0 ∧ 1 < 3 ∧ (busy .full id).sched.save = none ∧
      urgentElsewhere { busy .full id with sched := { base.sched with slots := [(2, request .host 3)] } } 4 = true) ∧
    64 % 256 ≠ 0 := by decide

/-- busy in REDUCING, the reducer FILLING or the trace VALID. -/
def reducing (f : Ctx → Ctx) : State :=
  { busy .reducing f with trace := ⟨.filling, some ⟨4, 256, 8, 60, none, 0⟩, []⟩ }
def comparing (f : Ctx → Ctx) : State := { busy .reducing f with trace := traced.trace }

theorem wit_reduction : base.engine.ctx = none ∧ (comparing id).trace.state ≠ .filling ∧
    ((reducing id).engine.state = .reducing ∧ (reducing id).trace.state = .filling ∧
      (reducing id).trace.desc = some ⟨4, 256, 8, 60, none, 0⟩ ∧ enabledRec (reducing id) 4 = some rec4 ∧
      countSaturated (List.replicate 256 (1806, true)) 80 239 = 160) ∧
    256 < countSaturated (List.replicate 400 (1806, true)) 0 256 := by decide +kernel

theorem wit_comparison : base.engine.ctx = none ∧ (reducing id).trace.state ≠ .valid ∧
    ((comparing id).engine.ctx = some (sweepOf 4 .reducing) ∧ (comparing id).engine.state = .reducing ∧
      enabledRec (comparing id) 4 = some rec4 ∧ (comparing id).trace.state = .valid ∧
      (sweepOf 4 .reducing).refPresent = false ∧ (sweepOf 4 .reducing).kind ≠ .baseline) := by decide

/-- Span 2 cut down to 160 bins, to keep the comparison small. -/
def short2 : SpanRecord := { rec2 with len := 160 }

/-- A comparison of span 2, PRESENT at level 900. -/
def cut (levels : List (Nat × Bool)) : State :=
  { base with
    cfg := { base.cfg with spans := [(2, short2)] }
    engine := ⟨.reducing, some { sweepOf 2 .reducing with refPresent := true }, none, false, 0, 0⟩
    trace := ⟨.valid, some ⟨2, 160, 8, 60, none, 0⟩, levels⟩
    store := ⟨Table.number 65536 (List.replicate 160 900), [(16, ⟨2, 0, 160⟩)], [(2, .present)], none⟩ }

/-- Light that ends at bin 100. -/
def cutLevels : List (Nat × Bool) := List.replicate 100 (900, false) ++ List.replicate 60 (100, false)

theorem wit_full_comparison : (cut cutLevels).engine.ctx = some { sweepOf 2 .reducing with refPresent := true } ∧
    enabledRec (cut cutLevels) 2 = some short2 ∧
    (compared (cut cutLevels) { sweepOf 2 .reducing with refPresent := true } short2).events.map (·.kind) = [.brk] ∧
    (cut cutLevels).corr.find short2.sheathGroup = some .idle ∧ short2.sheathGroup ≠ 0 := by decide +kernel

theorem wit_clean_comparison : (compared (cut (List.replicate 160 (900, false)))
    { sweepOf 2 .reducing with refPresent := true, quickOnly := true } short2).events = [] := by decide +kernel

/-- busy writing a baseline, with another sweep set aside whose resume timer has run out. -/
def storing : State :=
  { busy .storing fun c => { c with kind := .baseline } with
    trace := traced.trace
    sched := { base.sched with save := some (sweepOf 2 .full), resumeExpiry := some 5000 } }

theorem wit_storing : base.engine.ctx = none ∧ storing.engine.state = .storing ∧ enabledRec storing 4 = some rec4 ∧
    0 < storing.trace.entries.length ∧ base.sched.save = none ∧
    (suspended.sched.resumeExpiry = some 30000 ∧ suspended.clock.now < 30000) ∧
    (storing.sched.resumeExpiry = some 5000 ∧ 5000 ≤ storing.clock.now ∧ storing.sched.save = some (sweepOf 2 .full)) := by
  decide +kernel

theorem wit_laser : dozing.clock.state ≠ .awake ∧ base.clock.state = .awake ∧ faulted.engine.laserFault = some .drive ∧
    ((busy .full id).engine.ctx = some (sweepOf 4 .full) ∧ (busy .full id).sched.selection = none ∧
      (busy .full id).engine.state = .full) ∧
    (claiming.sched.selection = some (.slot 1) ∧ claiming.engine.ctx = none) ∧
    (storing.engine.ctx ≠ none ∧ storing.sched.selection = none ∧ storing.engine.state = .storing) ∧
    base.engine.ctx = none ∧ base.sched.selection = none := by decide

/-- base with a line state, an attempt and a queue. -/
def lined (st : LineState) (a : Option TxFrame) (q : List TxFrame) : State :=
  { base with line := { base.line with state := st, attempt := a, queue := q } }

theorem wit_line :
    (queueHead [⟨1, 0, .presence .running []⟩, ⟨2, 3, .claim 7 3⟩, ⟨3, 3, .finding 3 1 0⟩] = some ⟨2, 3, .claim 7 3⟩) ∧
    (lined .passive none []).line.state ≠ .gap ∧ (lined .gap none []).line.queue = [] ∧
    (queueHead (lined .idle none [⟨2, 3, .claim 7 3⟩]).line.queue = some ⟨2, 3, .claim 7 3⟩ ∧
      (lined .idle none [⟨2, 3, .claim 7 3⟩]).port.station ≠ .isolated) ∧
    ((lined .arbitrating (some ⟨0, 0, .presence .running []⟩) [⟨1, 0, .presence .halted []⟩]).line.attemptDropped = false ∧
      sameFrame (.presence .halted []) (.presence .running []) = true ∧
      sameFrame (.claim 7 3) (.presence .running []) = false) ∧
    (claimFrames (lined .arbitrating (some ⟨0, 3, .claim 7 3⟩) [⟨1, 1, .release 8 1⟩]).line.queue).length < 2 ∧
    (base.claims.find 7 = some ⟨.free, none⟩ ∧ base.claims.find 8 = none ∧ ownClaim .free = false ∧
      ownClaim (.opened 1 9000) = true) := by decide

theorem wit_received : (lined .gap none []).line.state ≠ .busy ∧ parseFrame [] = none ∧
    base.line.state = .busy ∧ (heard (.claim 7 3) base).line.inbox.length < 8 ∧
    (List.replicate 8 (⟨9, .claim 7 3, 0, 0⟩ : RxFrame)).length = 8 ∧ State.reset.port.station = .unconfigured ∧
    ((lined .sending none []).line.state = .sending ∧ (lined .sending none []).port.station = .running ∧
      (lined .sending none []).engineSound ∧ Table.wf (lined .sending none []).claims) ∧
    base.engineSound := by decide

theorem wit_own_id : parseFrame (Frame.lineBits ⟨3, 5, .claim 12 3⟩) = some ⟨3, 5, .claim 12 3⟩ ∧ base.line.id = 5 ∧
    parseFrame (Frame.lineBits ⟨3, 9, .claim 12 3⟩) = some ⟨3, 9, .claim 12 3⟩ := by decide +kernel

theorem wit_presence : base.line.inbox = [] ∧
    (heard (.presence .dozing [3, 4]) base).line.inbox = ⟨9, .presence .dozing [3, 4], 39999990, 4990⟩ :: [] ∧
    base.peers.table.find 9 = some ⟨39999000, .running, [3], 8000⟩ ∧ base.peers.table.find 10 = none ∧
    PresenceState.running ≠ .dozing ∧ [3] ≠ ascSet [3, 4] := by decide

theorem wit_peer_timers : (State.reset.peers.presence = none ∧ State.reset.peers.learning = none) ∧
    (base.peers.presence = some 6000 ∧ base.clock.now < 6000) ∧
    (twoDue.peers.presence = some 5000 ∧ 5000 ≤ twoDue.clock.now ∧ twoDue.peers.learning = some 5000 ∧
      twoDue.port.station ≠ .isolated ∧ twoDue.port.station ≠ .learning ∧ twoDue.line.state ≠ .passive ∧
      twoDue.line.state ≠ .idle) ∧
    ({ busy .full id with port := { base.port with station := .learning } } : State).port.station = .learning ∧
    (base.peers.table.find 9 = some ⟨39999000, .running, [3], 8000⟩ ∧ base.clock.now < 8000) ∧
    ({ base with clock := { base.clock with now := 8000 } } : State).clock.now = 8000 := by decide

/-- busy with an OPEN claim of group 7 for span 1. -/
def opened : State :=
  { base with
    claims := [(7, ⟨.opened 2 5000, none⟩)]
    engine := ⟨.full, some (sweepOf 1 .full), none, false, 0, 0⟩
    switch := .settled 1 }

theorem wit_claims : 5 ≠ 9 ∧ base.claims.find 8 = none ∧ (busy .full id).occupied ∧
    ((busy .full id).claims.find 7 = some ⟨.free, none⟩ ∧ ownClaim .free = false) ∧
    (claiming.claims.find 7 = some ⟨.claiming 2 (some 5000), none⟩ ∧ peerWins claiming.line.id 9 3 2 = true ∧
      claiming.sched.selection = some (.slot 1) ∧ lightGroupOf claiming 1 = 7 ∧
      claiming.sched.slots.find 1 = some { request .host 2 with selected := true }) ∧
    (peerWins claiming.line.id 9 2 2 = false ∧ claiming.line.state ≠ .idle ∧ claiming.line.state ≠ .passive) ∧
    (opened.claims.find 7 = some ⟨.opened 2 5000, none⟩ ∧ peerWins opened.line.id 9 2 2 = false ∧
      peerWins opened.line.id 4 2 2 = true ∧ opened.engine.ctx = some (sweepOf 1 .full) ∧
      opened.sched.selection = none ∧ lightGroupOf opened 1 = 7 ∧ opened.engine.state ≠ .storing ∧
      opened.comp.results.find 1 = some noResult) := by decide

theorem wit_held : ((heard (.release 7 2) heldSeven).line.inbox = ⟨9, .release 7 2, 39999990, 4990⟩ :: [] ∧
      heldSeven.claims.find 7 = some ⟨.held 9 2 9000, none⟩ ∧ heldSeven.clock.now < 9000) ∧
    (base.claims.find 7 ≠ some ⟨.held 9 2 9000, none⟩) ∧
    ({ busy .full id with claims := [(7, ⟨.held 9 2 5000, none⟩)] } : State).occupied ∧
    ¬ heldSeven.occupied ∧ heldSeven.sched.selection = none := by decide

-- R161: an idle engine takes the freed group's waiting request in the row of the RELEASE.
theorem test_release_lets_the_engine_ask : (after .releaseDelivered (heard (.release 7 2) heldSeven)).sched.selection = some (.slot 1) ∧
    (after .releaseDelivered (heard (.release 7 2) heldSeven)).engine.state = .preparing := by decide

/-- base seeking group 7 again for the suspended sweep of span 1. -/
def resuming : State :=
  { base with
    claims := [(7, ⟨.claiming 1 (some 5000), none⟩)]
    sched := { base.sched with selection := some .save }
    engine := { base.engine with state := .preparing, ctx := some { sweepOf 1 .preparing with resumed := true } } }

theorem wit_hold_off : base.claims.find 7 = some ⟨.free, none⟩ ∧
    (claiming.claims.find 7 = some ⟨.claiming 2 (some 5000), none⟩ ∧ 5000 ≤ claiming.clock.now ∧
      claiming.sched.selection = some (.slot 1) ∧ enabledRec claiming 1 = some rec1 ∧ rec1.lightGroup = 7 ∧
      claiming.engine.state = .preparing) ∧
    (resuming.claims.find 7 = some ⟨.claiming 1 (some 5000), none⟩ ∧ resuming.sched.selection = some .save ∧
      resuming.engine.ctx = some { sweepOf 1 .preparing with resumed := true } ∧ lightGroupOf resuming 1 = 7) ∧
    (opened.claims.find 7 = some ⟨.opened 2 5000, none⟩ ∧ 5000 ≤ opened.clock.now) := by decide

/-- base with an OPEN round for group 3. -/
def inRound (s : State) (e : Nat) : State := { s with corr := [(3, .opened { openRound with expiry := e })] }

theorem wit_findings : 350821 < 350822 ∧ (heard (.finding 3 1 1000) base).line.inbox ≠ [] ∧
    base.corr.find 4 = none ∧ base.corr.find 3 = some .idle ∧ (busy .full id).occupied ∧
    ((inRound base 60000).corr.find 3 = some (.opened openRound) ∧ reportOf 2 350821 = some ⟨.bend, some 350821⟩ ∧
      5 ∈ existsSet base 3 ∧ openRound.joined.find 5 = none) ∧
    (faulted.engine.laserFault ≠ none ∧ faulted.line.id = 5 ∧
      10 ∈ existsSet { faulted with peers := { base.peers with table := [(10, ⟨0, .running, [3], 8000⟩)] } } 3) ∧
    ((2, rec2) ∈ enabledSpans (busy .full id) ∧ rec2.sheathGroup = 3 ∧ 2 ∉ (busy .full id).sched.off ∧
      rec2.anchor + 64 ≤ binOf 1020952 (808 + rec2.offset) ∧ binOf 1020952 (808 + rec2.offset) = 80 ∧
      binOf 1020952 (2430 + rec2.offset) = 239 ∧ 239 + 17 ≤ rec2.len ∧
      (busy .full id).sched.slots.find 2 = none ∧ Table.wf (busy .full id).cfg.spans) := by decide

theorem wit_rounds : base.corr.find 3 = some .idle ∧
    ((inRound base 5000).corr.find 3 = some (.opened { openRound with expiry := 5000 }) ∧ 5000 ≤ base.clock.now) ∧
    (inRound base 5001).clock.now < 5001 ∧
    (openRound.joined.filter fun e => decide ((e.2.kind = .brk ∨ e.2.kind = .bend) ∧ e.2.dist = some 1000)).length = 1 ∧
    ({ base with corr := [(3, .settled ⟨.brk, 1000, 0, [], 5000⟩)] } : State).corr.find 3 =
      some (.settled ⟨.brk, 1000, 0, [], 5000⟩) ∧ (busy .full id).occupied := by decide

/-! ## States that meet the hypotheses of the clauses on stops, frames and rounds -/

theorem wit_reference : dueEvents { base with reference := [false, true] } = [] ∧
    ({ base with reference := [true] } : State).reference = true :: [] ∧ base.reference = [] := by decide
theorem test_stopped_reference : step { base with reference := [false] } = .next base := rfl
theorem test_running_reference : step { base with reference := [true] } =
    .next { base with clock := { base.clock with now := 5001, tod := 40000001 } } := rfl

theorem wit_start_alert : staged.engine.ctx = none ∧
    (after (.start 0) { staged with alerts := ⟨[1, 2], [], []⟩ }).sched.slots =
      [(2, ⟨.alert, 2, false, none, none, 0, false⟩)] := by decide +kernel

/-- base seeking group 7 for the request of span 1, with its CLAIM still waiting. -/
def seeking : State :=
  { claiming with claims := [(7, ⟨.claiming 2 none, none⟩)], line := { base.line with queue := [⟨0, 2, .claim 7 2⟩] } }

theorem wit_stops : (storing.port.station = .running ∧ storing.engineSound ∧ storing.sched.selection = none ∧
      storing.engine.ctx.map (·.span) = some 4 ∧ isEnabled storing 4 = true ∧ 4 ∉ storing.sched.off ∧
      storing.notices.fifo.length < 31) ∧
    (seeking.port.station = .running ∧ seeking.engineSound ∧ seeking.sched.selection = some (.slot 1) ∧
      engineSpan seeking = some 1 ∧ seeking.engine.ctx = none ∧ seeking.sched.slots.find 1 ≠ none ∧
      (∀ e ∈ seeking.sched.slots, e.1 ≠ 1 → slotCandidate seeking e.1 e.2 = false) ∧ saveCandidate seeking = false ∧
      seeking.line.state ≠ .idle ∧ seeking.onLine ∧ seeking.clock.state = .awake) ∧
    (lightGroupOf seeking 1 = 7 ∧ claiming.claims.find 7 = some ⟨.claiming 2 (some 5000), none⟩ ∧
      seeking.claims.find 7 = some ⟨.claiming 2 none, none⟩) ∧
    ({ storing with line := { storing.line with state := .sending } } : State).engineSound := by decide
theorem test_given_up_claim_leaves : (after .halt seeking).line.queue.map (·.body) = [.presence .halted [3]] ∧
    (after .halt claiming).line.queue.map (·.body) = [.release 7 2, .presence .halted [3]] := by decide

theorem wit_read_bursts : enabledRec base 3 = none ∧ fpOf base 3 ≠ .writing ∧ fpOf printed 1 = .present ∧
    rec1.len ≤ 256 ∧ 255 < rec1.len ∧ 16 < 17 ∧ rec1.len < 255 / 1024 * 1024 + 1024 ∧
    255 / 16 * 16 + 16 ≤ rec1.len := by decide

/-- A queue with a RELEASE, a PRESENCE and a CLAIM, in order of age. -/
def queued : State :=
  { base with line := { base.line with
      nextAge := 4, queue := [⟨1, 1, .release 8 1⟩, ⟨2, 0, .presence .running [3]⟩, ⟨3, 2, .claim 7 2⟩] } }

theorem wit_queue : queued.tablesSound ∧ queued.queueBounded ∧ queued.line.agesSound ∧ queued.onLine ∧
    queued.line.state ≠ .idle ∧ sameFrame (.presence .running [3]) (.presence .halted [3]) = true ∧
    (∀ f ∈ queued.line.queue, sameFrame f.body (.claim 9 1) = false) ∧ isClaimFrame (.finding 3 1 0) = false ∧
    (claimFrames queued.line.queue).length = 2 ∧ isRelease (.release 8 1) = true ∧
    isClaimOf 7 (.claim 7 2) = true ∧ ¬ State.reset.onLine := by decide
theorem test_third_claim_frame : (offer queued 1 (.claim 9 1)).line.queue.map (·.age) = [2, 3, 4] ∧
    (offer queued 3 (.hold 7 3)).line.queue.map (·.urgency) = [1, 0, 3] := by decide
theorem test_returning_claim_frame_makes_room : queueReturn [⟨2, 1, .hold 7 1⟩, ⟨3, 1, .hold 8 1⟩] ⟨1, 2, .claim 8 2⟩ =
    [⟨1, 2, .claim 8 2⟩, ⟨3, 1, .hold 8 1⟩] := by decide

theorem wit_resume_shared : ({ base with sched := { base.sched with
      save := some (sweepOf 1 .full), resumeExpiry := some 30000 } } : State).sched.resumeExpiry = some 30000 ∧
    lightGroupOf base 1 ≠ 0 ∧ base.claims.find (lightGroupOf base 1) = some ⟨.free, none⟩ ∧ base.onLine ∧
    base.switch ≠ .settled 1 := by decide

theorem wit_doze_notices : sleepy.line.state ≠ .passive ∧ (after .dozeEntry sleepy).notices.fifo.map (·.body) =
    [.fpLost 2 .retention, .fpLost 4 .loadCancelled] := by decide +kernel

theorem wit_last_shot : (opened.engine.state = .full ∧ enabledRec opened 1 = some rec1 ∧
    (sweepOf 1 .full).interleavedDue = false ∧ 255 + 1 = 2 ^ rec1.shots) := by decide

/-- base in a round in which the own station has reported, with station 9 alone in the peer table. -/
def reported : State :=
  { base with corr := [(3, .opened { openRound with
      joined := [(5, ⟨.bend, some 1010⟩), (9, ⟨.brk, some 1000⟩)], reported := true })] }

theorem wit_peer_change : Table.wf reported.corr ∧ reported.onLine ∧
    (∀ i ∈ existsSet reported 3, i = 5 ∨ i = 9) ∧ reported.peers.table.find 10 = none ∧
    10 ∉ existsSet reported 3 ∧ 3 ∈ existsSet { reported with peers := ⟨[(3, ⟨0, .running, [3], 8000⟩)], none, none⟩ } 3 ∧
    base.peers.table.find 9 = some ⟨39999000, .running, [3], 8000⟩ ∧ [3] ≠ ascSet [3, 4] ∧
    reported.notices.fifo.length + reported.corr.length + 2 ≤ 32 := by decide
theorem test_newcomer_hears_the_fault :
    (after .presenceDelivered { reported with line := { base.line with
      inbox := [⟨10, .presence .running [3], 0, 4990⟩] } }).line.queue = [⟨1, 3, .finding 3 2 1010⟩] := by decide
theorem test_last_join_completes :
    (after .findingDelivered (heard (.finding 3 1 1000) { base with
      corr := [(3, .opened { openRound with joined := [(5, ⟨.bend, some 1010⟩)], reported := true })] })).notices.fifo =
      [⟨.verdict 3 true 2 0 false [5, 9] [5, 9], 40000000⟩] := by decide

/-- A round that waits for spans 2 and 4, or for one of them. -/
def asking (spans : List Nat) : OpenRound := { openRound with outstanding := spans.map fun n => (n, 100) }

/-- `cut` as the CONFIRM sweep of a round. -/
def confirming (spans : List Nat) (s : State) : State :=
  { s with
    corr := [(3, .opened (asking spans))]
    engine := { s.engine with ctx := s.engine.ctx.map fun c =>
      { c with kind := .confirm, target := some 100, round := some 3 } } }

theorem wit_decisions :
    ((confirming [2] (cut cutLevels)).corr.find 3 = some (.opened (asking [2])) ∧
      (asking [2]).outstanding.find 2 = some 100 ∧ (∀ n ∈ (asking [2]).outstanding.keys, n = 2) ∧
      (asking [2, 4]).outstanding.find 4 ≠ none ∧ (asking [4]).outstanding.find 2 ≠ some 100 ∧
      Table.wf (confirming [2] (cut cutLevels)).corr ∧ (asking [2]).best = none) ∧
    (({ putSlot base 4 { request .confirm 3 with target := some 100, round := some 3 } with
      corr := [(3, .opened (asking [4]))] } : State).sched.slots.find 4).map (·.kind) = some .confirm ∧
    ((asking [2]).reported = false ∧ (asking [2]).allOut = false ∧ chosenReport (asking [2]) ⟨.outOfService, none⟩) := by
  refine ⟨by decide +kernel, by decide, rfl, rfl, ?_, ?_, ?_, ?_⟩
  · intro b hb; cases hb
  · intro _ hs; cases hs
  · intro _ _ hs; cases hs
  · intros; rfl
theorem wit_best : bestAmong 1000 [⟨.bend, 1000, 1⟩, ⟨.brk, 1020, 4⟩, ⟨.brk, 1010, 4⟩, ⟨.brk, 1010, 2⟩] (some ⟨.brk, 1010, 2⟩) ∧
    bestAmong 1000 [] none := by
  refine ⟨⟨by simp, ?_⟩, by simp, nofun⟩
  rintro b ⟨⟩
  refine ⟨by simp, ?_⟩
  simp [chosenBefore, gapOf]
/-- Bin 93 is the first whose eight bins hold a lost one (R114, R115); it lies at 949 dm (R26), less the sheath offset of 10. -/
theorem test_last_confirm_reports : (after .comparisonComplete (confirming [2] (cut cutLevels))).line.queue.map (·.body) =
    [.finding 3 1 939] ∧
    (after .comparisonComplete (confirming [2, 4] (cut cutLevels))).line.queue = [] := by decide +kernel
theorem test_halt_reports_out_of_service : (after .halt { base with corr := [(3, .opened (asking [2]))] }).line.queue.map
    (·.body) = [.finding 3 5 0, .presence .halted [3]] := by decide

/-! ## States that meet the hypotheses on ends, releases, returns and the doze delay timer -/

/-- s with a transmission under way. -/
def sendingFrom (s : State) : State := { s with line := { s.line with state := .sending } }

theorem wit_returned_resume : (resuming.port.station = .running ∧ resuming.engineSound ∧
      resuming.engine.ctx = some { sweepOf 1 .preparing with resumed := true } ∧
      resuming.sched.selection = some .save ∧ isEnabled resuming 1 = true ∧ 1 ∉ resuming.sched.off ∧
      resuming.clock.state = .awake ∧ lightGroupOf resuming 1 = 7 ∧ peerWins resuming.line.id 9 2 1 = true) ∧
    ((sendingFrom resuming).engineSound ∧ Table.wf (sendingFrom resuming).claims) ∧
    inAttempt (lined .sending (some ⟨0, 1, .claim 7 1⟩) []) (isClaimOf 7) = true ∧
    inAttempt resuming (isClaimOf 7) = false := by decide
theorem test_withdrawn_resume_returns :
    (after .holdDelivered (heard (.hold 7 0) { resuming with sched := { resuming.sched with resumeLeft := 12345 } })).sched.resumeExpiry =
      some 17345 ∧
    (after .holdDelivered (heard (.hold 7 0) resuming)).sched.save.map (·.resumed) = some true ∧
    (after .claimDelivered (heard (.claim 7 3) { claiming with
      line := { base.line with state := .sending, attempt := some ⟨0, 2, .claim 7 2⟩ } })).claims.find 7 =
      some ⟨.held 9 3 14990, some (.withdrawn, 2)⟩ := by decide +kernel

theorem wit_open_claim : (opened.engineSound ∧ opened.onLine ∧ opened.claims.find 7 = some ⟨.opened 2 5000, none⟩ ∧
      opened.engine.ctx = some (sweepOf 1 .full) ∧ opened.sched.selection = none ∧ lightGroupOf opened 1 = 7 ∧
      isEnabled opened 1 = true ∧ 1 ∉ opened.sched.off) ∧
    ((sendingFrom opened).engineSound ∧ (sendingFrom opened).line.state = .sending) ∧
    opened.comp.results.find 1 = some noResult := by decide
theorem test_release_at_halt_and_suspension : (after .halt opened).line.queue.map (fun f => (f.urgency, f.body)) =
      [(2, .release 7 2), (0, .presence .halted [3])] ∧
    (suspend opened).line.queue.map (·.body) = [.release 7 2] := by decide
theorem test_end_answers_the_alert_input :
    (after .halt { busy .full (fun c => { c with span := 1, answersLatch := true }) with
      alerts := ⟨[], [1, 4], []⟩ }).alerts.latches = [4] ∧
    (after .halt (busy .full fun c => { c with span := 2 })).alerts.timers = [(2, 65000)] := by decide

theorem wit_quick_shots : ({ firing 63 with engine := { (firing 63).engine with state := .quick } } : State).engine.state = .quick ∧
    (firing 63).engine.ctx.map (·.litDone + 1) = some 64 ∧ (firing 62).engine.ctx.map (·.litDone + 1) = some 63 ∧
    (firing 63).engine.ctx.map (·.interleavedDue) = some false ∧ enabledRec (firing 63) 4 = some rec4 := by decide +kernel
theorem test_sixty_four_quick_shots :
    (after (.litShotComplete (shot 500)) { firing 63 with engine := { (firing 63).engine with state := .quick } }).engine.state = .reducing ∧
    (after (.litShotComplete (shot 500)) { firing 62 with engine := { (firing 62).engine with state := .quick } }).engine.state = .quick := by
  decide +kernel

theorem wit_settle : (dozing.clock.state = .dozing ∧
      pendingCandidate { dozing with sched := { base.sched with slots := [(4, request .host 2)] } } = true) ∧
    (base.mayDoze ∧ base.clock.dozeExpiry = none) ∧ (sleepy.mayDoze ∧ sleepy.clock.dozeExpiry ≠ none) ∧
    ¬ (busy .full id).mayDoze ∧ base.clock.state ≠ .dozing :=
  ⟨by decide, ⟨(dozeConditions_iff _).1 (by decide), rfl⟩, ⟨(dozeConditions_iff _).1 (by decide), by decide⟩,
    fun h => absurd ((dozeConditions_iff _).2 h) (by decide), by decide⟩
theorem test_doze_timer : (settle base).clock.dozeExpiry = some 15000 ∧ (settle sleepy).clock.dozeExpiry = some 5000 ∧
    (settle { busy .full id with clock := sleepy.clock }).clock.dozeExpiry = none := by decide
theorem test_candidate_wakes : (after (.sweep 4 2 2) dozing).clock.lockExpiry = some 5002 ∧
    (after (.sweep 4 2 1) dozing).clock.state = .dozing := by decide

/-- sleepy with a request for the span of the load. -/
def bargedIn (l : Nat) : State := { sleepy with sched := { sleepy.sched with slots := [(4, request .host l)] } }

theorem wit_doze_loads : (pendingCandidate (bargedIn 2) = false ∧ (4, request .host 2) ∈ (bargedIn 2).sched.slots ∧
      (request .host 2).selected = false ∧ (bargedIn 2).clock.mask = 2 ∧ 4 ∉ (bargedIn 2).sched.off ∧
      (bargedIn 2).engine.laserFault = none ∧ rec4.lightGroup = 0) ∧
    (request .host 1).level < (bargedIn 1).clock.mask ∧
    (({ sleepy with store := { sleepy.store with load := some ⟨1, 0⟩ } } : State).store.load = some ⟨1, 0⟩ ∧
      enabledRec sleepy 1 = some rec1 ∧ ∀ p ∈ rec1.pages, sleepy.cfg.block.retention.getLsbD (p / 16) = true) := by decide
theorem test_cancelled_load_wakes : (after .dozeEntry (bargedIn 2)).clock.state = .locking ∧
    (after .dozeEntry (bargedIn 1)).clock.state = .dozing := by decide +kernel

theorem wit_problem : (sweepOf 2 .reducing).window = none ∧
    (∃ c : Ctx, c.window = some (4352, 1024)) ∧ (cut cutLevels).store.mem.find (4096 * (16 + 159 / 4096) + 159 % 4096) = some 900 ∧
    (cut cutLevels).comp.results.find 2 = some noResult :=
  ⟨rfl, ⟨{ sweepOf 2 .full with window := some (4352, 1024) }, rfl⟩, by decide +kernel, by decide⟩
theorem test_quick_look_doubles_the_threshold :
    (problemOf (cut cutLevels) { sweepOf 2 .reducing with quickOnly := true } short2).theta = 100 ∧
    (problemOf (cut cutLevels) (sweepOf 2 .reducing) short2).theta = 50 := by decide

/-- `cut` with span 1 of the same sheath group enabled, and a request of it waiting or not. -/
def cutBeside (slots : Table Request) : State :=
  { cut cutLevels with
    cfg := { base.cfg with spans := [(1, rec1), (2, short2)] }
    sched := { base.sched with slots := slots } }

theorem wit_own_round_confirms : (cutBeside []).onLine ∧ Table.wf (cutBeside []).cfg.spans ∧
    enabledRec (cutBeside []) 1 = some rec1 ∧ rec1.sheathGroup = short2.sheathGroup ∧ 1 ∉ (cutBeside []).sched.off ∧
    binOf 1020952 (949 - 10 + rec1.offset) = 92 ∧ rec1.anchor + 64 ≤ 92 ∧ 92 + 17 ≤ rec1.len ∧
    (cutBeside []).sched.slots.find 1 = none ∧
    (cutBeside [(1, request .host 1)]).sched.slots.find 1 = some (request .host 1) ∧
    enabledRec (cutBeside []) 3 = none := by decide +kernel
theorem test_own_round_confirms : (after .comparisonComplete (cutBeside [])).sched.slots =
      [(1, ⟨.confirm, 3, true, some 92, some 3, 40000000, true⟩)] ∧
    (after .comparisonComplete (cutBeside [])).line.queue.map (fun f => (f.urgency, f.body)) =
      [(3, .finding 3 1 939), (3, .claim 7 3)] := by decide +kernel

/-- A round that waits for span 2, of which nothing is gathered yet. -/
def gathering : State := { base with corr := [(3, .opened (asking [2]))] }

theorem wit_inability : gathering.clock.state = .awake ∧ gathering.engine.laserFault = none ∧
    Table.wf gathering.corr ∧ gathering.corr.find 3 = some (.opened (asking [2])) ∧ (asking [2]).reported = false ∧
    (asking [2]).allOut = false ∧ (sendingFrom gathering).line.state = .sending ∧
    gathering.port.station = .running ∧
    (post gathering (.dupId 5 .readback)).notices.fifo.length + gathering.corr.length + 2 ≤ 32 := by decide
theorem test_inability_reports : (after (.laserFaultReport .drive) gathering).line.queue.map (·.body) = [.finding 3 5 0] ∧
    (after .readbackError (sendingFrom gathering)).notices.fifo.map (·.body) =
      [.dupId 5 .readback, .verdict 3 false 1 0 false [5, 9] [5, 9]] ∧
    (after .readbackError (sendingFrom gathering)).line.queue = [] := by decide

/-- Reflections at every fifth bin; the light lasts to bin n. -/
def spiked (n : Nat) : Problem :=
  { level900 with
    theta := 200
    trace := (List.range 160).map fun j => (if n ≤ j then 100 else if j % 5 = 0 then 1300 else 900, false) }

theorem wit_many_events : 1 ≤ (spiked 160).theta ∧ 3 ≤ 80 ∧ ((spiked 160).allEvents.length = 13 ∧
      ∀ e ∈ (spiked 160).allEvents, e.kind ≠ .brk) ∧
    (8 < (spiked 130).allEvents.length ∧ ∃ e ∈ (spiked 130).allEvents, e.kind = .brk) := by decide +kernel
theorem test_list_cut_at_eight : ((spiked 160).result 0 false false).events.map (·.bin) =
      [80, 85, 90, 95, 100, 105, 110, 115] ∧
    (((spiked 130).result 0 false false).events.map (·.kind)).getLast? = some .brk := by decide +kernel

/-! ## States that meet the hypotheses on removals, merges and rows that are occasions for selection -/

/-- s with a request waiting for span n. -/
def asked (n : Nat) (r : Request) (s : State) : State := putSlot s n r

/-- claiming with the CLAIM of an earlier, given-up claim still being sent and the new one waiting. -/
def staleSeeking : State :=
  { claiming with
    claims := [(7, ⟨.claiming 2 none, some (.givenUp, 1)⟩)]
    line := { base.line with
      state := .sending, attempt := some ⟨0, 1, .claim 7 1⟩, queue := [⟨1, 2, .claim 7 2⟩], nextAge := 2 } }

theorem wit_stale_withdrawal : staleSeeking.claims.find 7 = some ⟨.claiming 2 none, some (.givenUp, 1)⟩ ∧
    staleSeeking.sched.selection = some (.slot 1) ∧ lightGroupOf staleSeeking 1 = 7 ∧
    staleSeeking.line.attempt = some ⟨0, 1, .claim 7 1⟩ ∧ inAttempt claiming (isClaimOf 7) = false ∧
    staleSeeking.lineSound := by decide
theorem test_stale_claim_withdrawn :
    (after .holdDelivered (heard (.hold 7 3) staleSeeking)).claims.find 7 =
      some ⟨.held 9 3 14990, some (.withdrawn, 1)⟩ ∧
    (after .frameTransmitted (after .holdDelivered (heard (.hold 7 3) staleSeeking))).line.queue = [] := by decide

/-- seeking with a better request for another span in the table. -/
def outbid : State := asked 4 (request .host 3) seeking

theorem wit_span_off_ends : ((busy .full id).engine.ctx = some (sweepOf 4 .full) ∧ isEnabled (busy .full id) 4 = true ∧
      4 ∉ (busy .full id).sched.off ∧ (busy .full id).sched.selection ≠ some (.slot 4) ∧
      ctxIs (busy .full id).sched.save 4 = false ∧ (busy .full id).comp.results.find 4 = some noResult ∧
      (busy .full id).notices.fifo.length < 30) ∧
    (storing.sched.save = some (sweepOf 2 .full) ∧ isEnabled storing 2 = true ∧ 2 ∉ storing.sched.off ∧
      storing.comp.results.find 2 = some noResult ∧ ctxIs storing.engine.ctx 2 = false) ∧
    ((asked 4 (request .baseline 2) base).sched.slots.find 4 = some (request .baseline 2)) ∧
    (outbid.sched.selection = some (.slot 1) ∧ outbid.engine.ctx = none ∧ outbid.sched.slots.find 1 ≠ none ∧
      outbid.lineSound ∧ isEnabled outbid 1 = true ∧ 1 ∉ outbid.sched.off ∧
      slotCandidate outbid 4 (request .host 3) = true) ∧
    (2 ∈ offTwo.sched.off ∧ offTwo.alerts.timers.find 2 = none ∧ alertModeOfSpan offTwo 4 ≠ .level ∧ 4 ∈ offTwo.sched.off) := by
  decide
theorem wit_span_off_resume : resuming.sched.selection = some .save ∧ resuming.lineSound ∧ isEnabled resuming 1 = true ∧
    1 ∉ resuming.sched.off ∧ resuming.engine.ctx = some { sweepOf 1 .preparing with resumed := true } := by decide
theorem test_span_off_ends_running : (after (.spanOff 4) (busy .full id)).notices.fifo.map (·.body) = [.sweepDone 4 .aborted] ∧
    (after (.spanOff 4) (busy .full id)).comp.results.find 4 =
      some { noResult with latest := some ⟨.aborted, .host, 1, 40000000, 0, some 60⟩ } := by decide
theorem test_span_off_ends_waiting : (after (.spanOff 2) storing).notices.fifo.map (·.body) = [.sweepDone 2 .aborted] ∧
    (after (.spanOff 4) (asked 4 (request .baseline 2) base)).notices.fifo.map (·.body) =
      [.baselineCancelled 4 .spanOff] ∧
    (after (.spanOff 1) outbid).engine.ctx.map (·.span) = some 4 ∧
    (after (.spanOff 1) outbid).claims.find 7 = some ⟨.free, none⟩ := by decide

theorem wit_ended_by_stops : (busy .full id).notices.fifo.length + (if (busy .full id).engine.state = .storing then 2 else 1) ≤ 32 ∧
    storing.notices.fifo.length + (if storing.engine.state = .storing then 3 else 2) ≤ 32 ∧
    (sendingFrom storing).engineSound ∧ storing.comp.results.find 4 = some noResult ∧
    opened.notices.fifo.length + (if opened.engine.laserFault = none then 2 else 1) ≤ 32 := by decide
theorem test_isolated_ends_aborted : (after .readbackError (sendingFrom storing)).notices.fifo.map (·.body) =
      [.dupId 5 .readback, .fpLost 4 .writeCut, .sweepDone 4 .aborted] ∧
    (after .halt (busy .full id)).notices.fifo.map (·.body) = [.sweepDone 4 .aborted] := by decide +kernel

/-- A windowed CONFIRM of span 4. -/
def windowedConfirm : Request := ⟨.confirm, 3, true, some 100, some 3, 39000000, false⟩

theorem wit_prepared_forms : ((asked 4 windowedConfirm base).sched.slots.find 4 = some windowedConfirm ∧
      windowedConfirm.windowed = true ∧ windowedConfirm.target = some 100 ∧
      confirmWindow rec4.len 100 = (0, 256) ∧ rec4.lightGroup = 0 ∧ base.switch ≠ .settled 4 ∧
      ∀ x, base.switch ≠ .travelling 4 x) ∧
    (({ base with switch := .travelling 4 5010 } : State).switch = .travelling 4 5010) ∧
    (heldSeven.claims.find 7 = some ⟨.held 9 2 9000, none⟩ ∧ heldSeven.sched.slots.find 1 = some (request .host 2)) :=
  ⟨⟨by decide, rfl, rfl, by decide, rfl, by decide, fun _ => nofun⟩, rfl, by decide, by decide⟩
theorem test_windowed_confirm_slot : (beginSlot (asked 4 windowedConfirm base) 4 3).acc.current.count = 256 ∧
    (beginSlot heldSeven 1 2).switch = .travelling 1 5025 := by decide

theorem wit_window_merges : ((atTime 3600000 .outside (asked 1 windowedConfirm base)).engine.state = .idle ∧
      (atTime 3600000 .outside (asked 1 windowedConfirm base)).sched.slots.find 1 = some windowedConfirm ∧
      windowedConfirm.kind ≠ .baseline) ∧
    (atTime 3600000 .outside (asked 1 (request .baseline 1) base)).sched.slots.find 1 = some (request .baseline 1) ∧
    ((atTime 3600000 .outside dozing).clock.phase = .outside ∧ phaseAt block 3600000 = .inside ∧
      (atTime 3600000 .outside dozing).clock.state = .dozing ∧ dozing.port.station = .running ∧
      dozing.line.state ≠ .passive) ∧
    ((atTime 7200000 .inside (asked 1 (request .routine 0) base)).clock.phase = .inside ∧
      phaseAt block 7200000 = .outside ∧
      (atTime 7200000 .inside (asked 1 (request .routine 0) base)).engine.state = .idle ∧
      Table.wf (atTime 7200000 .inside (asked 1 (request .routine 0) base)).sched.slots) := by decide
theorem test_window_merges :
    (after .windowStart (atTime 3600000 .outside (asked 1 windowedConfirm (busy .full id)))).sched.slots =
      [(1, { windowedConfirm with windowed := false })] ∧
    (after .windowEnd (atTime 7200000 .inside (asked 1 (request .routine 0) base))).sched.slots = [] := by decide

theorem wit_alert_merges : (1 ∉ base.alerts.asserted ∧ alertModeOfSpan base 1 = .edge ∧ base.engine.state = .idle ∧
      1 ∉ base.alerts.latches ∧ 1 ∉ base.sched.off ∧ base.sched.slots.find 1 = none) ∧
    ((asked 1 (request .host 1) base).sched.slots.find 1 = some (request .host 1) ∧ (request .host 1).kind ≠ .baseline) ∧
    ((asked 1 (request .baseline 1) base).sched.slots.find 1 = some (request .baseline 1)) ∧
    (2 ∉ base.alerts.asserted ∧ alertModeOfSpan base 2 = .level ∧ 2 ∉ base.sched.off ∧ base.sched.slots.find 2 = none ∧
      ctxIs base.engine.ctx 2 = false ∧ ctxIs base.sched.save 2 = false ∧ base.alerts.timers.find 2 = none) := by decide
theorem test_alert_merges :
    (after (.alertLineAsserted 1) (asked 1 (request .baseline 1) base)).notices.fifo.map (·.body) =
      [.baselineCancelled 1 .replacedByAlert] ∧
    (after (.alertLineAsserted 1) (asked 1 (request .host 1) (busy .full id))).sched.slots.find 1 =
      some { request .alert 3 with level := max 1 (alertLevelOf base 1), raised := 39000000 } := by decide

/-- `cut` as a CONFIRM sweep that finds its round over. -/
def lateConfirm : State :=
  { cutBeside [] with engine := { (cut cutLevels).engine with ctx := (cut cutLevels).engine.ctx.map fun c =>
      { c with kind := .confirm, target := some 100, round := some 3 } } }

theorem wit_late_confirm : lateConfirm.engine.ctx.map (·.kind) = some .confirm ∧
    lateConfirm.engine.ctx.map (·.round) = some (some 3) ∧ lateConfirm.corr.find 3 = some .idle ∧
    short2.sheathGroup = 3 ∧ lateConfirm.engine.state = .reducing ∧ lateConfirm.trace.state = .valid ∧
    lateConfirm.engine.ctx.map (fun c => (c.refPresent, c.quickOnly)) = some (true, false) := by decide
theorem test_late_confirm_opens_a_round : (after .comparisonComplete lateConfirm).line.queue.map (fun f => (f.urgency, f.body)) =
    [(3, .finding 3 1 939), (3, .claim 7 3)] := by decide +kernel

theorem wit_learning_ends : ({ base with
      port := { base.port with station := .learning }
      peers := { base.peers with learning := some 5000 } } : State).peers.learning = some 5000 ∧
    5000 ≤ base.clock.now ∧ base.clock.state ≠ .dozing ∧ base.line.state ≠ .passive := by decide

theorem wit_heard_forms : (base.corr.find 4 = none ∧ 1 ≤ 3 ∧ base.engine.state = .idle) ∧
    ((2, rec2) ∈ enabledSpans base ∧ rec2.sheathGroup = 3 ∧ base.engine.laserFault = none ∧ 9 ≠ base.line.id ∧
      Table.wf base.cfg.spans ∧ binOf base.clock.spacing (808 + rec2.offset) = 80 ∧ base.sched.slots.find 2 = none ∧
      (asked 2 (request .host 1) base).sched.slots.find 2 = some (request .host 1)) ∧
    ((∀ e ∈ enabledSpans base, e.2.sheathGroup = 3 → binOf base.clock.spacing (0 + e.2.offset) < e.2.anchor + 64) ∧
      10 ∈ existsSet { base with peers := { base.peers with table := [(10, ⟨0, .running, [3], 8000⟩)] } } 3) := by decide
theorem test_heard_out_of_range : (after .findingDelivered (heard (.finding 3 1 0) base)).line.queue.map (·.body) =
    [.finding 3 4 0] := by decide

/-! ## Replies and notices, byte by byte from 12.3 to 12.5 -/

theorem test_verdict_bytes : (⟨.verdict 3 true 2 1 true [5, 9] [5, 9, 31], 40000000⟩ : Notice).bytes =
    [2, 3, 0, 1, 0x02, 0x62, 0x5A, 0x00, 2, 1, 1, 0, 0, 0x02, 0x20, 0x80, 0, 0x02, 0x20] := by decide
theorem test_result_head : (resultBody (asked 4 windowedConfirm base) 4 { noResult with missed := 7, held := some (-2) }).take 15 =
    [4, 0x0C, 0, 7, 0xFF, 0xFE, 4, 3, 5, 0, 100, 0x02, 0x53, 0x17, 0xC0] := by decide
theorem test_status_head : (statusBody (busy .full id)).take 36 =
    [5, 2, 1, 0, 0, 0, 0, 0, 0, 0, 2, 0x02, 0x62, 0x5A, 0x00, 0, 2, 0, 0, 0, 0, 0, 0, 0, 0, 0, 0, 0, 0, 0, 0, 5, 4, 2, 1, 5] := by
  decide
theorem test_status_tail : (statusBody heldSeven).drop 61 =
    [1, 7, 1, 9, 2, 0, 0, 0x0F, 0xA0, 0, 1, 3] ++ List.replicate 20 0 := by decide

end Sys2Proof.Tests
end

/-! Bin spacing and its conversions (R25 to R27): rounding half up, and the spacing kept by every row after START. -/

namespace Sys2Proof

/-! ### Rounding half up: a quotient and the two bounds that fix it -/

theorem mul_roundHalfUp_le (a b : Nat) : 2 * b * roundHalfUp a b ≤ 2 * a + b := Nat.mul_div_le _ _

theorem lt_mul_roundHalfUp_succ (a : Nat) {b : Nat} (hb : 0 < b) : 2 * a + b < 2 * b * (roundHalfUp a b + 1) :=
  Nat.lt_mul_div_succ _ (by omega)

theorem le_roundHalfUp {a b q : Nat} (hb : 0 < b) (h : 2 * b * q ≤ 2 * a + b) : q ≤ roundHalfUp a b := by
  rw [roundHalfUp, Nat.le_div_iff_mul_le (by omega), Nat.mul_comm]
  exact h

theorem roundHalfUp_le {a b q : Nat} (hb : 0 < b) (h : 2 * a + b < 2 * b * (q + 1)) : roundHalfUp a b ≤ q := by
  rw [roundHalfUp, ← Nat.lt_succ_iff, Nat.div_lt_iff_lt_mul (by omega), Nat.mul_comm q.succ]
  exact h

theorem roundHalfUp_mono {a a' : Nat} (b : Nat) (h : a ≤ a') : roundHalfUp a b ≤ roundHalfUp a' b :=
  Nat.div_le_div_right (by omega)

/-! ### The bin spacing at the legal limits (R22, R25) -/

/-- The legal sample rate, 50,000 to 250,000 kHz, and the legal group index bound the divisor of R25. -/
theorem spacingDivisor_bounds {b : StationBlock} (hg : 14000 ≤ b.groupIndex) (hg' : b.groupIndex ≤ 15000)
    (hf : 50000 * b.divP ≤ b.refKHz * b.mulM) (hf' : b.refKHz * b.mulM ≤ 250000 * b.divP) :
    1400000000 * b.divP ≤ 2 * b.groupIndex * b.refKHz * b.mulM ∧
    2 * b.groupIndex * b.refKHz * b.mulM ≤ 7500000000 * b.divP := by
  have hassoc : 2 * b.groupIndex * b.refKHz * b.mulM = 2 * (b.groupIndex * (b.refKHz * b.mulM)) := by
    simp only [Nat.mul_assoc]
  have hlo := Nat.mul_le_mul hg hf
  have hhi := Nat.mul_le_mul hg' hf'
  omega

theorem binSpacing_bounds {b : StationBlock} (hp : 1 ≤ b.divP) (hg : 14000 ≤ b.groupIndex) (hg' : b.groupIndex ≤ 15000)
    (hf : 50000 * b.divP ≤ b.refKHz * b.mulM) (hf' : b.refKHz * b.mulM ≤ 250000 * b.divP) :
    399723 ≤ binSpacing b ∧ binSpacing b ≤ 2141375 := by
  obtain ⟨hlo, hhi⟩ := spacingDivisor_bounds hg hg' hf hf'
  exact ⟨le_roundHalfUp (by omega) (by omega), roundHalfUp_le (by omega) (by omega)⟩

/-! ### Distances and bins (R26, R27) -/

theorem distanceOf_bounds (sp i : Nat) :
    100000 * distanceOf sp i ≤ i * sp + 50000 ∧ i * sp + 50000 < 100000 * (distanceOf sp i + 1) := by
  have hlo := mul_roundHalfUp_le (i * sp) 100000
  have hhi := lt_mul_roundHalfUp_succ (i * sp) (b := 100000) (by decide)
  unfold distanceOf
  omega

theorem distanceOf_mono {sp sp' i i' : Nat} (hs : sp ≤ sp') (hi : i ≤ i') : distanceOf sp i ≤ distanceOf sp' i' :=
  roundHalfUp_mono _ (Nat.mul_le_mul hi hs)

theorem distanceOf_largest : distanceOf 2141375 16383 = 350821 := by decide

theorem distanceOf_le {sp i : Nat} (hs : sp ≤ 2141375) (hi : i ≤ 16383) : distanceOf sp i ≤ 350821 :=
  distanceOf_largest ▸ distanceOf_mono hs hi

/-- Rounding a distance to decimetres moves it by at most half a decimetre, which is less than half of a legal bin
spacing: the bin comes back. -/
theorem binOf_distanceOf {sp : Nat} (i : Nat) (hs : 399723 ≤ sp) : binOf sp (distanceOf sp i) = i := by
  obtain ⟨hlo, hhi⟩ := distanceOf_bounds sp i
  have hmul : 2 * sp * i = 2 * (i * sp) := by rw [Nat.mul_assoc, Nat.mul_comm sp]
  have hsucc : 2 * sp * (i + 1) = 2 * (i * sp) + 2 * sp := by rw [Nat.mul_succ, hmul]
  exact Nat.le_antisymm (roundHalfUp_le (by omega) (by omega)) (le_roundHalfUp (by omega) (by omega))

theorem inCompRange_iff (r : SpanRecord) (t : Nat) : inCompRange r t = true ↔ r.anchor + 64 ≤ t ∧ t + 17 ≤ r.len :=
  decide_eq_true_iff

end Sys2Proof

namespace Sys2Proof.Machine

/-! ### START fixes the spacing of the staged configuration (R25, R192) -/

theorem reconcile_cfg (s : State) : (reconcile s).cfg = s.cfg :=
  foldl_keeps (·.cfg) reconcileSpan (fun s e => by unfold reconcileSpan; split <;> rfl) _ _

theorem joinLine_clock (s : State) : (joinLine s).clock = s.clock := by simp [joinLine]

theorem watchAlerts_clock (s : State) : (watchAlerts s).clock = s.clock :=
  foldl_keeps (·.clock) (fun s (e : Nat × SpanRecord) => levelTest s e.1) (by simp) _ _

theorem started_spacing (s : State) (tod : Nat) : (started s tod).clock.spacing = binSpacing s.port.stagedStation := by
  simp only [started, accept_clock, watchAlerts_clock, joinLine_clock, createRecords_clock, startClock, reconcile_cfg,
    lockConfig]

theorem execStart_spacing {s t : State} {tod : Nat} (hu : s.port.station = .unconfigured) (hf : startFault s tod = none)
    (h : execStart tod s = .next t) : t.clock.spacing = binSpacing s.port.stagedStation := by
  simp only [execStart, hu, hf, ne_eq, not_true_eq_false, if_false, Host.Outcome.next.injEq] at h
  rw [← h, started_spacing]

/-! ### What the shared operations that touch the clock unit leave of the spacing -/

section
variable (s : State)

@[simp] theorem wake_spacing : (wake s).clock.spacing = s.clock.spacing := by
  unfold wake; split <;> simp

@[simp] theorem wakeForCandidate_spacing : (wakeForCandidate s).clock.spacing = s.clock.spacing := by
  unfold wakeForCandidate; split <;> simp

@[simp] theorem stopDoze_spacing : (stopDoze s).clock.spacing = s.clock.spacing := rfl

@[simp] theorem refreshDoze_spacing : (refreshDoze s).clock.spacing = s.clock.spacing := by
  unfold refreshDoze; split
  · split <;> simp
  · simp

@[simp] theorem settle_spacing : (settle s).clock.spacing = s.clock.spacing := by simp [settle]

@[simp] theorem beginSlot_spacing (n l : Nat) : (beginSlot s n l).clock.spacing = s.clock.spacing := by
  simp only [beginSlot]; split <;> simp

@[simp] theorem beginResume_spacing (c : Ctx) : (beginResume s c).clock.spacing = s.clock.spacing := by
  simp only [beginResume]; split <;> simp

@[simp] theorem select_spacing : (select s).clock.spacing = s.clock.spacing := by
  unfold select; repeat' split
  all_goals simp

@[simp] theorem settleSelect_spacing : (settleSelect s).clock.spacing = s.clock.spacing := by simp [settleSelect]

@[simp] theorem announce_spacing : (announce s).clock.spacing = s.clock.spacing := by
  unfold announce; split <;> simp

/-! ### Rounds and the end of a sweep -/

@[simp] theorem openOwnRound_spacing (h n : Nat) (k : ReportKind) (d : Nat) :
    (openOwnRound s h n k d).clock.spacing = s.clock.spacing := by
  simp only [openOwnRound, completionCheck_keeps]
  exact (foldl_keeps (·.clock.spacing) (ownConfirm h d n) (by simp) _ _).trans (by simp)

@[simp] theorem openHeardRound_spacing (h x : Nat) (k : ReportKind) (d : Nat) :
    (openHeardRound s h x k d).clock.spacing = s.clock.spacing := by
  simp only [openHeardRound]; split
  · simp
  · simp only [reportIfDecided_keeps]
    exact (foldl_keeps (·.clock.spacing) (heardConfirm h d) (by simp) _ _).trans (by simp)

@[simp] theorem takeFinding_spacing (x h : Nat) (rep : Report) :
    (takeFinding s x h rep).clock.spacing = s.clock.spacing := by
  unfold takeFinding; repeat' split
  all_goals simp

@[simp] theorem findingDecision_spacing (c : Ctx) (o : SweepOutcome) (w : Option Comparison) :
    (findingDecision s c o w).clock.spacing = s.clock.spacing := by
  unfold findingDecision; repeat' split
  all_goals simp

@[simp] theorem endSweep_spacing (o : SweepOutcome) (pre : List NoticeBody) :
    (endSweep s o pre).clock.spacing = s.clock.spacing := by
  unfold endSweep; split <;> simp

@[simp] theorem abort_spacing (o : SweepOutcome) (pre : List NoticeBody) :
    (abort s o pre).clock.spacing = s.clock.spacing := by
  unfold abort; split <;> simp

@[simp] theorem stopSweep_spacing (o : SweepOutcome) (pre : List NoticeBody) :
    (stopSweep s o pre).clock.spacing = s.clock.spacing := by
  unfold stopSweep; repeat' split
  all_goals simp

/-! ### Alert inputs and the clock unit's rows -/

@[simp] theorem edgeAssert_spacing (n : Nat) : (edgeAssert s n).clock.spacing = s.clock.spacing := by
  unfold edgeAssert; split <;> simp

@[simp] theorem enterAwake_spacing : (enterAwake s).clock.spacing = s.clock.spacing := rfl

@[simp] theorem setPhase_spacing (p : Phase) : (setPhase s p).clock.spacing = s.clock.spacing := rfl

@[simp] theorem cancelRoutine_spacing (n : Nat) : (cancelRoutine s n).clock.spacing = s.clock.spacing := rfl

@[simp] theorem openWindow_spacing : (openWindow s).clock.spacing = s.clock.spacing := by
  simp only [openWindow, stopDoze_spacing, wake_spacing]
  exact (foldl_keeps (·.clock.spacing) raiseRoutine (by simp [raiseRoutine]) _ _).trans rfl

@[simp] theorem closeWindow_spacing : (closeWindow s).clock.spacing = s.clock.spacing := by
  have hlevel := foldl_keeps (·.clock.spacing) levelTest (by simp)
  have hcancel := foldl_keeps (·.clock.spacing) cancelRoutine (by simp)
  simp only [closeWindow, hlevel, post_keeps, hcancel, setPhase_spacing]

@[simp] theorem loseSpan_spacing (e : Nat × SpanRecord) : (loseSpan s e).clock.spacing = s.clock.spacing := by
  unfold loseSpan; split <;> simp

@[simp] theorem loseLoad_spacing : (loseLoad s).clock.spacing = s.clock.spacing := by
  unfold loseLoad; repeat' split
  all_goals simp

@[simp] theorem losePages_spacing : (losePages s).clock.spacing = s.clock.spacing := rfl

@[simp] theorem fallAsleep_spacing : (fallAsleep s).clock.spacing = s.clock.spacing := by
  simp only [fallAsleep, offerPresence_keeps, losePages_spacing, loseLoad_spacing]
  exact (foldl_keeps (·.clock.spacing) loseSpan (by simp) _ _).trans rfl

/-! ### The engine's rows -/

@[simp] theorem addLit_spacing (xs : List Adc) : (addLit s xs).clock.spacing = s.clock.spacing := rfl

@[simp] theorem enterReducing_spacing (c : Ctx) (r : SpanRecord) :
    (enterReducing s c r).clock.spacing = s.clock.spacing := rfl

@[simp] theorem escalate_spacing : (escalate s).clock.spacing = s.clock.spacing := rfl

@[simp] theorem enterStoring_spacing (n : Nat) : (enterStoring s n).clock.spacing = s.clock.spacing := by
  simp [enterStoring]

@[simp] theorem darkDone_spacing (c : Ctx) (d : Nat) : (darkDone s c d).clock.spacing = s.clock.spacing := by
  simp only [darkDone]; repeat' split
  all_goals simp

@[simp] theorem darkShot_spacing (c : Ctx) (r : SpanRecord) (xs : List Adc) :
    (darkShot s c r xs).clock.spacing = s.clock.spacing := by
  simp only [darkShot]; split <;> simp

@[simp] theorem afterQuickShot_spacing (c : Ctx) (r : SpanRecord) :
    (afterQuickShot s c r).clock.spacing = s.clock.spacing := by
  unfold afterQuickShot; split <;> simp

@[simp] theorem afterFullShot_spacing (c : Ctx) (r : SpanRecord) :
    (afterFullShot s c r).clock.spacing = s.clock.spacing := by
  unfold afterFullShot; repeat' split
  all_goals simp

@[simp] theorem boundary_spacing (c : Ctx) : (boundary s c).clock.spacing = s.clock.spacing := by
  unfold boundary; split <;> simp

@[simp] theorem checkDark_spacing (c : Ctx) (m : Nat) : (checkDark s c m).clock.spacing = s.clock.spacing := by
  simp only [checkDark]; split <;> simp

@[simp] theorem overloaded_spacing (c : Ctx) : (overloaded s c).clock.spacing = s.clock.spacing := by
  simp [overloaded]

@[simp] theorem reduce_spacing (d : TraceDesc) (c : Ctx) (r : SpanRecord) :
    (reduce s d c r).clock.spacing = s.clock.spacing := by
  simp only [reduce]; split <;> simp

@[simp] theorem quickClean_spacing (c : Ctx) (w : Comparison) :
    (quickClean s c w).clock.spacing = s.clock.spacing := by
  simp [quickClean]

@[simp] theorem afterComparison_spacing (c : Ctx) (w : Option Comparison) :
    (afterComparison s c w).clock.spacing = s.clock.spacing := by
  simp only [afterComparison]; split <;> simp

@[simp] theorem finishComparison_spacing (c : Ctx) (r : SpanRecord) :
    (finishComparison s c r).clock.spacing = s.clock.spacing := by
  unfold finishComparison; repeat' split
  all_goals simp

@[simp] theorem writeComplete_spacing (n : Nat) (r : SpanRecord) :
    (writeComplete s n r).clock.spacing = s.clock.spacing := by
  simp [writeComplete]

@[simp] theorem faultOnSweep_spacing (pre : List NoticeBody) :
    (faultOnSweep s pre).clock.spacing = s.clock.spacing := by
  unfold faultOnSweep; repeat' split
  all_goals simp

@[simp] theorem takeFault_spacing (code : LaserCode) : (takeFault s code).clock.spacing = s.clock.spacing := by
  simp only [takeFault]; split <;> simp

/-! ### Deliveries and the line's rows -/

@[simp] theorem takePresence_spacing (x : Nat) (p : Peer) : (takePresence s x p).clock.spacing = s.clock.spacing := by
  simp only [takePresence]; repeat' split
  all_goals simp

@[simp] theorem withdraw_spacing (g x l a : Nat) : (withdraw s g x l a).clock.spacing = s.clock.spacing := by
  simp [withdraw]

@[simp] theorem answerHold_spacing (g own : Nat) : (answerHold s g own).clock.spacing = s.clock.spacing := by
  simp [answerHold]

@[simp] theorem takeClaim_spacing (g x l a : Nat) : (takeClaim s g x l a).clock.spacing = s.clock.spacing := by
  unfold takeClaim; repeat' split
  all_goals simp

@[simp] theorem endLastShot_spacing : (endLastShot s).clock.spacing = s.clock.spacing := by
  unfold endLastShot; repeat' split
  all_goals simp

@[simp] theorem loseConflict_spacing (g x l a : Nat) : (loseConflict s g x l a).clock.spacing = s.clock.spacing := by
  simp [loseConflict]

@[simp] theorem takeHold_spacing (g x l a : Nat) : (takeHold s g x l a).clock.spacing = s.clock.spacing := by
  unfold takeHold; repeat' split
  all_goals simp

@[simp] theorem takeRelease_spacing (g x : Nat) : (takeRelease s g x).clock.spacing = s.clock.spacing := by
  unfold takeRelease; repeat' split
  all_goals simp

@[simp] theorem takeFindingFrame_spacing (x h k d : Nat) :
    (takeFindingFrame s x h k d).clock.spacing = s.clock.spacing := by
  unfold takeFindingFrame; split <;> simp

@[simp] theorem joinOrBusy_spacing : (joinOrBusy s).clock.spacing = s.clock.spacing := by
  unfold joinOrBusy; split <;> simp

@[simp] theorem clearStaleOf_spacing (b : FrameBody) : (clearStaleOf s b).clock.spacing = s.clock.spacing := by
  cases b <;> rfl

@[simp] theorem loseArbitration_spacing (f : TxFrame) : (loseArbitration s f).clock.spacing = s.clock.spacing := by
  simp only [loseArbitration]; split <;> simp

@[simp] theorem reportTransmitted_spacing (b : FrameBody) :
    (reportTransmitted s b).clock.spacing = s.clock.spacing := by
  cases b <;> simp [reportTransmitted]

@[simp] theorem detectDup_spacing (cause : DupCause) : (detectDup s cause).clock.spacing = s.clock.spacing := by
  simp [detectDup]

@[simp] theorem enterInbox_spacing (f : Frame) : (enterInbox s f).clock.spacing = s.clock.spacing := by
  unfold enterInbox; split <;> simp

@[simp] theorem takeFrame_spacing (f : Frame) : (takeFrame s f).clock.spacing = s.clock.spacing := by
  unfold takeFrame; repeat' split
  all_goals simp

@[simp] theorem endLearning_spacing : (endLearning s).clock.spacing = s.clock.spacing := by simp [endLearning]

@[simp] theorem ageOut_spacing (x : Nat) : (ageOut s x).clock.spacing = s.clock.spacing := by simp [ageOut]

/-! ### The host's rows -/

@[simp] theorem runStation_spacing : (runStation s).clock.spacing = s.clock.spacing := by simp [runStation]

@[simp] theorem haltStation_spacing : (haltStation s).clock.spacing = s.clock.spacing := by simp [haltStation]

@[simp] theorem readResultTrace_spacing (q : TraceRequest) :
    (readResultTrace s q).clock.spacing = s.clock.spacing := by
  unfold readResultTrace; repeat' split
  all_goals simp

@[simp] theorem readFingerprint_spacing (q : TraceRequest) :
    (readFingerprint s q).clock.spacing = s.clock.spacing := by
  unfold readFingerprint; repeat' split
  all_goals simp

@[simp] theorem tellRemoved_spacing (n : Nat) (r : Request) :
    (tellRemoved s n r).clock.spacing = s.clock.spacing := by
  unfold tellRemoved; split <;> simp

@[simp] theorem dropPreparation_spacing (n : Nat) : (dropPreparation s n).clock.spacing = s.clock.spacing := by
  unfold dropPreparation; split <;> simp

@[simp] theorem removeRequest_spacing (n : Nat) : (removeRequest s n).clock.spacing = s.clock.spacing := by
  unfold removeRequest; split <;> simp

@[simp] theorem stopRunning_spacing (n : Nat) : (stopRunning s n).clock.spacing = s.clock.spacing := by
  unfold stopRunning; split <;> simp

@[simp] theorem stopSuspended_spacing (n : Nat) : (stopSuspended s n).clock.spacing = s.clock.spacing := by
  unfold stopSuspended; split <;> simp

@[simp] theorem spanOff_spacing (n : Nat) : (spanOff s n).clock.spacing = s.clock.spacing := by simp [spanOff]

@[simp] theorem spanOn_spacing (n : Nat) : (spanOn s n).clock.spacing = s.clock.spacing := by simp [spanOn]

@[simp] theorem openLoad_spacing (n : Nat) : (openLoad s n).clock.spacing = s.clock.spacing := by simp [openLoad]

@[simp] theorem appendBlock_spacing (l : Load) (r : SpanRecord) (levels : List Nat) :
    (appendBlock s l r levels).clock.spacing = s.clock.spacing := by
  simp [appendBlock]

/-! ### Every row but the two resets and START keeps the spacing (R25) -/

/-- A next state, if the outcome is one, has the spacing of s. -/
def KeepsSpacing (r : Result) : Prop := ∀ t, r = .next t → t.clock.spacing = s.clock.spacing

variable {s}

theorem KeepsSpacing.next {t : State} (h : t.clock.spacing = s.clock.spacing) : KeepsSpacing s (.next t) := by
  rintro _ ⟨⟩; exact h

/-- A row that acts only under its condition and leaves the state as it is otherwise. -/
theorem KeepsSpacing.guarded {p : Prop} [Decidable p] {t : State} (h : t.clock.spacing = s.clock.spacing) :
    KeepsSpacing s (.next (if p then t else s)) := .next (by split <;> simp [h])

variable (s)

theorem execStart_refused_spacing (tod : Nat) (h : s.port.station ≠ .unconfigured) :
    KeepsSpacing s (execStart tod s) := by
  rw [execStart, if_pos h]; exact .next rfl

/-- Every row but the two resets and a START that finds the station UNCONFIGURED. -/
theorem exec_keepsSpacing (c : Instr) (hcold : ∀ x, c ≠ .coldReset x) (hwarm : ∀ x, c ≠ .warmReset x)
    (hstart : ∀ x, c = .start x → s.port.station ≠ .unconfigured) : KeepsSpacing s (exec c s) := by
  cases c
  case coldReset x => exact absurd rfl (hcold x)
  case warmReset x => exact absurd rfl (hwarm x)
  case start x => exact execStart_refused_spacing s x (hstart x rfl)
  -- rows without a branch
  case readStatus | partialCommandDiscarded | alertLineReleased => exact .next rfl
  -- rows that have their effect only when their event can come (log 3)
  case endOfLocking | windowStart | windowEnd | dozeEntry | reRaiseTimerExpiry | resumeTimerExpiry | laserFaultReport |
      laserFaultConditionClears | idleGap | arbitrationWon | readbackError | presenceTimerExpiry | ageTimerExpiry |
      unknownCommand => exact .guarded (by simp)
  -- rows that branch first: on the checks of a host command, or on what engine, line or a group's entry holds
  case configWriteSpan | configWriteStation | run | halt | readNotice | readResult | readTrace | sweep | spanOff | spanOn |
      clearFault | fpBegin | fpData | fpEnd | alertLineAsserted | switchSettleExpiry | darkShotComplete |
      litShotComplete | interleavedDarkShotCheck | reductionComplete | comparisonComplete | baselineWriteComplete |
      arbitrationLost | frameTransmitted | frameReceived | frameStartHeard | presenceDelivered | claimDelivered |
      holdDelivered | releaseDelivered | findingDelivered | learningTimerExpiry | holdOffExpiry | holdRepetition |
      heldExpiry | roundTimerExpiry | holdDownExpiry =>
    refine .next ?_
    repeat' split
    all_goals simp

end
end Sys2Proof.Machine

namespace Sys2Proof

/-- Settles O30: the bounds of rounding half up give R25 to R27, and the spacing is kept row by row. -/
theorem spacingAndConversions : Obligations.SpacingAndConversions := by
  refine ⟨fun b hp hg hg' hf hf' => ?_, fun s t tod hu hf h => Machine.execStart_spacing hu hf h,
    fun s t c h hcold hwarm hstart => Machine.exec_keepsSpacing s c hcold hwarm hstart t h, distanceOf_bounds,
    fun _ _ _ _ _ => rfl, fun _ _ hs hi => distanceOf_le hs hi, distanceOf_largest,
    fun sp d hs => ⟨mul_roundHalfUp_le _ _, lt_mul_roundHalfUp_succ _ hs⟩, fun _ _ _ => rfl,
    fun _ i hs => binOf_distanceOf i hs, by decide, inCompRange_iff⟩
  have hdiv := (spacingDivisor_bounds hg hg' hf hf').1
  exact ⟨mul_roundHalfUp_le _ _, lt_mul_roundHalfUp_succ _ (by omega), binSpacing_bounds hp hg hg' hf hf'⟩

end Sys2Proof

/-! ## Trace reduction: the mean, the net value and the level of a bin (R101 to R103) -/

namespace Sys2Proof.Machine

/-! ### The mean and the net value -/

theorem mul_meanOf_le (n sum : Nat) : 2 ^ n * meanOf n sum ≤ sum + 2 ^ (n - 1) := Nat.mul_div_le _ _

theorem lt_mul_meanOf_succ (n sum : Nat) : sum + 2 ^ (n - 1) < 2 ^ n * (meanOf n sum + 1) :=
  Nat.lt_mul_div_succ _ (Nat.two_pow_pos n)

/-- The half that is added before the division is less than one whole, so it cannot lift a mean over a bound. -/
theorem meanOf_le {n sum b : Nat} (hn : 1 ≤ n) (h : sum ≤ b * 2 ^ n) : meanOf n sum ≤ b := by
  have hhalf : 2 ^ (n - 1) < 2 ^ n := Nat.pow_lt_pow_right (by decide) (by omega)
  rw [meanOf, ← Nat.lt_succ_iff, Nat.div_lt_iff_lt_mul (Nat.two_pow_pos n), Nat.succ_mul]
  omega

theorem netValue_of_lt {mean dark : Nat} (h : mean < dark + 1) : netValue mean dark = 1 := by
  rw [netValue]; omega

theorem netValue_add_dark {mean dark : Nat} (h : dark + 1 ≤ mean) : netValue mean dark + dark = mean := by
  rw [netValue]; omega

theorem one_le_netValue (mean dark : Nat) : 1 ≤ netValue mean dark := Nat.le_max_left ..

theorem netValue_le {mean dark b : Nat} (hb : 1 ≤ b) (h : mean ≤ b) : netValue mean dark ≤ b := by
  rw [netValue]; omega

/-! ### The search for the level

Each weight is half of the one before it, so the value sought always lies within one weight above the value held. -/

/-- The search that `levelOf` runs, over any test: each weight in turn is added if the sum passes. -/
def addIfPasses (p : Nat → Bool) (t b : Nat) : Nat := if p (t + b) then t + b else t

/-- The weights 2^(k−1), ..., 2, 1. -/
def halvings : Nat → List Nat
  | 0 => []
  | k + 1 => 2 ^ k :: halvings k

theorem levelOf_eq_search (v : Nat) : levelOf v = (halvings 11).foldl (addIfPasses (reaches v)) 0 := rfl

/-- The search ends at a value that passes while the next one fails, if the start passes and the value one weight
beyond all the search's weights fails. -/
theorem search_passes_and_succ_fails (p : Nat → Bool) (k : Nat) :
    ∀ t, t = 0 ∨ p t = true → p (t + 2 ^ k) = false →
      ((halvings k).foldl (addIfPasses p) t = 0 ∨ p ((halvings k).foldl (addIfPasses p) t) = true) ∧
        p ((halvings k).foldl (addIfPasses p) t + 1) = false := by
  induction k with
  | zero => exact fun t hlo hhi => ⟨hlo, hhi⟩
  | succ k ih =>
    intro t hlo hhi
    rw [halvings, List.foldl_cons, addIfPasses]
    split
    case isTrue hpass => exact ih _ (.inr hpass) (by rwa [Nat.add_assoc, ← Nat.two_mul, ← Nat.pow_succ'])
    case isFalse hfail => exact ih t hlo (eq_false_of_ne_true hfail)

/-! ### The level -/

/-- A power that lies below a power of ten stays below when its base falls and the power of ten rises. -/
theorem pow_lt_ten_pow_of_le {v b n e f : Nat} (hv : v ≤ b) (h : b ^ n < 10 ^ e) (hef : e ≤ f) : v ^ n < 10 ^ f :=
  calc v ^ n ≤ b ^ n := Nat.pow_le_pow_left hv n
    _ < 10 ^ e := h
    _ ≤ 10 ^ f := Nat.pow_le_pow_right (by decide) hef

/-- Powers of ten are in the order of their exponents. -/
theorem lt_of_ten_pow_lt {e f : Nat} (h : 10 ^ e < 10 ^ f) : e < f := (Nat.pow_lt_pow_iff_right (by decide)).mp h

/-- 500 × log10 4095 is below 1806 1/2. -/
theorem top_lt_ten_pow : 4095 ^ 1000 < 10 ^ (2 * 1806 + 1) := by decide +kernel

/-- 500 × log10 4095 is above 1805 1/2. -/
theorem ten_pow_le_top : 10 ^ (2 * 1806 - 1) ≤ 4095 ^ 1000 := by decide +kernel

/-- No level from 1807 on is reached: the search's range of 2048 holds the level of every net value. -/
theorem reaches_eq_false {v t : Nat} (hv : v ≤ 4095) (ht : 1807 ≤ t) : reaches v t = false := by
  have hlt : v ^ 1000 < 10 ^ (2 * t - 1) := pow_lt_ten_pow_of_le hv top_lt_ten_pow (by omega)
  exact decide_eq_false (Nat.not_le.mpr hlt)

/-- The level is reached and the next one is not. -/
theorem levelOf_reached_and_succ_not {v : Nat} (hv : v ≤ 4095) :
    (levelOf v = 0 ∨ reaches v (levelOf v) = true) ∧ reaches v (levelOf v + 1) = false := by
  rw [levelOf_eq_search]
  exact search_passes_and_succ_fails _ _ 0 (.inl rfl) (reaches_eq_false hv (by decide))

theorem levelOf_le {v : Nat} (hv : v ≤ 4095) : levelOf v ≤ 1806 := by
  rcases (levelOf_reached_and_succ_not hv).1 with hzero | hreached
  · omega
  · exact Nat.not_lt.mp fun hgt => Bool.false_ne_true ((reaches_eq_false hv hgt).symm.trans hreached)

/-- A square's last digit is 0 only when its root's is. -/
theorem mod_ten_of_mul_self {w : Nat} (h : w * w % 10 = 0) : w % 10 = 0 := by
  have hdigits : ∀ d < 10, d * d % 10 = 0 → d = 0 := by decide
  exact hdigits _ (Nat.mod_lt w (by decide)) (by rwa [← Nat.mul_mod])

/-- An odd power of ten is not a square: its root would end in 0, and without that 0 it would be the root of the odd
power before it, down to 10 itself, which lies between the squares of 3 and 4. -/
theorem ten_pow_odd_ne_mul_self (m : Nat) : ∀ w : Nat, 10 ^ (2 * m + 1) ≠ w * w := by
  induction m with
  | zero =>
    intro w heq
    rcases Nat.lt_or_ge w 4 with hlt | hge
    · have := Nat.mul_le_mul (Nat.le_of_lt_succ hlt) (Nat.le_of_lt_succ hlt)
      omega
    · have := Nat.mul_le_mul hge hge
      omega
  | succ m ih =>
    intro w heq
    have hstep : 10 ^ (2 * (m + 1) + 1) = 100 * 10 ^ (2 * m + 1) := by
      rw [show 2 * (m + 1) + 1 = 2 + (2 * m + 1) by omega, Nat.pow_add]
    have hlast : w % 10 = 0 := mod_ten_of_mul_self (by omega)
    obtain ⟨u, rfl⟩ := Nat.dvd_of_mod_eq_zero hlast
    have hsquare : 10 * u * (10 * u) = 100 * (u * u) := Nat.mul_mul_mul_comm 10 u 10 u
    exact ih u (by omega)

/-- 500 × log10 v never lies halfway between two whole numbers: a 1000th power is a square. -/
theorem ten_pow_odd_ne_pow (v m : Nat) : 10 ^ (2 * m + 1) ≠ v ^ 1000 := by
  have hsquare : v ^ 1000 = v ^ 500 * v ^ 500 := by rw [← Nat.pow_add]
  exact hsquare ▸ ten_pow_odd_ne_mul_self m (v ^ 500)

theorem levelOf_lower {v : Nat} (hv : v ≤ 4095) : levelOf v = 0 ∨ 10 ^ (2 * levelOf v - 1) < v ^ 1000 := by
  rcases Nat.eq_zero_or_pos (levelOf v) with hzero | hpos
  · exact .inl hzero
  · have hreached := (levelOf_reached_and_succ_not hv).1.resolve_left (by omega)
    have hodd : 2 * levelOf v - 1 = 2 * (levelOf v - 1) + 1 := by omega
    exact .inr (Nat.lt_of_le_of_ne (of_decide_eq_true hreached) (hodd ▸ ten_pow_odd_ne_pow v _))

theorem levelOf_upper {v : Nat} (hv : v ≤ 4095) : v ^ 1000 < 10 ^ (2 * levelOf v + 1) :=
  Nat.not_le.mp (of_decide_eq_false (levelOf_reached_and_succ_not hv).2)

/-- The two bounds fix the level. -/
theorem levelOf_eq {v t : Nat} (hv : v ≤ 4095) (hlo : t = 0 ∨ 10 ^ (2 * t - 1) ≤ v ^ 1000)
    (hhi : v ^ 1000 < 10 ^ (2 * t + 1)) : levelOf v = t := by
  have hle : t ≤ levelOf v := by
    rcases hlo with hzero | hlo
    · omega
    · have := lt_of_ten_pow_lt (Nat.lt_of_le_of_lt hlo (levelOf_upper hv))
      omega
  have hge : levelOf v ≤ t := by
    rcases levelOf_lower hv with hzero | hlt
    · omega
    · have := lt_of_ten_pow_lt (Nat.lt_trans hlt hhi)
      omega
  exact Nat.le_antisymm hge hle

/-- The level of a power of ten is exact. -/
theorem levelOf_ten_pow {k : Nat} (hk : 10 ^ k ≤ 4095) : levelOf (10 ^ k) = 500 * k := by
  have hpow : (10 ^ k) ^ 1000 = 10 ^ (2 * (500 * k)) := by rw [← Nat.pow_mul, show k * 1000 = 2 * (500 * k) by omega]
  refine levelOf_eq hk (.inr ?_) ?_ <;> rw [hpow]
  · exact Nat.pow_le_pow_right (by decide) (by omega)
  · exact Nat.pow_lt_pow_right (by decide) (by omega)

theorem levelOf_top : levelOf 4095 = 1806 := levelOf_eq (Nat.le_refl _) (.inr ten_pow_le_top) top_lt_ten_pow

end Sys2Proof.Machine

namespace Sys2Proof

open Machine in
/-- Settles O31: the mean and the net value by the bounds of division and subtraction, the level by the search that
ends at the last level reached, and never halfway because an odd power of ten is not a square. -/
theorem meansNetValuesAndLevels : Obligations.MeansNetValuesAndLevels :=
  ⟨fun n sum hn => ⟨mul_meanOf_le n sum, lt_mul_meanOf_succ n sum, meanOf_le hn⟩,
    fun mean dark => ⟨netValue_of_lt, netValue_add_dark,
      fun h => ⟨one_le_netValue mean dark, netValue_le (by decide) h⟩⟩,
    fun _ _ hv => ⟨levelOf_le hv, levelOf_lower hv, levelOf_upper hv⟩,
    levelOf_ten_pow (k := 0) (by decide), levelOf_ten_pow (k := 1) (by decide),
    levelOf_ten_pow (k := 2) (by decide), levelOf_ten_pow (k := 3) (by decide), levelOf_top⟩

end Sys2Proof

/-! ## READ-NOTICE and the layout of a notice (12.3, R199) -/

namespace Sys2Proof

/-! ### Numbers in bytes: only the bits that fit are sent -/

theorem beBytes_mod {n m : Nat} (h : n ≤ m) (v : Nat) : beBytes n (v % 256 ^ m) = beBytes n v := by
  induction n with
  | zero => rfl
  | succ n ih =>
    have hsplit : 256 ^ m = 256 ^ n * 256 ^ (m - n) := by rw [← Nat.pow_add, Nat.add_sub_of_le (by omega)]
    have hdvd : 256 ∣ 256 ^ (m - n) := dvd_pow_self _ (by omega)
    have hbyte : v % 256 ^ m / 256 ^ n % 256 = v / 256 ^ n % 256 := by
      rw [hsplit, Nat.mod_mul_right_div_self, Nat.mod_mod_of_dvd _ hdvd]
    rw [beBytes, beBytes, ih (by omega)]
    exact congrArg (· :: beBytes n v) (BitVec.eq_of_toNat_eq hbyte)

end Sys2Proof

namespace Sys2Proof.Machine

/-! ### Masks of station ids -/

theorem testBit_foldl_setBit (ids : List Nat) (a j : Nat) :
    (ids.foldl (fun a i => a ||| 2 ^ i) a).testBit j = (a.testBit j || decide (j ∈ ids)) := by
  induction ids generalizing a with
  | nil => simp
  | cons i ids ih => simp [ih, Nat.testBit_two_pow, Bool.or_assoc, eq_comm (a := i)]

/-- The powers of two at the bits set below n add up to the low n bits. -/
theorem sum_two_pow_of_testBit (v n : Nat) :
    (((List.range n).filter v.testBit).map fun i => 2 ^ i).sum = v % 2 ^ n := by
  induction n with
  | zero => simp [Nat.mod_one]
  | succ n ih =>
    rw [List.range_succ, List.filter_append, List.map_append, List.sum_append, ih, Nat.mod_pow_succ, ← Nat.toNat_testBit]
    cases hbit : v.testBit n <;> simp [hbit]

/-- The two ways to write a set of ids as a mask: setting bits, and adding the powers of the ids that fit. -/
theorem foldl_setBit_mod (ids : List Nat) : ids.foldl (fun a i => a ||| 2 ^ i) 0 % 2 ^ 32 = idBits ids := by
  have hbits : (ids.foldl (fun a i => a ||| 2 ^ i) 0).testBit = fun i => decide (i ∈ ids) := by
    funext i
    rw [testBit_foldl_setBit, Nat.zero_testBit, Bool.false_or]
  rw [idBits, ← hbits, sum_two_pow_of_testBit]

theorem idMask_eq (ids : List Nat) : idMask ids = beBytes 4 (idBits ids) := by
  rw [idMask, ← foldl_setBit_mod, show 2 ^ 32 = 256 ^ 4 from rfl, beBytes_mod (Nat.le_refl 4)]

/-! ### The codes of 12.3 are places in its lists -/

theorem SweepOutcome.code_eq (o : SweepOutcome) : o.code = outcomeNo o := by cases o <;> rfl

theorem laserCodeNo_eq (c : LaserCode) : laserCodeNo c = laserNo c := by cases c <;> rfl

theorem LostCause.code_eq (c : LostCause) :
    c.code = [LostCause.retention, .writeCut, .loadCancelled].idxOf c + 1 := by cases c <;> rfl

theorem CancelCause.code_eq (c : CancelCause) :
    c.code = [CancelCause.replacedByConfirm, .replacedByAlert, .spanOff].idxOf c + 1 := by cases c <;> rfl

theorem DupCause.code_eq (c : DupCause) : c.code = [DupCause.received, .readback].idxOf c + 1 := by cases c <;> rfl

theorem PeerChange.code_eq (c : PeerChange) :
    c.code = [PeerChange.joined, .agedOut, .stateChanged, .groupsChanged].idxOf c + 1 := by cases c <;> rfl

theorem flagsByte_singleton (b : Bool) : flagsByte [b] = if b then 1 else 0 := by cases b <;> rfl

/-! ### A notice is its fields, one after another -/

/-- What every notice begins with: kind, subject, code, time of day. -/
theorem Notice.bytes_eq_head (n : Notice) :
    n.bytes =
      joinFields [(1, n.body.kindCode), (1, n.body.subject), (2, n.body.code), (4, n.time)] ++ n.body.tail := by
  simp [Notice.bytes]

/-- The further fields of a VERDICT: F, G, flags and the two masks. -/
theorem verdict_tail (h : Nat) (sheath : Bool) (f g : Nat) (timedOut : Bool) (joined members : List Nat) :
    (NoticeBody.verdict h sheath f g timedOut joined members).tail =
      joinFields [(1, f), (1, g), (1, if timedOut then 1 else 0), (4, idBits joined), (4, idBits members)] := by
  simp [NoticeBody.tail, flagsByte_singleton, idMask_eq]

theorem Notice.bytes_eq_joinFields (n : Notice) : n.bytes = joinFields (noticeFields n) := by
  rw [Notice.bytes_eq_head]
  obtain ⟨body, time⟩ := n
  cases body
  case verdict h sheath f g timedOut joined members => rw [verdict_tail, ← joinFields_append]; rfl
  all_goals
    simp only [NoticeBody.code, SweepOutcome.code_eq, LostCause.code_eq, CancelCause.code_eq, laserCodeNo_eq,
      DupCause.code_eq, PeerChange.code_eq]
    exact List.append_nil _

theorem Notice.length_bytes (n : Notice) :
    n.bytes.length = 8 ∨ (n.bytes.length = 19 ∧ ∃ h v f g p j m, n.body = .verdict h v f g p j m) := by
  rw [Notice.bytes_eq_joinFields, length_joinFields]
  obtain ⟨body, time⟩ := n
  cases body
  case verdict h v f g p j m => exact .inr ⟨rfl, h, v, f, g, p, j, m, rfl⟩
  all_goals exact .inl rfl

/-! ### READ-NOTICE -/

theorem exec_readNotice_nil {s : State} (h : s.notices.fifo = []) :
    exec .readNotice s = .next (answer s .refusedEmpty []) := by
  simp only [exec, execReadNotice, h, refuse]

theorem exec_readNotice_cons {s : State} {n : Notice} {rest : List Notice} (h : s.notices.fifo = n :: rest) :
    exec .readNotice s =
      .next (answer { s with notices :=
        { s.notices with fifo := rest, attention := decide (rest ≠ []) } } .accepted n.bytes) := by
  have hattention : (!rest.isEmpty) = decide (rest ≠ []) := by cases rest <;> rfl
  simp only [exec, execReadNotice, h, hattention]

end Sys2Proof.Machine

namespace Sys2Proof

/-- Settles O13: the two cases of the FIFO, and the bytes of a notice kind by kind against its fields, where a mask of
ids sent in four bytes is the sum of the powers of the ids below 32. -/
theorem readNoticeRemovesTheOldest : Obligations.ReadNoticeRemovesTheOldest :=
  fun _ => ⟨Machine.exec_readNotice_nil, fun _ _ h => Machine.exec_readNotice_cons h, Machine.Notice.length_bytes,
    fun n _ h => n.bytes_eq_joinFields ▸ Machine.exec_readNotice_cons h⟩

end Sys2Proof

/-! ## The transmit queue as a list of frames: what entering, replacing and removing keep (R136 to R140) -/

namespace Sys2Proof.Machine

-- The kernel checks the lemmas one after another: many at once take a thread each.
set_option Elab.async false

/-! ### One frame replaces another -/

theorem sameFrame_comm (a b : FrameBody) : sameFrame a b = sameFrame b a := by
  cases a <;> cases b <;> simp [sameFrame, eq_comm]

theorem sameFrame_trans {a b c : FrameBody} (h : sameFrame a b = true) (h' : sameFrame b c = true) :
    sameFrame a c = true := by
  cases a <;> cases b <;> simp [sameFrame] at h <;> cases c <;> simp_all [sameFrame]

theorem isClaimFrame_of_sameFrame {a b : FrameBody} (h : sameFrame a b = true) : isClaimFrame a = isClaimFrame b := by
  cases a <;> cases b <;> simp_all [sameFrame, isClaimFrame, claimGroup]

theorem findingGroup_of_sameFrame {a b : FrameBody} (h : sameFrame a b = true) : findingGroup a = findingGroup b := by
  cases a <;> cases b <;> simp_all [sameFrame, findingGroup]

theorem sameFrame_claim (g l : Nat) (b : FrameBody) : sameFrame b (.claim g l) = false := by cases b <;> rfl

theorem sameFrame_release (g l : Nat) (b : FrameBody) : sameFrame b (.release g l) = false := by cases b <;> rfl

/-! ### Order and place -/

theorem insertByAge_perm (f : TxFrame) : ∀ q : List TxFrame, (insertByAge f q).Perm (f :: q)
  | [] => .refl _
  | g :: q => by
    unfold insertByAge
    split
    · exact .refl _
    · exact ((insertByAge_perm f q).cons g).trans (.swap f g q)

theorem insertByAge_last (f : TxFrame) : ∀ q : List TxFrame, (∀ g ∈ q, g.age ≤ f.age) → insertByAge f q = q ++ [f]
  | [], _ => rfl
  | g :: q, h => by
    have hg := h g (List.mem_cons_self ..)
    rw [insertByAge, if_neg (by omega), insertByAge_last f q fun x hx => h x (List.mem_cons_of_mem _ hx), List.cons_append]

theorem ascending_insertByAge (f : TxFrame) : ∀ q : List TxFrame, q.Pairwise (fun a b => a.age < b.age) →
    (∀ g ∈ q, g.age ≠ f.age) → (insertByAge f q).Pairwise (fun a b => a.age < b.age)
  | [], _, _ => List.pairwise_singleton _ _
  | g :: q, hq, hf => by
    obtain ⟨hg, hq⟩ := List.pairwise_cons.1 hq
    have hfg := hf g (List.mem_cons_self ..)
    unfold insertByAge
    split
    · next hlt =>
      refine List.pairwise_cons.2 ⟨fun x hx => ?_, List.pairwise_cons.2 ⟨hg, hq⟩⟩
      rcases List.mem_cons.1 hx with rfl | hx
      · exact hlt
      · have := hg x hx; omega
    · next hlt =>
      refine List.pairwise_cons.2 ⟨fun x hx => ?_,
        ascending_insertByAge f q hq fun x hx => hf x (List.mem_cons_of_mem _ hx)⟩
      rcases (mem_insertByAge f x q).1 hx with rfl | hx
      · omega
      · exact hg x hx

theorem dropOldest_sublist (p : FrameBody → Bool) : ∀ q : List TxFrame, (dropOldest p q).Sublist q
  | [] => .slnil
  | f :: q => by
    unfold dropOldest
    split
    · exact List.sublist_cons_self f q
    · exact (dropOldest_sublist p q).cons_cons f

theorem makeRoom_sublist (q : List TxFrame) : (makeRoom q).Sublist q := by
  unfold makeRoom
  repeat' split
  all_goals exact dropOldest_sublist _ q

/-- The waiting frames that stay as a claim frame enters. -/
theorem enterClaimFrame_eq (q : List TxFrame) (f : TxFrame) :
    ∃ rest : List TxFrame, rest.Sublist q ∧ enterClaimFrame q f = insertByAge f rest := by
  unfold enterClaimFrame
  split
  · exact ⟨_, makeRoom_sublist q, rfl⟩
  · exact ⟨_, .refl q, rfl⟩

/-! ### No two waiting frames of which one replaces the other -/

/-- No two frames of which one replaces the other. -/
abbrev noTwoSame (q : List TxFrame) : Prop := q.Pairwise fun f g => sameFrame f.body g.body = false

theorem noTwoSame_insertByAge {q : List TxFrame} {f : TxFrame} (hq : noTwoSame q)
    (hf : ∀ x ∈ q, sameFrame x.body f.body = false) : noTwoSame (insertByAge f q) := by
  refine ((insertByAge_perm f q).pairwise_iff fun h => by rwa [sameFrame_comm]).2 (List.pairwise_cons.2 ⟨fun x hx => ?_, hq⟩)
  rw [sameFrame_comm]
  exact hf x hx

theorem noTwoSame_enterClaimFrame {q : List TxFrame} {f : TxFrame} (hq : noTwoSame q)
    (hf : ∀ x ∈ q, sameFrame x.body f.body = false) : noTwoSame (enterClaimFrame q f) := by
  obtain ⟨rest, hsub, he⟩ := enterClaimFrame_eq q f
  rw [he]
  exact noTwoSame_insertByAge (hq.sublist hsub) fun x hx => hf x (hsub.subset hx)

theorem noTwoSame_replaceWaiting {q : List TxFrame} (u : Nat) (b : FrameBody) (hq : noTwoSame q) :
    noTwoSame (replaceWaiting q u b) := by
  refine List.pairwise_map.2 (hq.imp fun {x y} hxy => ?_)
  by_cases hx : sameFrame x.body b = true <;> by_cases hy : sameFrame y.body b = true
  · exact absurd (sameFrame_trans hx (by rwa [sameFrame_comm])) (by rw [hxy]; decide)
  · rw [if_pos hx, if_neg hy, sameFrame_comm]
    exact Bool.eq_false_iff.2 hy
  · rw [if_neg hx, if_pos hy]
    exact Bool.eq_false_iff.2 hx
  · rw [if_neg hx, if_neg hy]
    exact hxy

theorem noTwoSame_absorbHold {q : List TxFrame} (u g : Nat) (hq : noTwoSame q) : noTwoSame (absorbHold q u g) := by
  refine List.pairwise_map.2 (hq.imp fun {x y} hxy => ?_)
  split <;> split <;> exact hxy

theorem not_any_sameFrame {q : List TxFrame} {b : FrameBody} (h : ¬ q.any (fun x => sameFrame x.body b) = true) :
    ∀ x ∈ q, sameFrame x.body b = false := by
  simpa using h

theorem noTwoSame_queueOffer {q : List TxFrame} (f : TxFrame) (hq : noTwoSame q) : noTwoSame (queueOffer q f) := by
  unfold queueOffer
  split
  · split
    · exact noTwoSame_replaceWaiting _ _ hq
    · exact noTwoSame_insertByAge hq (not_any_sameFrame ‹_›)
  · split
    · exact noTwoSame_replaceWaiting _ _ hq
    · exact noTwoSame_insertByAge hq (not_any_sameFrame ‹_›)
  · next hb => exact noTwoSame_enterClaimFrame hq fun x _ => by rw [hb]; exact sameFrame_claim ..
  · split
    · exact noTwoSame_absorbHold _ _ hq
    · split
      · exact noTwoSame_replaceWaiting _ _ hq
      · exact noTwoSame_enterClaimFrame hq (not_any_sameFrame ‹_›)
  · next hb =>
    exact noTwoSame_enterClaimFrame (List.Pairwise.filter _ hq) fun x _ => by rw [hb]; exact sameFrame_release ..

theorem noTwoSame_queueReturn {q : List TxFrame} (f : TxFrame) (hq : noTwoSame q) : noTwoSame (queueReturn q f) := by
  unfold queueReturn
  split
  · exact hq
  · split
    · exact noTwoSame_enterClaimFrame hq (not_any_sameFrame ‹_›)
    · exact noTwoSame_insertByAge hq (not_any_sameFrame ‹_›)

/-! ### Every frame of a queue after an offer has a group's body or a place that was there before -/

/-- A property of age and body that the entering frame has and every waiting frame has, if it does not distinguish
frames of which one replaces the other. -/
theorem forall_mem_queueOffer {P : TxFrame → Prop} {q : List TxFrame} {f : TxFrame} (hq : ∀ x ∈ q, P x) (hf : P f)
    (hreplace : ∀ x ∈ q, sameFrame x.body f.body = true → P ⟨x.age, f.urgency, f.body⟩)
    (habsorb : ∀ x ∈ q, ∀ u, P { x with urgency := u }) : ∀ x ∈ queueOffer q f, P x := by
  have hins : ∀ rest : List TxFrame, rest.Sublist q → ∀ x ∈ insertByAge f rest, P x := by
    intro rest hsub x hx
    rcases (mem_insertByAge f x rest).1 hx with rfl | hx
    · exact hf
    · exact hq x (hsub.subset hx)
  have henter : ∀ rest : List TxFrame, rest.Sublist q → ∀ x ∈ enterClaimFrame rest f, P x := by
    intro rest hsub
    obtain ⟨rest', hsub', he⟩ := enterClaimFrame_eq rest f
    rw [he]
    exact hins rest' (hsub'.trans hsub)
  have hrep : ∀ x ∈ replaceWaiting q f.urgency f.body, P x := by
    intro x hx
    obtain ⟨y, hy, rfl⟩ := List.mem_map.1 hx
    split
    · exact hreplace y hy ‹_›
    · exact hq y hy
  unfold queueOffer
  split
  · split
    · exact hrep
    · exact hins q (.refl q)
  · split
    · exact hrep
    · exact hins q (.refl q)
  · exact henter q (.refl q)
  · split
    · intro x hx
      obtain ⟨y, hy, rfl⟩ := List.mem_map.1 hx
      split
      · exact habsorb y hy _
      · exact hq y hy
    · split
      · exact hrep
      · exact henter q (.refl q)
  · exact henter _ List.filter_sublist

theorem forall_mem_queueReturn {P : TxFrame → Prop} {q : List TxFrame} {f : TxFrame} (hq : ∀ x ∈ q, P x) (hf : P f) :
    ∀ x ∈ queueReturn q f, P x := by
  unfold queueReturn
  split
  · exact hq
  · split
    · intro x hx
      rcases mem_enterClaimFrame q f x hx with rfl | hx
      · exact hf
      · exact hq x hx
    · intro x hx
      rcases (mem_insertByAge f x q).1 hx with rfl | hx
      · exact hf
      · exact hq x hx

/-! ### Order of age -/

/-- Waiting frames in order of age (R136, R137). -/
abbrev inAgeOrder (q : List TxFrame) : Prop := q.Pairwise fun f g => f.age < g.age

theorem inAgeOrder_enterClaimFrame {q : List TxFrame} {f : TxFrame} (hq : inAgeOrder q) (hf : ∀ x ∈ q, x.age ≠ f.age) :
    inAgeOrder (enterClaimFrame q f) := by
  obtain ⟨rest, hsub, he⟩ := enterClaimFrame_eq q f
  rw [he]
  exact ascending_insertByAge f rest (hq.sublist hsub) fun x hx => hf x (hsub.subset hx)

theorem inAgeOrder_replaceWaiting {q : List TxFrame} (u : Nat) (b : FrameBody) (hq : inAgeOrder q) :
    inAgeOrder (replaceWaiting q u b) := by
  refine List.pairwise_map.2 (hq.imp fun {x y} hxy => ?_)
  split <;> split <;> exact hxy

theorem inAgeOrder_absorbHold {q : List TxFrame} (u g : Nat) (hq : inAgeOrder q) : inAgeOrder (absorbHold q u g) := by
  refine List.pairwise_map.2 (hq.imp fun {x y} hxy => ?_)
  split <;> split <;> exact hxy

theorem inAgeOrder_queueOffer {q : List TxFrame} {f : TxFrame} (hq : inAgeOrder q) (hf : ∀ x ∈ q, x.age ≠ f.age) :
    inAgeOrder (queueOffer q f) := by
  unfold queueOffer
  split
  · split
    · exact inAgeOrder_replaceWaiting _ _ hq
    · exact ascending_insertByAge f q hq hf
  · split
    · exact inAgeOrder_replaceWaiting _ _ hq
    · exact ascending_insertByAge f q hq hf
  · exact inAgeOrder_enterClaimFrame hq hf
  · split
    · exact inAgeOrder_absorbHold _ _ hq
    · split
      · exact inAgeOrder_replaceWaiting _ _ hq
      · exact inAgeOrder_enterClaimFrame hq hf
  · exact inAgeOrder_enterClaimFrame (List.Pairwise.filter _ hq) fun x hx => hf x (List.mem_of_mem_filter hx)

theorem inAgeOrder_queueReturn {q : List TxFrame} {f : TxFrame} (hq : inAgeOrder q) (hf : ∀ x ∈ q, x.age ≠ f.age) :
    inAgeOrder (queueReturn q f) := by
  unfold queueReturn
  split
  · exact hq
  · split
    · exact inAgeOrder_enterClaimFrame hq hf
    · exact ascending_insertByAge f q hq hf

/-! ### At most two waiting claim frames -/

theorem claimFrames_length_map {q : List TxFrame} (g : TxFrame → TxFrame)
    (h : ∀ x ∈ q, isClaimFrame (g x).body = isClaimFrame x.body) :
    (claimFrames (q.map g)).length = (claimFrames q).length := by
  induction q with
  | nil => rfl
  | cons x q ih =>
    have ih := ih fun y hy => h y (List.mem_cons_of_mem _ hy)
    have hx := h x (List.mem_cons_self ..)
    simp only [claimFrames, List.map_cons, List.filter_cons, hx] at ih ⊢
    split <;> simp [ih]

theorem claimFrames_replaceWaiting (q : List TxFrame) (u : Nat) (b : FrameBody) :
    (claimFrames (replaceWaiting q u b)).length = (claimFrames q).length :=
  claimFrames_length_map _ fun x _ => by
    split
    · exact (isClaimFrame_of_sameFrame ‹_›).symm
    · rfl

theorem claimFrames_absorbHold (q : List TxFrame) (u g : Nat) :
    (claimFrames (absorbHold q u g)).length = (claimFrames q).length :=
  claimFrames_length_map _ fun x _ => by split <;> rfl

theorem claimFrames_sublist {q q' : List TxFrame} (h : q.Sublist q') :
    (claimFrames q).length ≤ (claimFrames q').length := (h.filter _).length_le

theorem claimFrames_insertByAge_other {q : List TxFrame} {f : TxFrame} (hf : isClaimFrame f.body = false) :
    (claimFrames (insertByAge f q)).length = (claimFrames q).length := by
  rw [claimFrames_insertByAge, hf]; rfl

theorem claimFrames_queueOffer {q : List TxFrame} (f : TxFrame) (h : (claimFrames q).length ≤ 2) :
    (claimFrames (queueOffer q f)).length ≤ 2 := by
  unfold queueOffer
  split
  · next hb =>
    split
    · rwa [claimFrames_replaceWaiting]
    · rwa [claimFrames_insertByAge_other (by rw [hb]; rfl)]
  · next hb =>
    split
    · rwa [claimFrames_replaceWaiting]
    · rwa [claimFrames_insertByAge_other (by rw [hb]; rfl)]
  · exact claimFrames_enterClaimFrame q f h
  · split
    · rwa [claimFrames_absorbHold]
    · split
      · rwa [claimFrames_replaceWaiting]
      · exact claimFrames_enterClaimFrame q f h
  · exact claimFrames_enterClaimFrame _ f ((claimFrames_sublist List.filter_sublist).trans h)

theorem claimFrames_queueReturn {q : List TxFrame} (f : TxFrame) (h : (claimFrames q).length ≤ 2) :
    (claimFrames (queueReturn q f)).length ≤ 2 := by
  unfold queueReturn
  split
  · exact h
  · split
    · exact claimFrames_enterClaimFrame q f h
    · next hf => rwa [claimFrames_insertByAge_other (Bool.eq_false_iff.2 hf)]

/-! ### The head of the queue (R137) -/

theorem betterFrame_ne_none (best : Option TxFrame) (f : TxFrame) : ∃ g, betterFrame best f = some g ∧ (g = f ∨ best = some g) := by
  cases best with
  | none => exact ⟨f, rfl, .inl rfl⟩
  | some b =>
    simp only [betterFrame]
    split
    · exact ⟨f, rfl, .inl rfl⟩
    · exact ⟨b, rfl, .inr rfl⟩

theorem foldl_betterFrame_mem : ∀ (q : List TxFrame) (best : Option TxFrame) (f : TxFrame),
    q.foldl betterFrame best = some f → f ∈ q ∨ best = some f
  | [], _, _, h => .inr h
  | g :: q, best, f, h => by
    rcases foldl_betterFrame_mem q _ f h with h | h
    · exact .inl (List.mem_cons_of_mem _ h)
    · obtain ⟨x, hx, hor⟩ := betterFrame_ne_none best g
      rw [hx, Option.some.injEq] at h
      subst h
      rcases hor with rfl | hor
      · exact .inl (List.mem_cons_self ..)
      · exact .inr hor

theorem queueHead_mem {q : List TxFrame} {f : TxFrame} (h : queueHead q = some f) : f ∈ q := by
  rcases foldl_betterFrame_mem q none f h with h | h
  · exact h
  · cases h

theorem foldl_betterFrame_some : ∀ (q : List TxFrame) (b : TxFrame), ∃ f, q.foldl betterFrame (some b) = some f
  | [], b => ⟨b, rfl⟩
  | g :: q, b => by
    obtain ⟨x, hx, _⟩ := betterFrame_ne_none (some b) g
    rw [List.foldl_cons, hx]
    exact foldl_betterFrame_some q x

theorem queueHead_of_ne_nil {q : List TxFrame} (h : q ≠ []) : ∃ f, queueHead q = some f := by
  cases q with
  | nil => exact absurd rfl h
  | cons g q => exact foldl_betterFrame_some q g

theorem queueHead_eq_none {q : List TxFrame} (h : queueHead q = none) : q = [] := by
  by_contra hq
  obtain ⟨f, hf⟩ := queueHead_of_ne_nil hq
  rw [h] at hf
  cases hf

end Sys2Proof.Machine

/-! ## The checks of START (R191, R3) -/

namespace Sys2Proof.Machine

-- The kernel checks the lemmas one after another: many at once take a thread each.
set_option Elab.async false

/-! ### The first failing check of a list -/

theorem firstFailing_eq_none : ∀ (n : Nat) (l : List Bool), firstFailing n l = none ↔ ∀ b ∈ l, b = true
  | _, [] => by simp [firstFailing]
  | n, true :: l => by simpa [firstFailing] using firstFailing_eq_none (n + 1) l
  | _, false :: _ => by simp [firstFailing]

theorem firstFailing_eq_some : ∀ (n k : Nat) (l : List Bool), (∀ j, j < k → l[j]? = some true) → l[k]? = some false →
    firstFailing n l = some (n + k)
  | _, _, [], _, h => by simp at h
  | n, 0, ok :: l, _, h => by
    obtain rfl : ok = false := by simpa using h
    rfl
  | n, k + 1, ok :: l, hpre, h => by
    obtain rfl : ok = true := by simpa using hpre 0 (by omega)
    have := firstFailing_eq_some (n + 1) k l (fun j hj => by simpa using hpre (j + 1) (by omega)) (by simpa using h)
    simpa [firstFailing, Nat.add_comm, Nat.add_left_comm] using this

/-- The checks of the records before e pass, one check of e fails first: e is the first bad span. -/
theorem firstBadSpan_eq_some : ∀ (pre lower : Table SpanRecord) (e : Nat × SpanRecord) (post : Table SpanRecord) (k : Nat),
    (∀ p x q, pre = p ++ x :: q → ∀ b ∈ spanChecks (lower ++ p) x.1 x.2, b = true) →
    (∀ j, j < k → (spanChecks (lower ++ pre) e.1 e.2)[j]? = some true) →
    (spanChecks (lower ++ pre) e.1 e.2)[k]? = some false →
    firstBadSpan lower (pre ++ e :: post) = some (20 + k, e.1)
  | [], lower, e, post, k, _, hbefore, hfails => by
    rw [List.append_nil] at hbefore hfails
    rw [List.nil_append, firstBadSpan, firstFailing_eq_some 20 k _ hbefore hfails]
  | x :: pre, lower, e, post, k, hpre, hbefore, hfails => by
    have hx : firstFailing 20 (spanChecks lower x.1 x.2) = none :=
      (firstFailing_eq_none _ _).2 (by simpa using hpre [] x pre rfl)
    rw [List.cons_append, firstBadSpan, hx]
    refine firstBadSpan_eq_some pre (lower ++ [x]) e post k (fun p y q h => ?_) (by simpa using hbefore) (by simpa using hfails)
    simpa using hpre (x :: p) y q (by rw [h]; rfl)

/-! ### Light groups and sheath groups -/

theorem length_ascSet_le {l l' : List Nat} (h : l ⊆ l') : (ascSet l).length ≤ (ascSet l').length :=
  (List.subperm_of_subset ((sorted_ascSet l).imp Nat.ne_of_lt) fun m hm =>
    (mem_ascSet m l').2 (h ((mem_ascSet m l).1 hm))).length_le

theorem groupsOf_length_le (f : SpanRecord → Nat) {t u : Table SpanRecord} (h : t ⊆ u) :
    (groupsOf f t).length ≤ (groupsOf f u).length :=
  length_ascSet_le (List.filter_subset _ (List.map_subset _ h))

/-! ### Every span check -/

/-- The bounds of R3 on one record: span checks 20 to 27. -/
abbrev recordInBounds (r : SpanRecord) : Prop :=
  (256 ≤ r.len ∧ r.len ≤ 16384 ∧ r.len % 256 = 0) ∧ (16 ≤ r.anchor ∧ r.anchor + 112 ≤ r.len) ∧
  (10 ≤ r.tau ∧ r.tau ≤ 1000) ∧ (8 ≤ r.shots ∧ r.shots ≤ 16) ∧ r.cycle ≤ 255 ∧
  r.alertMode ≤ 2 ∧ (1 ≤ r.alertLevel ∧ r.alertLevel ≤ 3) ∧ r.offset ≤ 327670 ∧
  r.firstPage ≤ 127 ∧ r.firstPage + (r.len + 4095) / 4096 ≤ 128

/-- Two records share no page (span check 30). -/
abbrev apart (e f : Nat × SpanRecord) : Prop := ∀ p ∈ e.2.pages, p ∉ f.2.pages

theorem apart_comm (e f : Nat × SpanRecord) : apart e f ↔ apart f e :=
  ⟨fun h p hf he => h p he hf, fun h p he hf => h p hf he⟩

theorem alertModeOf_isSome (c : Nat) : (alertModeOf c).isSome = true ↔ c ≤ 2 := by
  unfold alertModeOf
  split <;> simp_all
  omega

theorem not_pagesMeet (r : SpanRecord) (e : Nat × SpanRecord) (n : Nat) : (!pagesMeet r e.2) = true ↔ apart (n, r) e := by
  simp [pagesMeet, apart]

theorem pageCount_eq (len : Nat) : pageCount len = (len + 4095) / 4096 := rfl

theorem spanChecks_pass (lower : Table SpanRecord) (n : Nat) (r : SpanRecord) :
    (∀ b ∈ spanChecks lower n r, b = true) ↔
      recordInBounds r ∧ (groupsOf (·.lightGroup) (lower ++ [(n, r)])).length ≤ 16 ∧
      (groupsOf (·.sheathGroup) (lower ++ [(n, r)])).length ≤ 8 ∧ ∀ e ∈ lower, apart e (n, r) := by
  have hpages : (lower.all fun e => !pagesMeet r e.2) = true ↔ ∀ e ∈ lower, apart e (n, r) := by
    rw [List.all_eq_true]
    exact forall₂_congr fun e _ => (not_pagesMeet r e n).trans (apart_comm _ _)
  simp only [spanChecks, List.forall_mem_cons, List.not_mem_nil, false_imp_iff, implies_true, and_true, hpages,
    recordInBounds, within, Bool.and_eq_true, decide_eq_true_eq, alertModeOf_isSome]
  rw [pageCount_eq]
  constructor
  · rintro ⟨hlen, hanchor, htau, hshots, hcycle, halert, hoffset, hpage, hlight, hsheath, hapart⟩
    exact ⟨by omega, hlight, hsheath, hapart⟩
  · rintro ⟨hbounds, hlight, hsheath, hapart⟩
    exact ⟨by omega, by omega, by omega, by omega, by omega, by omega, by omega, by omega, hlight, hsheath, hapart⟩

theorem firstBadSpan_eq_none : ∀ l lower : Table SpanRecord, (groupsOf (·.lightGroup) lower).length ≤ 16 →
    (groupsOf (·.sheathGroup) lower).length ≤ 8 →
    (firstBadSpan lower l = none ↔
      (∀ e ∈ l, recordInBounds e.2) ∧ (groupsOf (·.lightGroup) (lower ++ l)).length ≤ 16 ∧
      (groupsOf (·.sheathGroup) (lower ++ l)).length ≤ 8 ∧ l.Pairwise apart ∧ ∀ e ∈ lower, ∀ f ∈ l, apart e f)
  | [], lower, hlight, hsheath => by simp [firstBadSpan, hlight, hsheath]
  | (n, r) :: l, lower, _, _ => by
    rw [firstBadSpan]
    split
    · next code hcode =>
      refine iff_of_false (by simp) fun ⟨hbounds, hlight, hsheath, hpair, hlower⟩ => ?_
      have hsub : lower ++ [(n, r)] ⊆ lower ++ (n, r) :: l := by simp
      have hpass := (spanChecks_pass lower n r).2 ⟨hbounds _ (List.mem_cons_self ..),
        (groupsOf_length_le _ hsub).trans hlight, (groupsOf_length_le _ hsub).trans hsheath,
        fun e he => hlower e he _ (List.mem_cons_self ..)⟩
      rw [(firstFailing_eq_none _ _).2 hpass] at hcode
      cases hcode
    · next hnone =>
      obtain ⟨hbounds, hlight, hsheath, happ⟩ := (spanChecks_pass lower n r).1 ((firstFailing_eq_none _ _).1 hnone)
      rw [firstBadSpan_eq_none l _ hlight hsheath, List.append_assoc, List.singleton_append, List.forall_mem_cons,
        List.pairwise_cons]
      simp only [List.mem_append, List.mem_singleton, or_imp, forall_and, forall_eq, List.forall_mem_cons]
      tauto

/-! ### START finds no fault -/

/-- The station-wide bounds of R191, R22, R171 and R176: checks 1 to 19. -/
abbrev stationInBounds (id tod : Nat) (b : StationBlock) : Prop :=
  (1 ≤ id ∧ id ≤ 31) ∧ (10000 ≤ b.refKHz ∧ b.refKHz ≤ 40000) ∧ (1 ≤ b.mulM ∧ b.mulM ≤ 64) ∧ (1 ≤ b.divP ∧ b.divP ≤ 16) ∧
  (50000 * b.divP ≤ b.refKHz * b.mulM ∧ b.refKHz * b.mulM ≤ 250000 * b.divP) ∧
  (14000 ≤ b.groupIndex ∧ b.groupIndex ≤ 15000) ∧ b.quietStart ≤ 1439 ∧ b.quietEnd ≤ 1439 ∧
  (1 ≤ b.dayFloor ∧ b.dayFloor ≤ 3) ∧ tod ≤ 86399999 ∧ (5 ≤ b.resumeLimit ∧ b.resumeLimit ≤ 120) ∧
  (10 ≤ b.alertInterval ∧ b.alertInterval ≤ 3600) ∧ (8 ≤ b.foreignLight ∧ b.foreignLight ≤ 4095) ∧
  (8 ≤ b.disturbance ∧ b.disturbance ≤ 4095) ∧ (100 ≤ b.reflection ∧ b.reflection ≤ 1000) ∧ b.floorLevel ≤ 1000 ∧
  (20 ≤ b.holdOff ∧ b.holdOff ≤ 200) ∧ (2 ≤ b.claimLifetime ∧ b.claimLifetime ≤ 60) ∧
  (10 ≤ b.roundTimeout ∧ b.roundTimeout ≤ 600) ∧ (10 ≤ b.holdDown ∧ b.holdDown ≤ 600) ∧
  (10 ≤ b.tolerance ∧ b.tolerance ≤ 10000)

theorem stationChecks_pass (id tod : Nat) (b : StationBlock) :
    (∀ x ∈ stationChecks id tod b, x = true) ↔ stationInBounds id tod b := by
  simp only [stationChecks, List.forall_mem_cons, List.not_mem_nil, false_imp_iff, implies_true, and_true, within,
    Bool.and_eq_true, decide_eq_true_eq, Nat.zero_le, true_and, and_assoc, stationInBounds]

theorem startFault_eq_none (s : State) (tod : Nat) : startFault s tod = none ↔
    stationInBounds s.line.id tod s.port.stagedStation ∧ (∀ e ∈ stagedEnabled s, recordInBounds e.2) ∧
    (groupsOf (·.lightGroup) (stagedEnabled s)).length ≤ 16 ∧ (groupsOf (·.sheathGroup) (stagedEnabled s)).length ≤ 8 ∧
    (stagedEnabled s).Pairwise apart := by
  rw [← stationChecks_pass, startFault]
  split
  · next code hcode =>
    refine iff_of_false (by simp) fun h => ?_
    rw [(firstFailing_eq_none _ _).2 h.1] at hcode
    cases hcode
  · next hnone =>
    rw [and_iff_right ((firstFailing_eq_none _ _).1 hnone), firstBadSpan_eq_none _ [] (by decide) (by decide)]
    simp only [implies_true, List.nil_append, List.not_mem_nil, false_imp_iff, and_true]

theorem startFault_of_station {s : State} {tod k : Nat}
    (hbefore : ∀ j, j < k → (stationChecks s.line.id tod s.port.stagedStation)[j]? = some true)
    (hfails : (stationChecks s.line.id tod s.port.stagedStation)[k]? = some false) : startFault s tod = some (k + 1, 0) := by
  rw [startFault, firstFailing_eq_some 1 k _ hbefore hfails, Nat.add_comm]

/-! ### What START answers -/

theorem exec_start_locked {s : State} (tod : Nat) (h : s.port.station ≠ .unconfigured) :
    exec (.start tod) s = .next (refuse s .refusedState) := by
  rw [exec, execStart, if_pos h]

theorem exec_start_fault {s : State} {tod code span : Nat} (h : s.port.station = .unconfigured)
    (hf : startFault s tod = some (code, span)) :
    exec (.start tod) s = .next (answer s .refusedParam (beBytes 1 code ++ beBytes 1 span)) := by
  rw [exec, execStart, if_neg (not_not.2 h), hf]

theorem exec_start_started {s : State} {tod : Nat} (h : s.port.station = .unconfigured) (hf : startFault s tod = none) :
    exec (.start tod) s = .next (started s tod) := by
  rw [exec, execStart, if_neg (not_not.2 h), hf]

end Sys2Proof.Machine

namespace Sys2Proof
open Machine

/-- Settles O7: START finds no fault when every check of its two lists passes, and the checks spell out the bounds; the
number of the first failing one is its place. -/
theorem startChecksEveryBound : Obligations.StartChecksEveryBound := by
  refine ⟨startFault_eq_none, fun s tod => ⟨exec_start_locked tod, fun code span hu hf => ?_,
    fun k => startFault_of_station, fun pre e post k hstaged hstation hpre hbefore hfails => ?_⟩⟩
  · rw [exec_start_fault hu hf]
    simp [beBytes]
  · rw [startFault, (firstFailing_eq_none _ _).2 hstation, hstaged]
    exact firstBadSpan_eq_some pre [] e post k (by simpa using hpre) (by simpa using hbefore) (by simpa using hfails)

end Sys2Proof

/-! ## The invariants of tables, notices, queue, line, peers, clock and sums: what each block's change keeps -/

namespace Sys2Proof

-- The kernel checks the lemmas one after another: many at once take a thread each.
set_option Elab.async false

/-! ### Tables -/

section
variable {α : Type}

theorem Table.has_congr {t u : Table α} (h : t.keys = u.keys) (k : Nat) : t.has k = u.has k := by
  rw [Bool.eq_iff_iff, Table.has_iff, Table.has_iff, h]

theorem Table.has_adjust (t : Table α) (k j : Nat) (f : α → α) : (t.adjust k f).has j = t.has j :=
  Table.has_congr (Table.keys_adjust t k f) j

theorem Table.length_adjust (t : Table α) (k : Nat) (f : α → α) : (t.adjust k f).length = t.length := List.length_map _

theorem Table.has_of_find {t : Table α} {k : Nat} {v : α} (h : t.find k = some v) : t.has k = true := by
  rw [Table.has, h]; rfl

theorem Table.has_put (t : Table α) (k j : Nat) (v : α) : (t.put k v).has j = true ↔ j = k ∨ t.has j = true := by
  rw [Table.has_iff, Table.has_iff, Table.mem_keys_put]

/-- A value put at a key that is listed takes the place of the old one. -/
theorem Table.length_put_of_has : ∀ {t : Table α} {k : Nat} (v : α), t.wf → t.has k = true → (t.put k v).length = t.length
  | [], k, _, _, h => by simp [Table.has] at h
  | (a, w) :: t, k, v, hwf, h => by
    obtain ⟨ha, hwf⟩ := (Table.wf_cons _ _).1 hwf
    rw [Table.has_iff, Table.keys, List.map_cons, List.mem_cons] at h
    rw [Table.put]
    split
    · next hlt => rcases h with h | h
                  · exact absurd h (Nat.ne_of_lt hlt)
                  · have := ha k h; simp only at this; omega
    · split
      · rfl
      · next hne =>
        rw [List.length_cons, Table.length_put_of_has v hwf ((Table.has_iff t k).2 (h.resolve_left hne)), List.length_cons]

theorem Table.mem_of_find : ∀ {t : Table α} {k : Nat} {v : α}, t.find k = some v → (k, v) ∈ t
  | [], _, _, h => by simp at h
  | e :: t, k, v, h => by
    rw [Table.find_cons] at h
    split at h
    · next hk => rw [hk, ← Option.some.inj h]; exact List.mem_cons_self ..
    · exact List.mem_cons_of_mem _ (Table.mem_of_find h)

theorem Table.find_of_mem : ∀ {t : Table α} {k : Nat} {v : α}, t.wf → (k, v) ∈ t → t.find k = some v
  | e :: t, k, v, hwf, h => by
    obtain ⟨he, hwf⟩ := (Table.wf_cons _ _).1 hwf
    rw [Table.find_cons]
    rcases List.mem_cons.1 h with rfl | h
    · exact if_pos rfl
    · have hk : e.1 < k := he k (List.mem_map.2 ⟨_, h, rfl⟩)
      rw [if_neg (Nat.ne_of_gt hk), Table.find_of_mem hwf h]

theorem Table.forall_mem_adjust {t : Table α} {k : Nat} {f : α → α} {P : Nat × α → Prop} (h : ∀ e ∈ t, P e)
    (hf : ∀ v, P (k, v) → P (k, f v)) : ∀ e ∈ t.adjust k f, P e := by
  intro e he
  obtain ⟨x, hx, rfl⟩ := List.mem_map.1 he
  split
  · next hk => subst hk; exact hf _ (h x hx)
  · exact h x hx

theorem Table.forall_mem_put : ∀ {t : Table α} {k : Nat} {v : α} {P : Nat × α → Prop}, (∀ e ∈ t, P e) → P (k, v) →
    ∀ e ∈ t.put k v, P e
  | [], _, _, _, _, hv => by simpa [Table.put] using hv
  | (a, w) :: t, k, v, P, h, hv => by
    obtain ⟨ha, ht⟩ := List.forall_mem_cons.1 h
    rw [Table.put]
    split
    · exact List.forall_mem_cons.2 ⟨hv, h⟩
    · split
      · exact List.forall_mem_cons.2 ⟨hv, ht⟩
      · exact List.forall_mem_cons.2 ⟨ha, Table.forall_mem_put ht hv⟩

theorem Table.wf_map_const (l : List Nat) (hl : l.Pairwise (· < ·)) (v : Nat → α) : Table.wf (l.map fun k => (k, v k)) := by
  have : Table.keys (l.map fun k => (k, v k)) = l := by
    rw [Table.keys, List.map_map]; exact List.map_id' l
  rw [Table.wf, this]
  exact hl

end

namespace Machine

/-! ### What a row keeps -/

/-- Every invariant of Safety.lean on tables, notices, transmit queue, peers, clock and bin sums that holds of s holds
of t. -/
structure KeepsParts (s t : State) : Prop where
  store : s.store.sound → t.store.sound := by exact id
  tables : s.tablesSound → t.tablesSound := by exact id
  notices : s.notices.sound → t.notices.sound := by exact id
  queue : s.line.queueSound → t.line.queueSound := by exact id
  bounded : s.tablesSound → s.queueBounded → t.queueBounded := by exact fun _ => id
  ages : s.line.agesSound → t.line.agesSound := by exact id
  peers : s.peersSound → t.peersSound := by exact id
  clock : s.clockSound → t.clockSound := by exact id
  acc : s.acc.sound → t.acc.sound := by exact id

/-- All these invariants, and that the line access state fits the attempt. A frame that waits in IDLE breaks the last one until
its attempt starts, so it stands apart. -/
structure KeepsSound (s t : State) : Prop extends KeepsParts s t where
  access : s.lineSound → t.lineSound := by exact id

theorem KeepsParts.trans {s t u : State} (h : KeepsParts s t) (h' : KeepsParts t u) : KeepsParts s u where
  store := h'.store ∘ h.store
  tables := h'.tables ∘ h.tables
  notices := h'.notices ∘ h.notices
  queue := h'.queue ∘ h.queue
  bounded hs hb := h'.bounded (h.tables hs) (h.bounded hs hb)
  ages := h'.ages ∘ h.ages
  peers := h'.peers ∘ h.peers
  clock := h'.clock ∘ h.clock
  acc := h'.acc ∘ h.acc

namespace KeepsSound

theorem refl (s : State) : KeepsSound s s := {}

theorem trans {s t u : State} (h : KeepsSound s t) (h' : KeepsSound t u) : KeepsSound s u where
  toKeepsParts := h.toKeepsParts.trans h'.toKeepsParts
  access := h'.access ∘ h.access

variable {s t : State}

theorem ite {p : Prop} [Decidable p] {t u : State} (ht : p → KeepsSound s t) (hu : ¬ p → KeepsSound s u) :
    KeepsSound s (if p then t else u) := by
  split
  · exact ht ‹_›
  · exact hu ‹_›

theorem foldl {α : Type} {f : State → α → State} (hf : ∀ t a, KeepsSound s t → KeepsSound s (f t a)) :
    ∀ (l : List α) {t : State}, KeepsSound s t → KeepsSound s (l.foldl f t)
  | [], _, h => h
  | a :: l, t, h => foldl hf l (hf t a h)

/-! ### Port, notices -/

theorem answer (h : KeepsSound s t) (k : ReplyKind) (body : List Byte) : KeepsSound s (answer t k body) := h.trans {}

theorem refuse (h : KeepsSound s t) (k : ReplyKind) : KeepsSound s (refuse t k) := h.answer k []

theorem accept (h : KeepsSound s t) : KeepsSound s (accept t) := h.answer .accepted []

/-- The station takes a state other than ISOLATED. -/
theorem station (h : KeepsSound s t) {st : StationState} (hst : st ≠ .isolated) :
    KeepsSound s { t with port := { t.port with station := st } } :=
  h.trans { access := fun ⟨ha, hi, _⟩ => ⟨ha, hi, fun h => absurd h hst⟩ }

theorem post (h : KeepsSound s t) (b : NoticeBody) : KeepsSound s (post t b) := by
  refine h.trans ?_
  unfold Machine.post
  split
  · next hlen => exact { notices := fun _ => ⟨by simp only [List.length_append, List.length_singleton]; omega, by simp⟩ }
  · exact {}

theorem postAll (h : KeepsSound s t) (bs : List NoticeBody) : KeepsSound s (postAll t bs) :=
  foldl (fun _ b h => h.post b) bs h

/-! ### The line -/

/-- The unit is in an attempt (R133). -/
def attempting : LineState → Bool
  | .arbitrating => true
  | .sending => true
  | .passive => false
  | .busy => false
  | .gap => false
  | .idle => false

theorem attempting_iff (st : LineState) : attempting st = true ↔ st = .arbitrating ∨ st = .sending := by
  cases st <;> simp [attempting]

theorem agesSound_startAttempt (f : TxFrame) {l : Line} (hf : f ∈ l.queue) (driving : List Bool) (h : l.agesSound) :
    Line.agesSound { l with queue := l.queue.filter (· ≠ f), attempt := some f, attemptDropped := false,
                            driving := driving, state := .arbitrating } := by
  obtain ⟨hpair, hnext, _⟩ := h
  refine ⟨hpair.filter _, fun x hx => ?_, fun a ha x hx => ?_⟩
  · rcases List.mem_append.1 hx with hx | hx
    · exact hnext x (List.mem_append_left _ (List.mem_of_mem_filter hx))
    · obtain rfl : x = f := by simpa using hx
      exact hnext _ (List.mem_append_left _ hf)
  · obtain rfl : a = f := by simpa using ha
    obtain ⟨hx, hne⟩ := List.mem_filter.1 hx
    simp only [ne_eq, decide_not, Bool.not_eq_true', decide_eq_false_iff_not] at hne
    obtain ⟨i, hi, rfl⟩ := List.mem_iff_getElem.1 hx
    obtain ⟨j, hj, rfl⟩ := List.mem_iff_getElem.1 hf
    rcases Nat.lt_trichotomy i j with hij | rfl | hij
    · exact Nat.ne_of_lt (List.pairwise_iff_getElem.1 hpair i j hi hj hij)
    · exact absurd rfl hne
    · exact Nat.ne_of_gt (List.pairwise_iff_getElem.1 hpair j i hj hi hij)

theorem queueBounded_startAttempt (f : TxFrame) {t : State} (hf : f ∈ t.line.queue) (driving : List Bool) (h : t.queueBounded) :
    State.queueBounded { t with line := { t.line with
      queue := t.line.queue.filter (· ≠ f), attempt := some f, attemptDropped := false, driving := driving, state := .arbitrating } } := by
  obtain ⟨hq, hclaims, hcorr, hfind⟩ := h
  refine ⟨hq.filter _, (claimFrames_sublist List.filter_sublist).trans hclaims, hcorr, fun x hx => ?_⟩
  rcases List.mem_append.1 hx with hx | hx
  · exact hfind x (List.mem_append_left _ (List.mem_of_mem_filter hx))
  · obtain rfl : x = f := by simpa using hx
    exact hfind _ (List.mem_append_left _ hf)

/-- An attempt may start (R134); what the access state loses while a frame waits in IDLE, it has again. -/
theorem startAttempt_access {t : State} (hattempt : t.line.attempt ≠ none ↔ t.line.state = .arbitrating ∨ t.line.state = .sending)
    (hidle : t.line.state = .idle → canSend t = false → t.line.queue = [])
    (hisolated : t.port.station = .isolated → t.line.queue = [] ∧ t.line.attempt = none) : (startAttempt t).lineSound := by
  unfold startAttempt
  split
  · next hstart =>
    simp only [canSend, Bool.and_eq_true, decide_eq_true_eq] at hstart
    split
    · next hnone => exact ⟨hattempt, fun _ => queueHead_eq_none hnone, hisolated⟩
    · exact ⟨by simp, fun h => by simp at h, fun h => absurd h hstart.2.2⟩
  · next hstart =>
    refine ⟨hattempt, fun hi => hidle hi ?_, hisolated⟩
    simpa [hi] using hstart

theorem startAttempt_parts (t : State) : KeepsParts t (Machine.startAttempt t) := by
  unfold Machine.startAttempt
  split
  · split
    · exact {}
    · next f hf =>
      have hf := queueHead_mem hf
      exact { queue := List.Pairwise.filter _, bounded := fun _ => queueBounded_startAttempt f hf _,
              ages := agesSound_startAttempt f hf _ }
  · exact {}

theorem startAttempt (h : KeepsSound s t) : KeepsSound s (startAttempt t) :=
  h.trans { toKeepsParts := startAttempt_parts t
            access := fun ⟨ha, hi, his⟩ => startAttempt_access ha (fun h _ => hi h) his }

/-- A frame with a new age enters the queue (R138, R139). -/
theorem agesSound_queueOffer (u : Nat) (b : FrameBody) {l : Line} (h : l.agesSound) :
    Line.agesSound { l with queue := queueOffer l.queue ⟨l.nextAge, u, b⟩, nextAge := l.nextAge + 1 } := by
  obtain ⟨hpair, hnext, hattempt⟩ := h
  have hlt : ∀ x ∈ l.queue, x.age < l.nextAge := fun x hx => hnext x (List.mem_append_left _ hx)
  have hall : ∀ x ∈ queueOffer l.queue ⟨l.nextAge, u, b⟩, x.age < l.nextAge + 1 :=
    forall_mem_queueOffer (P := fun x => x.age < l.nextAge + 1) (fun x hx => Nat.lt_succ_of_lt (hlt x hx))
      (Nat.lt_succ_self _) (fun x hx _ => Nat.lt_succ_of_lt (hlt x hx)) fun x hx _ => Nat.lt_succ_of_lt (hlt x hx)
  refine ⟨inAgeOrder_queueOffer hpair fun x hx => Nat.ne_of_lt (hlt x hx), fun x hx => ?_, fun a ha => ?_⟩
  · rcases List.mem_append.1 hx with hx | hx
    · exact hall x hx
    · exact Nat.lt_succ_of_lt (hnext x (List.mem_append_right _ hx))
  · have hne := hattempt a ha
    exact forall_mem_queueOffer (P := fun x => x.age ≠ a.age) hne
      (Nat.ne_of_gt (hnext a (List.mem_append_right _ ha))) (fun x hx _ => hne x hx) fun x hx _ => hne x hx

theorem queueBounded_queueOffer (u : Nat) {b : FrameBody} {t : State} (hb : ∀ g ∈ findingGroup b, t.corr.has g = true)
    (h : t.queueBounded) :
    State.queueBounded { t with line := { t.line with
      queue := queueOffer t.line.queue ⟨t.line.nextAge, u, b⟩, nextAge := t.line.nextAge + 1 } } := by
  obtain ⟨hq, hclaims, hcorr, hfind⟩ := h
  have hfindq : ∀ x ∈ t.line.queue, ∀ g ∈ findingGroup x.body, t.corr.has g = true :=
    fun x hx => hfind x (List.mem_append_left _ hx)
  refine ⟨noTwoSame_queueOffer _ hq, claimFrames_queueOffer _ hclaims, hcorr, fun x hx => ?_⟩
  rcases List.mem_append.1 hx with hx | hx
  · exact forall_mem_queueOffer (P := fun x => ∀ g ∈ findingGroup x.body, t.corr.has g = true) hfindq hb
      (fun _ _ _ => hb) (fun x hx _ => hfindq x hx) x hx
  · exact hfind x (List.mem_append_right _ hx)

theorem offer (h : KeepsSound s t) (u : Nat) {b : FrameBody}
    (hb : ∀ g ∈ findingGroup b, t.corr.has g = true := by simp [findingGroup]) : KeepsSound s (offer t u b) := by
  refine h.trans ?_
  unfold Machine.offer
  split
  · next hsend =>
    refine { toKeepsParts := .trans { queue := noTwoSame_queueOffer _, bounded := fun _ => queueBounded_queueOffer u hb,
                                      ages := agesSound_queueOffer u b } (startAttempt_parts _)
             access := fun ⟨ha, hi, his⟩ => startAttempt_access ha (fun _ hno => ?_) fun hiso => ?_ }
    · exact absurd hsend (by rw [show canSend t = false from hno]; decide)
    · simp only [canSend, Bool.and_eq_true, decide_eq_true_eq] at hsend
      exact absurd hiso hsend.2
  · exact .refl t

end KeepsSound
end Machine
end Sys2Proof

/-! ## Every shared operation keeps the invariants -/

namespace Sys2Proof.Machine

-- The kernel checks the lemmas one after another: many at once take a thread each.
set_option Elab.async false

/-! ### Sums of an accumulator slot (R95 to R97) -/

/-- Every sum of a slot is at most 4095 times its lit shots (R96). -/
abbrev AccSlot.sumsBounded (sl : AccSlot) : Prop := ∀ x ∈ sl.sums, x ≤ 4095 * sl.lit

theorem Acc.sound_adjust {a : Acc} (n : Nat) {f : AccSlot → AccSlot} (h : a.sound)
    (hf : ∀ sl : AccSlot, sl.sumsBounded → (f sl).sumsBounded) : (a.adjust n f).sound := by
  unfold Acc.adjust
  split
  · exact ⟨hf _ h.1, h.2⟩
  · exact ⟨h.1, hf _ h.2⟩

theorem AccSlot.sumsBounded_clear (sl : AccSlot) : sl.clear.sumsBounded := fun x hx => by
  rw [(List.mem_replicate.1 hx).2]
  exact Nat.zero_le _

theorem AccSlot.sumsBounded_emptySlot : emptySlot.sumsBounded := fun _ h => nomatch h

theorem AccSlot.sumsBounded_addShot (xs : List Adc) {sl : AccSlot} (h : sl.sumsBounded) :
    (sl.addShot xs).sumsBounded := by
  intro x hx
  obtain ⟨i, hi, rfl⟩ := List.mem_iff_getElem.1 hx
  simp only [AccSlot.addShot, List.getElem_zipWith] at hi ⊢
  have hsum := h _ (List.getElem_mem (l := sl.sums) (n := i) (by simp at hi; omega))
  have hsample : ∀ v ∈ acquired sl.first sl.count xs, v ≤ 4095 := by
    intro v hv
    obtain ⟨a, _, rfl⟩ := List.mem_map.1 hv
    omega
  have := hsample _ (List.getElem_mem (l := acquired sl.first sl.count xs) (n := i) (by simp at hi; omega))
  omega

namespace KeepsSound

variable {s t : State}

/-! ### Blocks that change under a condition -/

theorem setStore (h : KeepsSound s t) (st : Store) (hst : t.store.sound → st.sound) : KeepsSound s { t with store := st } :=
  h.trans { store := hst }

theorem setAcc (h : KeepsSound s t) (a : Acc) (ha : t.acc.sound → a.sound) : KeepsSound s { t with acc := a } :=
  h.trans { acc := ha }

theorem setSlots (h : KeepsSound s t) (sc : Sched) (hsc : Table.wf t.sched.slots → Table.wf sc.slots) :
    KeepsSound s { t with sched := sc } :=
  h.trans { tables := fun ⟨hstaged, hspans, hcount, htimers, hslots, hrest⟩ =>
              ⟨hstaged, hspans, hcount, htimers, hsc hslots, hrest⟩ }

theorem setTimers (h : KeepsSound s t) (a : Alerts) (ha : Table.wf t.alerts.timers → Table.wf a.timers) :
    KeepsSound s { t with alerts := a } :=
  h.trans { tables := fun ⟨hstaged, hspans, hcount, htimers, hrest⟩ => ⟨hstaged, hspans, hcount, ha htimers, hrest⟩ }

theorem setComp (h : KeepsSound s t) (c : Comparator) (hc : Table.wf t.comp.results → Table.wf c.results) :
    KeepsSound s { t with comp := c } :=
  h.trans { tables := fun ⟨hstaged, hspans, hcount, htimers, hslots, hresults, hrest⟩ =>
              ⟨hstaged, hspans, hcount, htimers, hslots, hc hresults, hrest⟩ }

theorem setClaims (h : KeepsSound s t) (c : Table ClaimEntry) (hc : Table.wf t.claims → Table.wf c) :
    KeepsSound s { t with claims := c } :=
  h.trans { tables := fun ⟨hstaged, hspans, hcount, htimers, hslots, hresults, hpeers, hclaims, hcorr⟩ =>
              ⟨hstaged, hspans, hcount, htimers, hslots, hresults, hpeers, hc hclaims, hcorr⟩ }

/-- The clock unit changes: its table stays canonical, time of day and mask stay in their ranges. -/
theorem setClock (h : KeepsSound s t) (c : Clock) (hcount : Table.wf t.clock.countdowns → Table.wf c.countdowns := by exact id)
    (htod : t.clock.tod < Config.msPerDay → c.tod < Config.msPerDay := by exact id)
    (hmask : t.cfg.block.dayFloor ≤ 3 → t.clock.mask ≤ 3 → c.mask ≤ 3 := by exact fun _ => id) :
    KeepsSound s { t with clock := c } :=
  h.trans { tables := fun ⟨hstaged, hspans, hcountdowns, hrest⟩ => ⟨hstaged, hspans, hcount hcountdowns, hrest⟩
            clock := fun ⟨hday, hm, hfloor⟩ => ⟨htod hday, hmask hfloor hm, hfloor⟩ }

/-- The corroboration records change: same groups, and canonical tables within them. -/
theorem setCorr (h : KeepsSound s t) (c : Table CorrRecord) (hwf : Table.wf t.corr → Table.wf c)
    (hin : (∀ e ∈ t.corr, e.2.tablesSound = true) → ∀ e ∈ c, e.2.tablesSound = true)
    (hlen : Table.wf t.corr → c.length = t.corr.length) (hhas : ∀ k, t.corr.has k = true → c.has k = true) :
    KeepsSound s { t with corr := c } :=
  h.trans { tables := fun ⟨hstaged, hspans, hcount, htimers, hslots, hresults, hpeers, hclaims, hcorr, hinner⟩ =>
              ⟨hstaged, hspans, hcount, htimers, hslots, hresults, hpeers, hclaims, hwf hcorr, hin hinner⟩
            bounded := fun ⟨_, _, _, _, _, _, _, _, hcorr, _⟩ ⟨hq, hclaims, hle, hfind⟩ =>
              ⟨hq, hclaims, (hlen hcorr).le.trans hle, fun f hf g hg => hhas g (hfind f hf g hg)⟩ }

theorem adjustCorr (h : KeepsSound s t) (k : Nat) (f : CorrRecord → CorrRecord)
    (hf : ∀ c, c.tablesSound = true → (f c).tablesSound = true) : KeepsSound s { t with corr := t.corr.adjust k f } :=
  h.setCorr _ (Table.wf_adjust k f) (fun hin => Table.forall_mem_adjust hin fun v => hf v)
    (fun _ => Table.length_adjust ..) fun j hj => by rwa [Table.has_adjust]

/-- Peers are another station's as before; presence and learning timer are free. -/
theorem setPeers (h : KeepsSound s t) (p : PeerUnit) (hwf : Table.wf t.peers.table → Table.wf p.table)
    (hkeys : ∀ x ∈ p.table.keys, x ∈ t.peers.table.keys) : KeepsSound s { t with peers := p } :=
  h.trans { tables := fun ⟨hstaged, hspans, hcount, htimers, hslots, hresults, hpeers, hrest⟩ =>
              ⟨hstaged, hspans, hcount, htimers, hslots, hresults, hwf hpeers, hrest⟩
            peers := fun ⟨hlen, hinbox, hother⟩ => ⟨hlen, hinbox, fun x hx => hother x (hkeys x hx)⟩ }

/-! ### The line -/

theorem mem_of_removed {p : FrameBody → Bool} {f : TxFrame}
    (h : f ∈ (Machine.askRemove t p).line.queue ++ (Machine.askRemove t p).line.attempt.toList) :
    f ∈ t.line.queue ++ t.line.attempt.toList :=
  List.mem_append.2 ((List.mem_append.1 h).imp_left List.mem_of_mem_filter)

theorem askRemove (h : KeepsSound s t) (p : FrameBody → Bool) : KeepsSound s (askRemove t p) :=
  h.trans {
    queue := List.Pairwise.filter _
    bounded := fun _ ⟨hq, hclaims, hcorr, hfind⟩ =>
      ⟨hq.filter _, (claimFrames_sublist List.filter_sublist).trans hclaims, hcorr, fun f hf => hfind f (mem_of_removed hf)⟩
    ages := fun ⟨hpair, hnext, hattempt⟩ => ⟨hpair.filter _, fun f hf => hnext f (mem_of_removed hf),
      fun a ha f hf => hattempt a ha f (List.mem_of_mem_filter hf)⟩
    access := fun ⟨ha, hi, his⟩ => ⟨ha, fun h => by simp [Machine.askRemove, hi h],
      fun h => ⟨by simp [Machine.askRemove, (his h).1], (his h).2⟩⟩ }

/-- The access state changes as the attempt allows, and not to IDLE. -/
theorem setLine (h : KeepsSound s t) (st : LineState)
    (hst : (t.line.state = .arbitrating ∨ t.line.state = .sending) ↔ (st = .arbitrating ∨ st = .sending))
    (hidle : st ≠ .idle) : KeepsSound s (setLine t st) :=
  h.trans { access := fun ⟨ha, _, his⟩ => ⟨ha.trans hst, fun h => absurd h hidle, his⟩ }

theorem endAttempt (h : KeepsSound s t) (st : LineState) (hst : attempting st = false) (hidle : st ≠ .idle) :
    KeepsSound s (endAttempt t st) :=
  h.trans {
    bounded := fun _ ⟨hq, hclaims, hcorr, hfind⟩ =>
      ⟨hq, hclaims, hcorr, fun f hf => hfind f (List.mem_append_left _ (by simpa [Machine.endAttempt] using hf))⟩
    ages := fun ⟨hpair, hnext, _⟩ => ⟨hpair,
      fun f hf => hnext f (List.mem_append_left _ (by simpa [Machine.endAttempt] using hf)), fun a ha => by simp [Machine.endAttempt] at ha⟩
    access := fun ⟨_, _, his⟩ => ⟨iff_of_false (fun h => h rfl) fun h => Bool.eq_false_iff.1 hst ((attempting_iff st).2 h),
      fun h => absurd h hidle, fun h => ⟨(his h).1, rfl⟩⟩ }

theorem offerPresence (h : KeepsSound s t) : KeepsSound s (offerPresence t) := by
  unfold Machine.offerPresence
  exact ite (fun _ => h) fun _ =>
    (h.setPeers { t.peers with presence := some (after t Config.presencePeriod) } id fun _ => id).offer 0

/-! ### Wake and the end of a row's step -/

theorem wake (h : KeepsSound s t) : KeepsSound s (wake t) := ite (fun _ => (h.setClock _).offerPresence) fun _ => h

theorem stopDoze (h : KeepsSound s t) : KeepsSound s (stopDoze t) := h.setClock _

theorem settle (h : KeepsSound s t) : KeepsSound s (settle t) := by
  have hwake : KeepsSound s (wakeForCandidate t) := ite (fun _ => h.wake) fun _ => h
  exact ite (fun _ => ite (fun _ => hwake) fun _ => hwake.setClock _) fun _ => hwake.stopDoze

/-! ### Result records, fingerprint store -/

theorem adjustResult (h : KeepsSound s t) (n : Nat) (f : ResultRecord → ResultRecord) : KeepsSound s (adjustResult t n f) :=
  h.setComp _ (Table.wf_adjust n f)

theorem setFp (h : KeepsSound s t) (n : Nat) (st : FpState) : KeepsSound s (setFp t n st) :=
  h.setStore _ fun ⟨hmem, hdir, hfp⟩ => ⟨hmem, hdir, by
    dsimp only
    split
    · exact Table.wf_erase n hfp
    · exact Table.wf_put n st hfp⟩

theorem clearDir (h : KeepsSound s t) (n : Nat) : KeepsSound s (clearDir t n) :=
  h.setStore _ fun ⟨hmem, hdir, hfp⟩ => ⟨hmem, Table.wf_filter _ hdir, hfp⟩

theorem setDir (h : KeepsSound s t) (n : Nat) (r : SpanRecord) : KeepsSound s (setDir t n r) :=
  h.setStore _ fun ⟨hmem, hdir, hfp⟩ => ⟨hmem, Table.wf_putRun _ _ hdir, hfp⟩

theorem copyTrace (h : KeepsSound s t) (n k : Nat) : KeepsSound s (copyTrace t n k) := by
  unfold Machine.copyTrace
  split
  · exact h.setStore _ fun ⟨hmem, hdir, hfp⟩ => ⟨Table.wf_putRun _ _ hmem, hdir, hfp⟩
  · exact h

theorem cutCopy (h : KeepsSound s t) (n : Nat) : KeepsSound s (cutCopy t n) := (h.copyTrace n _).trans {}

/-! ### Requests and alert inputs -/

theorem putSlot (h : KeepsSound s t) (n : Nat) (r : Request) : KeepsSound s (putSlot t n r) :=
  h.setSlots _ (Table.wf_put n r)

theorem adjustSlot (h : KeepsSound s t) (n : Nat) (f : Request → Request) : KeepsSound s (adjustSlot t n f) :=
  h.setSlots _ (Table.wf_adjust n f)

theorem emptySlotOf (h : KeepsSound s t) (n : Nat) : KeepsSound s (emptySlotOf t n) := h.setSlots _ (Table.wf_erase n)

theorem meet (h : KeepsSound s t) (n : Nat) (old : Request) (new : Raised) : KeepsSound s (meet t n old new) := by
  unfold Machine.meet
  split
  · exact h
  · exact h.putSlot ..
  · exact h.putSlot ..
  · exact (h.putSlot ..).post _
  · exact h.putSlot ..

theorem opened_wf_iff (r : OpenRound) : (CorrRecord.opened r).tablesSound = true ↔ Table.wf r.joined ∧ Table.wf r.outstanding := by
  simp [CorrRecord.tablesSound]

theorem dropOutstanding (h : KeepsSound s t) (n : Nat) (target round : Option Nat) :
    KeepsSound s (dropOutstanding t n target round) := by
  unfold Machine.dropOutstanding
  split
  · refine h.adjustCorr _ _ fun c hc => ?_
    split
    · next r =>
      split
      · obtain ⟨hj, ho⟩ := (opened_wf_iff r).1 hc
        exact (opened_wf_iff _).2 ⟨hj, Table.wf_erase n ho⟩
      · exact hc
    · exact hc
  · exact h

theorem raise (h : KeepsSound s t) (n : Nat) (new : Raised) : KeepsSound s (raise t n new) := by
  refine ite (fun _ => ite (fun _ => h.dropOutstanding ..) fun _ => h) fun _ => ?_
  split
  · exact h.putSlot ..
  · exact h.meet ..

theorem levelTest (h : KeepsSound s t) (n : Nat) : KeepsSound s (levelTest t n) := ite (fun _ => h.raise ..) fun _ => h

theorem clearLatch (h : KeepsSound s t) (n : Nat) : KeepsSound s (clearLatch t n) := h.setTimers _ id

theorem sweepOver (h : KeepsSound s t) (c : Ctx) : KeepsSound s (sweepOver t c) := by
  have hlatch : KeepsSound s (if c.answersLatch then Machine.clearLatch t c.span else t) :=
    ite (fun _ => h.clearLatch _) fun _ => h
  exact ite (fun _ => hlatch.setTimers _ fun h => Table.wf_put _ _ h) fun _ => hlatch

/-! ### Claims -/

theorem setClaim (h : KeepsSound s t) (g : Nat) (st : ClaimState) : KeepsSound s (setClaim t g st) :=
  h.setClaims _ (Table.wf_adjust g _)

theorem setStale (h : KeepsSound s t) (g : Nat) (m : Option (StaleMark × Nat)) : KeepsSound s (setStale t g m) :=
  h.setClaims _ (Table.wf_adjust g _)

theorem askClaim (h : KeepsSound s t) (g l : Nat) : KeepsSound s (askClaim t g l) := by
  unfold Machine.askClaim
  split
  · exact ((h.askRemove _).setClaim ..).offer l
  · exact h

theorem releaseClaim (h : KeepsSound s t) (g : Nat) : KeepsSound s (releaseClaim t g) := by
  unfold Machine.releaseClaim
  split
  · exact (h.setClaim ..).offer _
  · exact h

theorem giveUpClaim (h : KeepsSound s t) (g : Nat) : KeepsSound s (giveUpClaim t g) := by
  unfold Machine.giveUpClaim
  split
  · exact (h.setClaim ..).offer _
  · have hfree := (h.askRemove (isClaimOrHold g)).setClaim g .free
    exact ite (fun _ => hfree.setStale ..) fun _ => hfree
  · exact h

theorem withdrawClaim (h : KeepsSound s t) (g x l a : Nat) : KeepsSound s (withdrawClaim t g x l a) := by
  unfold Machine.withdrawClaim
  split
  · exact ((h.setClaim ..).askRemove _).setStale ..
  · exact h

theorem loseOpen (h : KeepsSound s t) (g x l a : Nat) : KeepsSound s (loseOpen t g x l a) := (h.setClaim ..).askRemove _

theorem claimTransmitted (h : KeepsSound s t) (g : Nat) : KeepsSound s (claimTransmitted t g) := by
  unfold Machine.claimTransmitted
  split
  · exact h.setStale ..
  · exact h.setStale ..
  · exact h.setStale ..
  · exact (h.setStale ..).offer _
  · exact h.setClaim ..
  · exact h

/-! ### Rounds -/

/-- A record with canonical tables takes the place of the group's record. -/
theorem putRound (h : KeepsSound s t) {k : Nat} {c : CorrRecord} (hk : t.corr.has k = true)
    (hc : (∀ e ∈ t.corr, e.2.tablesSound = true) → c.tablesSound = true) : KeepsSound s (putRound t k c) :=
  h.setCorr _ (Table.wf_put k c) (fun hin => Table.forall_mem_put hin (hc hin)) (fun hwf => Table.length_put_of_has c hwf hk)
    fun _ hj => (Table.has_put ..).2 (.inr hj)

theorem offerFinding (h : KeepsSound s t) {k : Nat} (hk : t.corr.has k = true) (rep : Report) :
    KeepsSound s (offerFinding t k rep) :=
  h.offer _ fun g hg => by
    obtain rfl : k = g := by simpa [findingGroup] using hg
    exact hk

theorem openRound_wf {k : Nat} {r : OpenRound} (h : t.corr.find k = some (.opened r))
    (hin : ∀ e ∈ t.corr, e.2.tablesSound = true) : Table.wf r.joined ∧ Table.wf r.outstanding :=
  (opened_wf_iff r).1 (hin _ (Table.mem_of_find h))

theorem issueVerdict (h : KeepsSound s t) {k : Nat} (hk : t.corr.has k = true) (r : OpenRound)
    (hr : (∀ e ∈ t.corr, e.2.tablesSound = true) → Table.wf r.joined) (timedOut : Bool) :
    KeepsSound s (issueVerdict t k r timedOut) :=
  (h.post _).putRound (by simpa using hk) fun hin => by simpa [CorrRecord.tablesSound] using hr (by simpa using hin)

theorem completionCheck (h : KeepsSound s t) (k : Nat) : KeepsSound s (completionCheck t k) := by
  unfold Machine.completionCheck
  split
  · next hr => exact ite (fun _ => h.issueVerdict (Table.has_of_find hr) _ (fun hin => (openRound_wf hr hin).1) _) fun _ => h
  all_goals exact h

theorem makeReport (h : KeepsSound s t) {k : Nat} (hk : t.corr.has k = true) (r : OpenRound)
    (hr : (∀ e ∈ t.corr, e.2.tablesSound = true) → Table.wf r.joined ∧ Table.wf r.outstanding) :
    KeepsSound s (makeReport t k r) := by
  refine ((h.offerFinding hk _).putRound (by simpa [Machine.offerFinding] using hk) fun hin => ?_).completionCheck k
  obtain ⟨hj, ho⟩ := hr (by simpa [Machine.offerFinding] using hin)
  exact (opened_wf_iff _).2 ⟨Table.wf_put _ _ hj, ho⟩

theorem decideSpan (h : KeepsSound s t) (n : Nat) (target round : Option Nat) (found : Option (List Best)) :
    KeepsSound s (decideSpan t n target round found) := by
  unfold Machine.decideSpan
  split
  · split
    · next r hr =>
      have hdecided : (∀ e ∈ t.corr, e.2.tablesSound = true) → Table.wf (decided r n found).joined ∧ Table.wf (decided r n found).outstanding :=
        fun hin => ⟨(openRound_wf hr hin).1, Table.wf_erase n (openRound_wf hr hin).2⟩
      exact ite (fun _ => ite (fun _ => h.makeReport (Table.has_of_find hr) _ hdecided)
        fun _ => h.putRound (Table.has_of_find hr) fun hin => (opened_wf_iff _).2 (hdecided hin)) fun _ => h
    all_goals exact h
  · exact h

theorem unableRound (h : KeepsSound s t) (k : Nat) : KeepsSound s (unableRound t k) := by
  unfold Machine.unableRound
  split
  · next r hr =>
    exact ite (fun _ => h) fun _ => h.makeReport (Table.has_of_find hr) _ fun hin => ⟨(openRound_wf hr hin).1, Table.wf_nil⟩
  all_goals exact h

theorem unableBegins (h : KeepsSound s t) : KeepsSound s (unableBegins t) := foldl (fun _ k h => h.unableRound k) _ h

theorem ownConfirm (h : KeepsSound s t) (k d own : Nat) (e : Nat × SpanRecord) : KeepsSound s (ownConfirm k d own t e) :=
  ite (fun _ => h.raise ..) fun _ => h

theorem openOwnRound (h : KeepsSound s t) {k : Nat} (hk : t.corr.has k = true) (n : Nat) (kind : ReportKind) (d : Nat) :
    KeepsSound s (openOwnRound t k n kind d) := by
  refine KeepsSound.completionCheck (foldl (fun _ e h => h.ownConfirm k d n e) _ ((h.stopDoze.putRound hk fun _ => ?_).offerFinding ?_ _)) k
  · exact (opened_wf_iff _).2 ⟨List.pairwise_singleton .., Table.wf_nil⟩
  · exact (Table.has_put ..).2 (.inl rfl)

theorem enterSpan (h : KeepsSound s t) (k n b : Nat) : KeepsSound s (enterSpan t k n b) :=
  h.adjustCorr _ _ fun c hc => by
    split
    · next r =>
      obtain ⟨hj, ho⟩ := (opened_wf_iff r).1 hc
      exact (opened_wf_iff _).2 ⟨hj, Table.wf_put _ _ ho⟩
    · exact hc

theorem heardConfirm (h : KeepsSound s t) (k d : Nat) (e : Nat × SpanRecord) : KeepsSound s (heardConfirm k d t e) :=
  ite (fun _ => (h.enterSpan ..).raise ..) fun _ => h

theorem reportIfDecided (h : KeepsSound s t) (k : Nat) : KeepsSound s (reportIfDecided t k) := by
  unfold Machine.reportIfDecided
  split
  · next r hr =>
    exact ite (fun _ => h.makeReport (Table.has_of_find hr) r (openRound_wf hr)) fun _ => h.completionCheck k
  all_goals exact h

theorem openHeardRound (h : KeepsSound s t) {k : Nat} (hk : t.corr.has k = true) (x : Nat) (kind : ReportKind) (d : Nat) :
    KeepsSound s (openHeardRound t k x kind d) := by
  have hopen := (h.stopDoze.putRound (c := .opened
    { openKind := kind, openDist := d, openedAt := t.clock.tod, joined := [(x, ⟨kind, some d⟩)], outstanding := [],
      best := none, seen := false, reported := false,
      expiry := after t (t.cfg.block.roundTimeout * 1000), allOut := !unableToSweep t }) hk
    fun _ => (opened_wf_iff _).2 ⟨List.pairwise_singleton .., Table.wf_nil⟩).wake
  exact ite (fun _ => hopen.reportIfDecided k)
    fun _ => KeepsSound.reportIfDecided (foldl (fun _ e h => h.heardConfirm k d e) _ hopen) k

theorem takeFinding (h : KeepsSound s t) (x k : Nat) (rep : Report) : KeepsSound s (takeFinding t x k rep) := by
  unfold Machine.takeFinding
  split
  · next hr =>
    split
    · exact h.openHeardRound (Table.has_of_find hr) ..
    · exact h
  · next r hr =>
    exact (h.putRound (c := .opened { r with joined := r.joined.put x rep }) (Table.has_of_find hr) fun hin =>
      (opened_wf_iff _).2 ⟨Table.wf_put _ _ (openRound_wf hr hin).1, (openRound_wf hr hin).2⟩).completionCheck k
  all_goals exact h

theorem peerChangeRound (h : KeepsSound s t) (added : List Nat) (k : Nat) : KeepsSound s (peerChangeRound added t k) := by
  unfold Machine.peerChangeRound
  split
  · next r hr =>
    refine KeepsSound.completionCheck (ite (fun _ => ?_) fun _ => h) k
    unfold Machine.reOffer
    split
    · exact ite (fun _ => h.offerFinding (Table.has_of_find hr) _) fun _ => h
    · exact h
  all_goals exact h

theorem peerTableChange (h : KeepsSound s t) (added : List Nat) : KeepsSound s (peerTableChange t added) :=
  foldl (fun _ k h => h.peerChangeRound added k) _ h

/-! ### Sweeps -/

theorem sendSwitch (h : KeepsSound s t) (p : Nat) : KeepsSound s (sendSwitch t p) := by
  unfold Machine.sendSwitch
  split
  · exact ite (fun _ => h) fun _ => h.trans {}
  · exact ite (fun _ => h) fun _ => h.trans {}
  · exact h.trans {}

theorem checkPrepared (h : KeepsSound s t) : KeepsSound s (checkPrepared t) := by
  unfold Machine.checkPrepared
  split
  · exact ite (fun _ => ite (fun _ => h.trans {}) fun _ => h.trans {}) fun _ => h
  · exact h

theorem takeSlot (h : KeepsSound s t) (n : Nat) : KeepsSound s (takeSlot t n) := by
  unfold Machine.takeSlot
  split
  · next r rec _ _ =>
    have hslots := h.setSlots { t.sched with slots := t.sched.slots.erase n, selection := none } (Table.wf_erase n)
    have hacc := hslots.setAcc (t.acc.claim (acquiredBins rec.len (newCtx t n r rec).window).1
      (acquiredBins rec.len (newCtx t n r rec).window).2)
      fun ha => Acc.sound_adjust _ ha fun _ _ => AccSlot.sumsBounded_clear _
    exact hacc.trans {}
  · exact h

theorem claimOpened (h : KeepsSound s t) (g : Nat) : KeepsSound s (claimOpened t g) := by
  unfold Machine.claimOpened
  split
  · exact ite (fun _ => (h.takeSlot _).checkPrepared) fun _ => h
  · split
    · exact ite (fun _ => (h.setSlots { t.sched with selection := none } id).checkPrepared) fun _ => h
    · exact h
  · exact h

theorem setAside (h : KeepsSound s t) : KeepsSound s { t with acc := t.acc.setAside } :=
  h.setAcc _ fun ha => Acc.sound_adjust t.acc.active ha fun _ h => h

theorem giveBack (h : KeepsSound s t) : KeepsSound s (giveBack t) := by
  unfold Machine.giveBack
  split
  · exact (h.adjustSlot _ fun r => { r with selected := false }).trans {}
  · exact h.setAside.trans {}
  · exact h

theorem seekClaim (h : KeepsSound s t) (g l : Nat) : KeepsSound s (seekClaim t g l) :=
  ite (fun _ => (h.askClaim ..).giveBack) fun _ => h.askClaim ..

theorem beginSlot (h : KeepsSound s t) (n l : Nat) : KeepsSound s (beginSlot t n l) := by
  have hsel := (h.stopDoze.adjustSlot n fun r => { r with selected := true }).trans
    (u := { Machine.adjustSlot (Machine.stopDoze t) n fun r => { r with selected := true } with
      sched := { (Machine.adjustSlot (Machine.stopDoze t) n fun r => { r with selected := true }).sched with selection := some (.slot n) }
      engine := { (Machine.adjustSlot (Machine.stopDoze t) n fun r => { r with selected := true }).engine with state := .preparing } }) {}
  exact ite (fun _ => ((hsel.sendSwitch n).takeSlot n).checkPrepared) fun _ => (hsel.sendSwitch n).seekClaim ..

theorem beginResume (h : KeepsSound s t) (c : Ctx) : KeepsSound s (beginResume t c) := by
  have hback := (h.stopDoze.setAcc t.acc.bringBack fun ha => Acc.sound_adjust t.acc.saved ha fun _ h => h).trans
    (u := { Machine.stopDoze t with
      sched := { t.sched with
        save := none, selection := some .save, resumeExpiry := none
        resumeLeft := (t.sched.resumeExpiry.getD t.clock.now) - t.clock.now }
      engine := { t.engine with
        state := .preparing
        ctx := some { c with resumed := true, phase := .preparing, answersLatch := c.answersLatch || latchSet t c.span } }
      acc := t.acc.bringBack }) {}
  have hsent := hback.sendSwitch c.span
  exact ite (fun _ => KeepsSound.checkPrepared (hsent.trans {})) fun _ => hsent.seekClaim ..

theorem select (h : KeepsSound s t) : KeepsSound s (select t) := by
  refine ite (fun _ => h) fun _ => ?_
  split
  · exact ite (fun _ => h.beginResume _) fun _ => h.beginSlot ..
  · exact h.beginResume _
  · exact h.beginSlot ..
  · exact h

theorem settleSelect (h : KeepsSound s t) : KeepsSound s (settleSelect t) := h.select.settle

theorem confirmReport (h : KeepsSound s t) (c : Ctx) (w : Option Comparison) : KeepsSound s (confirmReport t c w) := by
  refine ite (fun _ => ?_) fun _ => h
  split
  · exact h.decideSpan ..
  · exact h

theorem findingDecision (h : KeepsSound s t) (c : Ctx) (o : SweepOutcome) (w : Option Comparison) :
    KeepsSound s (findingDecision t c o w) := by
  unfold Machine.findingDecision
  split
  · refine ite (fun hcond => ?_) fun _ => h
    obtain ⟨_, _, _, hidle⟩ := hcond
    split
    · exact h.openOwnRound (Table.has_of_find (of_decide_eq_true hidle)) ..
    · exact h
  · exact h

theorem clearEngine (h : KeepsSound s t) : KeepsSound s (clearEngine t) :=
  (h.setAcc t.acc.release fun ha => Acc.sound_adjust t.acc.active ha fun _ h => h).trans {}

theorem endSweep (h : KeepsSound s t) (o : SweepOutcome) (pre : List NoticeBody) : KeepsSound s (endSweep t o pre) := by
  unfold Machine.endSweep
  split
  · exact (((((h.adjustResult ..).postAll _).confirmReport ..).findingDecision ..).sweepOver _).clearEngine
  · exact h

theorem stopWrite (h : KeepsSound s t) (n : Nat) : KeepsSound s (stopWrite t n) :=
  ite (fun _ => (h.cutCopy n).setFp ..) fun _ => h

theorem abort (h : KeepsSound s t) (o : SweepOutcome) (pre : List NoticeBody) : KeepsSound s (abort t o pre) := by
  unfold Machine.abort
  split
  · next c _ =>
    have hdrop : KeepsSound s (dropClaim t c.span) := ite (fun _ => h.giveUpClaim _) fun _ => h.releaseClaim _
    exact ((hdrop.stopWrite c.span).trans (u := stopReduction _) {}).endSweep ..
  · exact h

theorem stopSweep (h : KeepsSound s t) (o : SweepOutcome) (pre : List NoticeBody) : KeepsSound s (stopSweep t o pre) := by
  refine ite (fun _ => ?_) fun _ => h.abort ..
  split
  · exact (h.giveUpClaim _).giveBack
  · exact h

theorem suspend (h : KeepsSound s t) : KeepsSound s (suspend t) := by
  unfold Machine.suspend
  split
  · next c _ =>
    have hset := h.setAside.trans (u := { t with
        sched := { t.sched with save := some { c with phase := .full } }
        engine := { t.engine with ctx := none }
        acc := t.acc.setAside }) {}
    exact (hset.releaseClaim (lightGroupOf t c.span)).trans {}
  · exact h

theorem endSuspended (h : KeepsSound s t) (o : SweepOutcome) : KeepsSound s (endSuspended t o) := by
  unfold Machine.endSuspended
  split
  · have hset := (h.setAcc t.acc.discardSaved fun ha => Acc.sound_adjust t.acc.saved ha fun _ _ => AccSlot.sumsBounded_emptySlot).trans
      (u := { t with
        sched := { t.sched with save := none, resumeExpiry := none, resumeLeft := 0 }
        acc := t.acc.discardSaved }) {}
    exact (((hset.adjustResult ..).post _).confirmReport ..).sweepOver _
  · exact h

end KeepsSound
end Sys2Proof.Machine

/-! ## Every row keeps the invariants -/

namespace Sys2Proof

-- The kernel checks the lemmas one after another: many at once take a thread each.
set_option Elab.async false

theorem natOfBits_lt : ∀ bs : List Bool, natOfBits bs < 2 ^ bs.length := by
  have key : ∀ (bs : List Bool) (a n : Nat), a < 2 ^ n → bs.foldl (fun a b => a * 2 + b.toNat) a < 2 ^ (n + bs.length) := by
    intro bs
    induction bs with
    | nil => exact fun a n h => h
    | cons b bs ih =>
      intro a n h
      have hb : b.toNat < 2 := Bool.toNat_lt b
      have hstep : a * 2 + b.toNat < 2 ^ (n + 1) := by rw [Nat.pow_succ]; omega
      rw [List.foldl_cons, List.length_cons, Nat.add_comm bs.length, ← Nat.add_assoc]
      exact ih _ _ hstep
  intro bs
  simpa [natOfBits] using key bs 0 0 (by decide)

/-- What reception takes for a frame has an urgency of 0..3 and a sender of 1..31 (R141). -/
theorem parseFrame_bounds {bits : List Bool} {f : Frame} (h : parseFrame bits = some f) :
    f.urgency ≤ 3 ∧ 1 ≤ f.sender ∧ f.sender ≤ 31 := by
  unfold parseFrame at h
  dsimp only at h
  repeat' split at h
  all_goals try cases h
  next hsender =>
    obtain ⟨b, _, rfl⟩ := Option.map_eq_some_iff.1 h
    refine ⟨Nat.sub_le .., Nat.one_le_iff_ne_zero.2 hsender, Nat.lt_succ_iff.1 ((natOfBits_lt _).trans_le ?_)⟩
    exact Nat.pow_le_pow_right (by decide) (List.length_take_le ..)

namespace Machine

/-- The station after a reset is one closed value: each invariant is a finite check on it. -/
theorem reset_sound : State.reset.store.sound ∧ State.reset.tablesSound ∧ State.reset.notices.sound ∧ State.reset.peersSound ∧
    State.reset.line.queueSound ∧ State.reset.clockSound ∧ State.reset.acc.sound ∧ State.reset.engineSound ∧
    State.reset.firingSound ∧ State.reset.pagesSound ∧ State.reset.queueBounded ∧ State.reset.line.agesSound ∧
    State.reset.lineSound :=
  ⟨by decide, by decide, by decide, by decide, by decide, by decide, by decide, by decide, by decide, by decide, by decide,
    by decide, by decide⟩

namespace KeepsSound

variable {s t : State}

/-! ### Resets, START -/

theorem resetValues (s : State) (straps : BitVec 5) : KeepsSound s (resetValues straps s) := by
  obtain ⟨hstore, htables, hnotices, hpeers, hqueue, hclock, hacc, _, _, _, hbounded, hages, haccess⟩ := reset_sound
  exact { store := fun _ => hstore, tables := fun _ => htables, notices := fun _ => hnotices, queue := fun _ => hqueue
          bounded := fun _ _ => hbounded, ages := fun _ => hages, access := fun _ => haccess, clock := fun _ => hclock
          acc := fun _ => hacc
          peers := fun _ => ⟨Nat.zero_le _, fun _ h => (nomatch h), fun _ h => nomatch h⟩ }

theorem warmValues (s : State) (straps : BitVec 5) : KeepsSound s (warmValues straps s) := by
  have hdir : Table.wf s.store.dir → Table.wf (stoppedStore s).dir := by
    intro h
    unfold stoppedStore
    repeat' split
    · simpa [Machine.cutCopy, Machine.copyTrace] using by split <;> exact h
    all_goals exact h
  have hreset := KeepsSound.resetValues s straps
  exact { tables := hreset.tables, notices := hreset.notices, queue := hreset.queue, bounded := hreset.bounded
          ages := hreset.ages, access := hreset.access, clock := hreset.clock, acc := hreset.acc, peers := hreset.peers
          store := fun ⟨hm, hd, _⟩ => ⟨warmValues_mem_wf s straps hm, hdir hd, Table.wf_nil⟩ }

end KeepsSound

theorem reconcileSpan_keepsSound (t : State) (e : Nat × SpanRecord) : KeepsSound t (reconcileSpan t e) :=
  .ite (fun _ => (KeepsSound.refl t).setFp ..) fun _ => (KeepsSound.refl t).clearDir _

/-- The reconciliation changes the store alone. -/
theorem reconcile_eq (s : State) : reconcile s = { s with store := (reconcile s).store } := by
  have h : ∀ (l : Table SpanRecord) (t : State), l.foldl reconcileSpan t = { t with store := (l.foldl reconcileSpan t).store } := by
    intro l
    induction l with
    | nil => exact fun _ => rfl
    | cons e l ih =>
      intro t
      have he : reconcileSpan t e = { t with store := (reconcileSpan t e).store } := by
        unfold reconcileSpan; split <;> rfl
      rw [List.foldl_cons, ih (reconcileSpan t e), he]
  exact h (enabledSpans s) _

theorem reconcile_store_sound (s : State) (h : s.store.sound) : (reconcile s).store.sound := by
  have hbase : KeepsSound s { s with store := { s.store with
      dir := s.store.dir.filter fun e => entryStands s e.1 e.2, fp := [] } } :=
    (KeepsSound.refl s).setStore _ fun ⟨hm, hd, _⟩ => ⟨hm, Table.wf_filter _ hd, Table.wf_nil⟩
  exact (KeepsSound.foldl (fun t e h => h.trans (reconcileSpan_keepsSound t e)) (enabledSpans s) hbase).store h

/-- The station as START has it before the first PRESENCE is offered. -/
def startBase (s : State) (tod : Nat) : State :=
  let b := createRecords (startClock (reconcile (lockConfig s)) tod)
  { b with
    port := { b.port with station := .learning }
    peers := ⟨[], none, some (after b Config.learningTime)⟩
    line := { b.line with
      state := .busy, queue := [], attempt := none, attemptDropped := false, driving := [], inbox := [] } }

theorem started_eq (s : State) (tod : Nat) : started s tod = accept (watchAlerts (offerPresence (startBase s tod))) := rfl

/-- The fields of the station before the first PRESENCE, the store aside. -/
theorem startBase_eq (s : State) (tod : Nat) : startBase s tod =
    { s with
      port := { s.port with station := .learning }
      cfg := ⟨s.port.stagedSpans, s.port.stagedStation, groupsOf (·.lightGroup) (stagedEnabled s),
        groupsOf (·.sheathGroup) (stagedEnabled s)⟩
      clock :=
        { state := .locking, now := 0, tod := tod, spacing := binSpacing s.port.stagedStation
          phase := phaseAt s.port.stagedStation tod, mask := maskOf s.port.stagedStation (phaseAt s.port.stagedStation tod)
          countdowns := ((stagedEnabled s).filter fun e => decide (1 ≤ e.2.cycle)).map fun e => (e.1, e.2.cycle)
          lockExpiry := some Config.lockTime, dozeExpiry := none }
      sched := ⟨[], [], none, none, 0, none⟩
      comp := ⟨(stagedEnabled s).map fun e => (e.1, ⟨none, none, 0, none⟩), none⟩
      claims := (groupsOf (·.lightGroup) (stagedEnabled s)).map fun g => (g, ⟨.free, none⟩)
      corr := (groupsOf (·.sheathGroup) (stagedEnabled s)).map fun h => (h, .idle)
      peers := ⟨[], none, some Config.learningTime⟩
      line := { s.line with
        state := .busy, queue := [], attempt := none, attemptDropped := false, driving := [], inbox := [] }
      store := (reconcile (lockConfig s)).store } := by
  rw [startBase, reconcile_eq]
  simp only [createRecords, startClock, after, lockConfig, countdownsOf, enabledSpans, stagedEnabled, Nat.zero_add]

theorem KeepsSound.startBase {s : State} {tod : Nat} (hf : startFault s tod = none) : KeepsSound s (startBase s tod) := by
  obtain ⟨hstation, _, _, hsheath, _⟩ := (startFault_eq_none s tod).1 hf
  obtain ⟨_, _, _, _, _, _, _, _, hfloor, htod, _⟩ := hstation
  rw [startBase_eq]
  have henabled : Table.wf s.port.stagedSpans → Table.wf (stagedEnabled s) := Table.wf_filter _
  exact {
    store := reconcile_store_sound (lockConfig s)
    tables := fun ⟨hstaged, _, _, htimers, _⟩ => ⟨hstaged, hstaged,
      Table.wf_map _ (fun _ => rfl) (Table.wf_filter _ (henabled hstaged)), htimers, Table.wf_nil,
      Table.wf_map _ (fun _ => rfl) (henabled hstaged), Table.wf_nil, Table.wf_map_const _ (sorted_ascSet _) _,
      Table.wf_map_const _ (sorted_ascSet _) _, fun e he => by
        obtain ⟨h, _, rfl⟩ := List.mem_map.1 he
        rfl⟩
    queue := fun _ => List.Pairwise.nil
    bounded := fun _ _ => ⟨List.Pairwise.nil, Nat.zero_le _, by rw [List.length_map]; exact hsheath, fun _ h => nomatch h⟩
    ages := fun _ => ⟨List.Pairwise.nil, fun _ h => (nomatch h), fun _ h => nomatch h⟩
    access := fun _ => ⟨by simp, fun _ => rfl, fun h => by simp at h⟩
    peers := fun _ => ⟨Nat.zero_le _, fun _ h => (nomatch h), fun _ h => nomatch h⟩
    clock := fun _ => ⟨Nat.lt_of_le_of_lt htod (by decide), by
      dsimp only; unfold maskOf; split
      · exact Nat.zero_le _
      · exact hfloor.2, hfloor.2⟩ }

namespace KeepsSound

variable {s t : State}

theorem watchAlerts (h : KeepsSound s t) : KeepsSound s (watchAlerts t) :=
  foldl (fun _ e h => h.levelTest e.1) _ (h.setTimers _ fun _ => Table.wf_nil)

theorem started {tod : Nat} (hf : startFault s tod = none) : KeepsSound s (started s tod) :=
  (startBase hf).offerPresence.watchAlerts.accept

/-! ### The host's rows -/

theorem announce (h : KeepsSound s t) : KeepsSound s (announce t) := ite (fun _ => h.wake) fun _ => h.offerPresence

theorem runStation (h : KeepsSound s t) : KeepsSound s (runStation t) := by
  have hst : runTarget t ≠ .isolated := by unfold runTarget; split <;> decide
  exact (h.station hst).announce.settleSelect.accept

theorem haltStation (h : KeepsSound s t) : KeepsSound s (haltStation t) :=
  ((h.station (st := .halted) (by decide)).stopSweep ..).unableBegins.announce.settle.accept

theorem removeRequest (h : KeepsSound s t) (n : Nat) : KeepsSound s (removeRequest t n) := by
  unfold Machine.removeRequest
  split
  · next r _ =>
    have htold : KeepsSound s (tellRemoved (Machine.emptySlotOf t n) n r) := by
      unfold tellRemoved
      split
      · exact (h.emptySlotOf n).post _
      · exact (h.emptySlotOf n).decideSpan ..
      all_goals exact h.emptySlotOf n
    exact ite (fun _ => (htold.giveUpClaim _).trans {}) fun _ => htold
  · exact h

theorem spanOff (h : KeepsSound s t) (n : Nat) : KeepsSound s (spanOff t n) := by
  have hremoved := (h.setSlots { t.sched with off := insertAsc n t.sched.off } id).removeRequest n
  have hrunning : KeepsSound s (stopRunning _ n) := ite (fun _ => hremoved.abort ..) fun _ => hremoved
  have hsuspended : KeepsSound s (stopSuspended _ n) := ite (fun _ => hrunning.endSuspended _) fun _ => hrunning
  exact hsuspended.clearLatch n

theorem execReadNotice (s : State) : ∀ t, execReadNotice s = .next t → KeepsSound s t := by
  rintro t ⟨⟩
  split
  · exact (refl s).refuse _
  · next n rest hfifo =>
    have hpop : KeepsSound s { s with notices := { s.notices with fifo := rest, attention := !rest.isEmpty } } :=
      { notices := fun ⟨hlen, _⟩ => ⟨by rw [hfifo, List.length_cons] at hlen; exact (Nat.le_succ _).trans hlen, rfl⟩ }
    exact hpop.answer ..

theorem openLoad (h : KeepsSound s t) (n : Nat) : KeepsSound s (openLoad t n) := by
  have hwriting := ((h.clearDir n).setFp n .writing).adjustResult n fun r => { r with held := none }
  exact hwriting.trans {}

theorem emptyLoad (h : KeepsSound s t) : KeepsSound s (emptyLoad t) := h.trans {}

/-! ### Clock rows -/

theorem setPhase (h : KeepsSound s t) (p : Phase) : KeepsSound s (setPhase t p) :=
  h.setClock _ (hmask := fun hfloor _ => by
    dsimp only; unfold maskOf; split
    · exact Nat.zero_le _
    · exact hfloor)

theorem openWindow (h : KeepsSound s t) : KeepsSound s (openWindow t) := by
  have hcount := (h.setPhase .inside).setClock
    { (Machine.setPhase t .inside).clock with countdowns := t.clock.countdowns.map (nextCountdown t) }
    (hcount := Table.wf_map _ fun e => by unfold nextCountdown; split <;> rfl)
  exact (foldl (fun _ n h => h.raise n _) _ hcount).wake.stopDoze

theorem closeWindow (h : KeepsSound s t) : KeepsSound s (closeWindow t) :=
  foldl (fun _ n h => h.levelTest n) _
    ((foldl (fun _ n h => (h.emptySlotOf n).adjustResult n _) _ (h.setPhase .outside)).post _)

theorem enterAwake (h : KeepsSound s t) : KeepsSound s (enterAwake t) := by
  have hacc := h.setAcc emptyAcc fun _ => ⟨AccSlot.sumsBounded_emptySlot, AccSlot.sumsBounded_emptySlot⟩
  exact hacc.trans {}

theorem loseSpan (h : KeepsSound s t) (e : Nat × SpanRecord) : KeepsSound s (loseSpan t e) :=
  ite (fun _ => (((h.clearDir _).setFp ..).post _).adjustResult ..) fun _ => h

theorem loseLoad (h : KeepsSound s t) : KeepsSound s (loseLoad t) := by
  unfold Machine.loseLoad
  split
  · split
    · exact ite (fun _ => h) fun _ => ((h.setFp ..).post _).setStore _ id
    · exact h
  · exact h

theorem fallAsleep (h : KeepsSound s t) : KeepsSound s (fallAsleep t) := by
  have hdoze : KeepsSound s (enterDoze t) :=
    (h.setAcc emptyAcc fun _ => ⟨AccSlot.sumsBounded_emptySlot, AccSlot.sumsBounded_emptySlot⟩).trans {}
  have hlost := KeepsSound.loseLoad (foldl (fun _ e h => h.loseSpan e) (enabledSpans t) hdoze)
  exact KeepsSound.offerPresence ((hlost.setStore { (Machine.loseLoad _).store with mem := _ }
    fun ⟨hm, hd, hf⟩ => ⟨Table.wf_filter _ hm, hd, hf⟩).trans (u := losePages _) {})

/-! ### Alert rows -/

theorem edgeAssert (h : KeepsSound s t) (n : Nat) : KeepsSound s (edgeAssert t n) :=
  ite (fun _ => KeepsSound.raise (h.setTimers { t.alerts with latches := insertAsc n t.alerts.latches } id) ..) fun _ => h

theorem execAlertLineAsserted (s : State) (n : Nat) : KeepsSound s (assertLine s n) := (refl s).setTimers _ id

/-! ### Engine rows -/

theorem enter (h : KeepsSound s t) (st : EngineState) : KeepsSound s (enter t st) := h.trans {}

theorem adjustCtx (h : KeepsSound s t) (f : Ctx → Ctx) : KeepsSound s (adjustCtx t f) := h.trans {}

theorem darkShot (h : KeepsSound s t) (c : Ctx) (r : SpanRecord) (xs : List Adc) : KeepsSound s (darkShot t c r xs) := by
  have hdone : ∀ d, KeepsSound s { Machine.adjustCtx (countDark t (shotTotal c r xs)) fun x => { x with darkLevel := some d } with
      engine := { (Machine.adjustCtx (countDark t (shotTotal c r xs)) fun x => { x with darkLevel := some d }).engine with
        darkShots := 0, darkTotal := 0 } } := fun d => h.trans {}
  refine ite (fun _ => h.trans {}) fun _ => ite (fun _ => ?_) fun _ => ite (fun _ => (hdone _).enter _) fun _ => (hdone _).enter _
  exact (((hdone _).releaseClaim _).endSweep ..).settleSelect

theorem enterReducing (h : KeepsSound s t) (c : Ctx) (r : SpanRecord) : KeepsSound s (enterReducing t c r) := h.trans {}

theorem addLit (h : KeepsSound s t) (xs : List Adc) : KeepsSound s (addLit t xs) :=
  (h.setAcc (t.acc.adjust t.acc.active fun sl => sl.addShot xs)
    fun ha => Acc.sound_adjust _ ha fun _ => AccSlot.sumsBounded_addShot xs).trans {}

theorem afterFullShot (h : KeepsSound s t) (c : Ctx) (r : SpanRecord) : KeepsSound s (afterFullShot t c r) :=
  ite (fun _ => (h.releaseClaim _).enterReducing ..) fun _ => ite (fun _ => h.adjustCtx _) fun _ => h

theorem checkDark (h : KeepsSound s t) (c : Ctx) (m : Nat) : KeepsSound s (checkDark t c m) :=
  ite (fun _ => (h.adjustCtx _).abort ..) fun _ => ite (fun _ => (h.adjustCtx _).suspend) fun _ => h.adjustCtx _

theorem reduce (h : KeepsSound s t) (d : TraceDesc) (c : Ctx) (r : SpanRecord) : KeepsSound s (reduce t d c r) := by
  have htrace : KeepsSound s { t with trace := reducedTrace t d c r } := h.trans {}
  exact ite (fun _ => ((htrace.releaseClaim _).endSweep ..).settleSelect) fun _ => htrace

theorem afterComparison (h : KeepsSound s t) (c : Ctx) (w : Option Comparison) : KeepsSound s (afterComparison t c w) := by
  have hw := h.setComp { t.comp with working := w } id
  exact ite (fun _ => (((hw.clearDir _).setFp ..).adjustResult ..).enter _) fun _ => (hw.endSweep ..).settleSelect

theorem escalate (h : KeepsSound s t) : KeepsSound s (escalate t) := by
  have hacc := h.setAcc (t.acc.adjust t.acc.active AccSlot.clear)
    fun ha => Acc.sound_adjust _ ha fun sl _ => sl.sumsBounded_clear
  exact (hacc.setComp { t.comp with working := none } id).trans {}

theorem finishComparison (h : KeepsSound s t) (c : Ctx) (r : SpanRecord) : KeepsSound s (finishComparison t c r) := by
  refine ite (fun _ => ite (fun _ => ite (fun _ => ?_) fun _ => h.escalate) fun _ => h.afterComparison ..) fun _ => h.afterComparison ..
  exact (((h.setComp { t.comp with working := some (compared t c r) } id).releaseClaim _).endSweep ..).settleSelect

theorem faultOnSweep (h : KeepsSound s t) (pre : List NoticeBody) : KeepsSound s (faultOnSweep t pre) :=
  ite (fun _ => (h.postAll pre).stopSweep ..) fun _ => ite (fun _ => h.abort ..) fun _ => h.postAll pre

theorem takeFault (h : KeepsSound s t) (code : LaserCode) : KeepsSound s (takeFault t code) := by
  unfold Machine.takeFault
  dsimp only
  split
  · exact KeepsSound.faultOnSweep (h.trans {}) _
  · exact (KeepsSound.faultOnSweep (h.trans {}) _).unableBegins

/-! ### Deliveries -/

theorem popInbox (h : KeepsSound s t) : KeepsSound s (popInbox t) :=
  h.trans { peers := fun ⟨hlen, hinbox, hother⟩ => ⟨by
              simp only [Machine.popInbox, List.length_drop]; omega, fun f hf => hinbox f (List.mem_of_mem_drop hf), hother⟩ }

theorem deliver (h : KeepsSound s t) (f : RxFrame) : KeepsSound s (deliver t f) :=
  h.popInbox.setPeers _ (Table.wf_adjust f.sender _) fun x hx => by rwa [Table.keys_adjust] at hx

/-- The oldest frame of the inbox is another station's, so its sender may have an entry (R141, R148). -/
theorem putPeer {f : RxFrame} {rest : List RxFrame} (hf : s.line.inbox = f :: rest) (p : Peer) :
    KeepsSound s (putPeer (Machine.popInbox s) f.sender p) :=
  { tables := fun ⟨hstaged, hspans, hcount, htimers, hslots, hresults, hpeers, hrest⟩ =>
      ⟨hstaged, hspans, hcount, htimers, hslots, hresults, Table.wf_put _ _ hpeers, hrest⟩
    peers := fun ⟨hlen, hinbox, hother⟩ => by
      have hpop := (refl s).popInbox.peers ⟨hlen, hinbox, hother⟩
      refine ⟨hpop.1, hpop.2.1, fun x hx => ?_⟩
      rcases (Table.mem_keys_put ..).1 hx with rfl | hx
      · exact hinbox f (by rw [hf]; exact List.mem_cons_self ..)
      · exact hother x hx }

theorem takePresence {x : Nat} {p : Peer} (h : KeepsSound s (Machine.putPeer t x p)) : KeepsSound s (takePresence t x p) := by
  unfold Machine.takePresence
  split
  · exact (h.post _).peerTableChange _
  · exact ite (fun _ => h.postAll _) fun _ => (h.postAll _).peerTableChange _

theorem endLastShot (h : KeepsSound s t) : KeepsSound s (endLastShot t) := by
  unfold Machine.endLastShot
  split
  · exact ite (fun _ => KeepsSound.trans (ite (fun _ => h.addLit _) fun _ => h) {}) fun _ => h
  · exact h

theorem withdraw (h : KeepsSound s t) (g x l a : Nat) : KeepsSound s (withdraw t g x l a) :=
  (h.withdrawClaim ..).giveBack.settleSelect

theorem takeClaim (h : KeepsSound s t) (g x l a : Nat) : KeepsSound s (takeClaim t g x l a) := by
  unfold Machine.takeClaim
  split
  · split
    · exact (h.setClaim ..).settle
    · exact (h.setClaim ..).settle
    · exact ite (fun _ => h.withdraw ..) fun _ => h.offer _
    · exact h.offer _
  · exact h

theorem takeHold (h : KeepsSound s t) (g x l a : Nat) : KeepsSound s (takeHold t g x l a) := by
  unfold Machine.takeHold
  split
  · split
    · exact (h.setClaim ..).settle
    · exact (h.setClaim ..).settle
    · exact h.withdraw ..
    · exact ite (fun _ => ((h.endLastShot.loseOpen ..).abort ..).settleSelect) fun _ => h.offer _
  · exact h

theorem takeRelease (h : KeepsSound s t) (g x : Nat) : KeepsSound s (takeRelease t g x) := by
  unfold Machine.takeRelease
  split
  · split
    · exact ite (fun _ => (h.setClaim ..).settleSelect) fun _ => h
    all_goals exact h
  · exact h

/-! ### Line rows -/

theorem idleGap (h : s.line.state = .gap ∨ s.line.state = .busy) : KeepsSound s (Machine.startAttempt (Machine.setLine s .idle)) where
  toKeepsParts := KeepsParts.trans {} (startAttempt_parts _)
  access := fun ⟨ha, _, his⟩ => by
    have hnone : s.line.attempt = none := by
      by_contra hne
      rcases ha.1 hne with h' | h' <;> rw [h'] at h <;> simp at h
    refine startAttempt_access (iff_of_false (fun h => h hnone) (by simp [Machine.setLine])) (fun _ hno => ?_) his
    have hst : s.line.state ≠ .passive := by rcases h with h | h <;> rw [h] <;> decide
    have hiso : s.port.station = .isolated := by
      by_contra hne
      simp [canSend, Machine.setLine, hne] at hno
    exact (his hiso).1

theorem loseArbitration {f : TxFrame} (hf : s.line.attempt = some f) : KeepsSound s (loseArbitration s f) := by
  have hend := (refl s).endAttempt .busy rfl (by decide)
  refine ite (fun _ => ?_) fun _ => ?_
  · unfold clearStaleOf
    split
    · exact hend.setStale ..
    all_goals exact hend
  · have hmem : f ∈ s.line.queue ++ s.line.attempt.toList := List.mem_append_right _ (by simp [hf])
    exact {
      queue := noTwoSame_queueReturn f
      bounded := fun _ ⟨hq, hclaims, hcorr, hfind⟩ => ⟨noTwoSame_queueReturn f hq, claimFrames_queueReturn f hclaims, hcorr, by
        simp only [Machine.endAttempt, Option.toList_none, List.append_nil]
        exact forall_mem_queueReturn (P := fun x => ∀ g ∈ findingGroup x.body, s.corr.has g = true)
          (fun x hx => hfind x (List.mem_append_left _ hx)) (hfind f hmem)⟩
      ages := fun ⟨hpair, hnext, hattempt⟩ => ⟨inAgeOrder_queueReturn hpair fun x hx => hattempt f (by simp [hf]) x hx, by
        simp only [Machine.endAttempt, Option.toList_none, List.append_nil]
        exact forall_mem_queueReturn (fun x hx => hnext x (List.mem_append_left _ hx)) (hnext f hmem),
        fun a ha => by simp [Machine.endAttempt] at ha⟩
      access := fun ⟨_, _, his⟩ => ⟨by simp [Machine.endAttempt], fun h => by simp [Machine.endAttempt] at h,
        fun h => absurd ((his h).2.symm.trans hf) (by simp)⟩ }

theorem isolate (s : State) : KeepsSound s (isolate s) where
  tables := fun ⟨hstaged, hspans, hcount, htimers, hslots, hresults, hpeers, hclaims, hrest⟩ =>
    ⟨hstaged, hspans, hcount, htimers, hslots, hresults, hpeers, Table.wf_map _ (fun _ => rfl) hclaims, hrest⟩
  queue := fun _ => List.Pairwise.nil
  bounded := fun _ ⟨_, _, hcorr, _⟩ => ⟨List.Pairwise.nil, Nat.zero_le _, hcorr, fun _ h => nomatch h⟩
  ages := fun _ => ⟨List.Pairwise.nil, fun _ h => (nomatch h), fun _ h => nomatch h⟩
  access := fun _ => by
    refine ⟨iff_of_false (fun h => h rfl) ?_, fun _ => rfl, fun _ => ⟨rfl, rfl⟩⟩
    show ¬ (stopDriving s.line.state = .arbitrating ∨ stopDriving s.line.state = .sending)
    cases s.line.state <;> simp [stopDriving]

theorem detectDup (s : State) (cause : DupCause) : KeepsSound s (detectDup s cause) :=
  ((((isolate s).post _).stopSweep ..).wake.unableBegins).settle

theorem takeFrame (h : KeepsSound s t) {f : Frame} (hf : 1 ≤ f.sender ∧ f.sender ≤ 31) : KeepsSound s (takeFrame t f) := by
  refine ite (fun _ => ite (fun _ => h.trans (detectDup t _)) fun _ => h) fun hne => ite (fun hlen => ?_) fun _ => h.trans {}
  exact h.trans { peers := fun ⟨_, hinbox, hother⟩ => by
                    refine ⟨by simp only [List.length_append, List.length_singleton]; omega, fun x hx => ?_, hother⟩
                    rcases List.mem_append.1 hx with hx | hx
                    · exact hinbox x hx
                    · obtain rfl := List.mem_singleton.1 hx
                      simp [isOther, hf, hne] }

end KeepsSound

/-! ### Every row, every step -/

/-- Every next state that a row answers keeps the invariants. -/
def RowKeeps (s : State) (r : Result) : Prop := ∀ t, r = .next t → KeepsSound s t

namespace RowKeeps

theorem next {s t : State} (h : KeepsSound s t) : RowKeeps s (.next t) := by
  rintro _ ⟨⟩
  exact h

variable (s : State)

theorem coldReset (x) : RowKeeps s (exec (.coldReset x) s) := by
  have hs := KeepsSound.refl s
  refine .next ?_
  exact .resetValues s x

theorem warmReset (x) : RowKeeps s (exec (.warmReset x) s) := by
  have hs := KeepsSound.refl s
  refine .next ?_
  exact .warmValues s x

theorem configWriteSpan (n r) : RowKeeps s (exec (.configWriteSpan n r) s) := by
  have hs := KeepsSound.refl s
  refine .next ?_
  refine .ite (fun _ => hs.refuse _) fun _ => .ite (fun _ => hs.refuse _) fun _ => KeepsSound.accept (hs.trans ?_)
  exact { tables := fun ⟨hstaged, hrest⟩ => ⟨Table.wf_put n r hstaged, hrest⟩ }

theorem configWriteStation (b) : RowKeeps s (exec (.configWriteStation b) s) := by
  have hs := KeepsSound.refl s
  refine .next ?_
  exact .ite (fun _ => hs.refuse _) fun _ => KeepsSound.accept (hs.trans {})

theorem start (tod) : RowKeeps s (exec (.start tod) s) := by
  have hs := KeepsSound.refl s
  refine .next ?_
  refine .ite (fun _ => hs.refuse _) fun _ => ?_
  split
  · exact hs.answer ..
  · exact .started ‹_›

theorem run : RowKeeps s (exec .run s) := by
  have hs := KeepsSound.refl s
  refine .next ?_
  exact .ite (fun _ => hs.refuse _) fun _ => .ite (fun _ => hs.runStation) fun _ => hs.accept

theorem halt : RowKeeps s (exec .halt s) := by
  have hs := KeepsSound.refl s
  refine .next ?_
  exact .ite (fun _ => hs.refuse _) fun _ => .ite (fun _ => hs.accept) fun _ => hs.haltStation

theorem readStatus : RowKeeps s (exec .readStatus s) := by
  have hs := KeepsSound.refl s
  refine .next ?_
  exact (hs.answer .accepted (statusBody s)).trans {}

theorem readNotice : RowKeeps s (exec .readNotice s) := KeepsSound.execReadNotice s

theorem readResult (n) : RowKeeps s (exec (.readResult n) s) := by
  have hs := KeepsSound.refl s
  refine .next ?_
  refine .ite (fun _ => hs.refuse _) fun _ => ?_
  split
  · exact hs.answer ..
  · exact hs.refuse _

theorem readTrace (q) : RowKeeps s (exec (.readTrace q) s) := by
  have hs := KeepsSound.refl s
  refine .next ?_
  refine .ite (fun _ => hs.refuse _) fun _ => .ite (fun _ => .ite (fun _ => hs.refuse _) fun _ => ?_) fun _ => ?_
  · split
    · exact .ite (fun _ => hs.answer ..) fun _ => hs.refuse _
    · exact hs.refuse _
  · unfold readFingerprint
    split
    · exact hs.refuse _
    · exact .ite (fun _ => hs.answer ..) fun _ => hs.refuse _
    all_goals exact hs.refuse _

theorem sweep (n k l) : RowKeeps s (exec (.sweep n k l) s) := by
  have hs := KeepsSound.refl s
  refine .next ?_
  refine .ite (fun _ => hs.refuse _) fun _ => .ite (fun _ => hs.refuse _) fun _ => ?_
  split
  · exact hs.refuse _
  · exact .ite (fun _ => hs.refuse _) fun _ => .ite (fun _ => hs.refuse _) fun _ => (hs.raise ..).settleSelect.accept

theorem spanOff (n) : RowKeeps s (exec (.spanOff n) s) := by
  have hs := KeepsSound.refl s
  refine .next ?_
  split
  · exact hs.refuse _
  · exact .ite (fun _ => hs.accept) fun _ => (hs.spanOff n).settleSelect.accept

theorem spanOn (n) : RowKeeps s (exec (.spanOn n) s) := by
  have hs := KeepsSound.refl s
  refine .next ?_
  split
  · exact hs.refuse _
  · exact .ite (fun _ => ((hs.setSlots { s.sched with off := removeFrom n s.sched.off } id).levelTest n).settleSelect.accept)
      fun _ => hs.accept

theorem clearFault : RowKeeps s (exec .clearFault s) := by
  have hs := KeepsSound.refl s
  refine .next ?_
  refine .ite (fun _ => hs.refuse _) fun _ => .ite (fun _ => hs.refuse _) fun _ => .ite (fun _ => hs.accept) fun _ => ?_
  exact (KeepsSound.settleSelect (hs.trans {})).accept

theorem fpBegin (n) : RowKeeps s (exec (.fpBegin n) s) := by
  have hs := KeepsSound.refl s
  refine .next ?_
  refine .ite (fun _ => hs.refuse _) fun _ => .ite (fun _ => hs.refuse _) fun _ => ?_
  split
  · exact hs.refuse _
  · refine .ite (fun _ => hs.refuse _) fun _ => .ite (fun _ => hs.refuse _) fun _ => ?_
    exact (hs.openLoad n).settle.accept

theorem fpData (n vs) : RowKeeps s (exec (.fpData n vs) s) := by
  have hs := KeepsSound.refl s
  refine .next ?_
  split
  · exact hs.refuse _
  · exact .ite (fun _ => hs.refuse _) fun _ => KeepsSound.accept
      (hs.setStore _ fun ⟨hm, hd, hf⟩ => ⟨Table.wf_putRun _ _ hm, hd, hf⟩)

theorem fpEnd (n) : RowKeeps s (exec (.fpEnd n) s) := by
  have hs := KeepsSound.refl s
  refine .next ?_
  split
  · exact hs.refuse _
  · exact .ite (fun _ => ((hs.setDir n _).setFp ..).emptyLoad.settleSelect.accept)
      fun _ => (hs.setFp n .absent).emptyLoad.settleSelect.refuse _

theorem unknownCommand (bs) : RowKeeps s (exec (.unknownCommand bs) s) := by
  have hs := KeepsSound.refl s
  refine .next ?_
  exact .ite (fun _ => hs.refuse _) fun _ => hs

theorem partialCommandDiscarded (bs) : RowKeeps s (exec (.partialCommandDiscarded bs) s) := by
  have hs := KeepsSound.refl s
  refine .next ?_
  exact hs.trans {}

theorem endOfLocking : RowKeeps s (exec .endOfLocking s) := by
  have hs := KeepsSound.refl s
  refine .next ?_
  exact .ite (fun _ => hs.enterAwake.settleSelect) fun _ => hs

theorem windowStart : RowKeeps s (exec .windowStart s) := by
  have hs := KeepsSound.refl s
  refine .next ?_
  exact .ite (fun _ => hs.openWindow.settleSelect) fun _ => hs

theorem windowEnd : RowKeeps s (exec .windowEnd s) := by
  have hs := KeepsSound.refl s
  refine .next ?_
  exact .ite (fun _ => hs.closeWindow.settleSelect) fun _ => hs

theorem dozeEntry : RowKeeps s (exec .dozeEntry s) := by
  have hs := KeepsSound.refl s
  refine .next ?_
  exact .ite (fun _ => hs.fallAsleep.settle) fun _ => hs

theorem alertLineAsserted (n) : RowKeeps s (exec (.alertLineAsserted n) s) := by
  have hs := KeepsSound.refl s
  refine .next ?_
  refine .ite (fun _ => hs) fun _ => ?_
  have hline := KeepsSound.execAlertLineAsserted s n
  split
  · exact hline
  · exact (hline.edgeAssert n).settleSelect
  · exact (hline.levelTest n).settleSelect

theorem alertLineReleased (n) : RowKeeps s (exec (.alertLineReleased n) s) := by
  have hs := KeepsSound.refl s
  refine .next ?_
  exact hs.setTimers _ id

theorem reRaiseTimerExpiry (n) : RowKeeps s (exec (.reRaiseTimerExpiry n) s) := by
  have hs := KeepsSound.refl s
  refine .next ?_
  exact .ite (fun _ => (KeepsSound.levelTest (hs.setTimers _ (Table.wf_erase n)) n).settleSelect) fun _ => hs

theorem switchSettleExpiry : RowKeeps s (exec .switchSettleExpiry s) := by
  have hs := KeepsSound.refl s
  refine .next ?_
  split
  · exact .ite (fun _ => KeepsSound.checkPrepared (hs.trans {})) fun _ => hs
  all_goals exact hs

theorem darkShotComplete (xs) : RowKeeps s (exec (.darkShotComplete xs) s) := by
  have hs := KeepsSound.refl s
  refine .next ?_
  split
  · exact .ite (fun _ => hs.darkShot ..) fun _ => hs
  · exact hs

theorem litShotComplete (xs) : RowKeeps s (exec (.litShotComplete xs) s) := by
  have hs := KeepsSound.refl s
  refine .next ?_
  split
  · exact .ite (fun _ => .ite (fun _ => .ite (fun _ => (hs.addLit xs).enterReducing ..) fun _ => hs.addLit xs)
      fun _ => (hs.addLit xs).afterFullShot ..) fun _ => hs
  · exact hs

theorem interleavedDarkShotCheck (xs) : RowKeeps s (exec (.interleavedDarkShotCheck xs) s) := by
  have hs := KeepsSound.refl s
  refine .next ?_
  split
  · exact .ite (fun _ => (hs.checkDark ..).settleSelect) fun _ => hs
  · exact hs

theorem reductionComplete : RowKeeps s (exec .reductionComplete s) := by
  have hs := KeepsSound.refl s
  refine .next ?_
  split
  · exact hs.reduce ..
  · exact hs

theorem comparisonComplete : RowKeeps s (exec .comparisonComplete s) := by
  have hs := KeepsSound.refl s
  refine .next ?_
  split
  · exact .ite (fun _ => hs.finishComparison ..) fun _ => hs
  · exact hs

theorem baselineWriteComplete : RowKeeps s (exec .baselineWriteComplete s) := by
  have hs := KeepsSound.refl s
  refine .next ?_
  split
  · exact ((((hs.copyTrace ..).setDir ..).setFp ..).endSweep ..).settleSelect
  · exact hs

theorem resumeTimerExpiry : RowKeeps s (exec .resumeTimerExpiry s) := by
  have hs := KeepsSound.refl s
  refine .next ?_
  exact .ite (fun _ => (hs.endSuspended _).settleSelect) fun _ => hs

theorem laserFaultReport (code) : RowKeeps s (exec (.laserFaultReport code) s) := by
  have hs := KeepsSound.refl s
  refine .next ?_
  exact .ite (fun _ => (hs.takeFault code).settleSelect) fun _ => hs

theorem laserFaultConditionClears : RowKeeps s (exec .laserFaultConditionClears s) := by
  have hs := KeepsSound.refl s
  refine .next ?_
  exact .ite (fun _ => hs.trans {}) fun _ => hs

theorem idleGap : RowKeeps s (exec .idleGap s) := by
  have hs := KeepsSound.refl s
  refine .next ?_
  exact .ite (fun hst => .idleGap hst) fun _ => hs

theorem arbitrationLost : RowKeeps s (exec .arbitrationLost s) := by
  have hs := KeepsSound.refl s
  refine .next ?_
  split
  · exact .loseArbitration ‹_›
  · exact hs

theorem frameTransmitted : RowKeeps s (exec .frameTransmitted s) := by
  have hs := KeepsSound.refl s
  refine .next ?_
  split
  · next f _ _ =>
    have hend := hs.endAttempt .gap rfl (by decide)
    unfold reportTransmitted
    split
    · exact hend.claimTransmitted _
    all_goals exact hend
  · exact hs

theorem readbackError : RowKeeps s (exec .readbackError s) := by
  have hs := KeepsSound.refl s
  refine .next ?_
  exact .ite (fun _ => .detectDup s _) fun _ => hs

theorem frameReceived (bits) : RowKeeps s (exec (.frameReceived bits) s) := by
  have hs := KeepsSound.refl s
  refine .next ?_
  refine .ite (fun hbusy => ?_) fun _ => hs
  have hgap := hs.setLine .gap (by simp [hbusy]) (by decide)
  split
  · next hparse => exact hgap.takeFrame (parseFrame_bounds hparse).2
  · exact hgap

theorem presenceDelivered : RowKeeps s (exec .presenceDelivered s) := by
  have hs := KeepsSound.refl s
  refine .next ?_
  split
  · split
    · exact (KeepsSound.takePresence (.putPeer ‹_› _)).settle
    · exact hs
  · exact hs

theorem claimDelivered : RowKeeps s (exec .claimDelivered s) := by
  have hs := KeepsSound.refl s
  refine .next ?_
  split
  · split
    · exact (hs.deliver _).takeClaim ..
    · exact hs
  · exact hs

theorem holdDelivered : RowKeeps s (exec .holdDelivered s) := by
  have hs := KeepsSound.refl s
  refine .next ?_
  split
  · split
    · exact (hs.deliver _).takeHold ..
    · exact hs
  · exact hs

theorem releaseDelivered : RowKeeps s (exec .releaseDelivered s) := by
  have hs := KeepsSound.refl s
  refine .next ?_
  split
  · split
    · exact (hs.deliver _).takeRelease ..
    · exact hs
  · exact hs

theorem findingDelivered : RowKeeps s (exec .findingDelivered s) := by
  have hs := KeepsSound.refl s
  refine .next ?_
  split
  · split
    · unfold takeFindingFrame
      split
      · exact ((hs.deliver _).takeFinding ..).settleSelect
      · exact hs.deliver _
    · exact hs
  · exact hs

theorem presenceTimerExpiry : RowKeeps s (exec .presenceTimerExpiry s) := by
  have hs := KeepsSound.refl s
  refine .next ?_
  exact .ite (fun _ => hs.offerPresence) fun _ => hs

theorem learningTimerExpiry : RowKeeps s (exec .learningTimerExpiry s) := by
  have hs := KeepsSound.refl s
  refine .next ?_
  have hstop := hs.setPeers { s.peers with learning := none } id fun _ => id
  exact .ite (fun _ => .ite (fun _ => (hstop.station (st := .running) (by decide)).offerPresence.settleSelect) fun _ => hstop) fun _ => hs

theorem ageTimerExpiry (x) : RowKeeps s (exec (.ageTimerExpiry x) s) := by
  have hs := KeepsSound.refl s
  refine .next ?_
  refine .ite (fun _ => ?_) fun _ => hs
  exact (((hs.setPeers { s.peers with table := s.peers.table.erase x } (Table.wf_erase x)
    fun y hy => (Table.keys_filter_sublist ..).subset hy).post _).peerTableChange _).settle

theorem holdOffExpiry (g) : RowKeeps s (exec (.holdOffExpiry g) s) := by
  have hs := KeepsSound.refl s
  refine .next ?_
  split
  · exact .ite (fun _ => (hs.setClaim ..).claimOpened g) fun _ => hs
  · exact hs

theorem holdRepetition (g) : RowKeeps s (exec (.holdRepetition g) s) := by
  have hs := KeepsSound.refl s
  refine .next ?_
  split
  · exact .ite (fun _ => (hs.setClaim ..).offer _) fun _ => hs
  · exact hs

theorem heldExpiry (g) : RowKeeps s (exec (.heldExpiry g) s) := by
  have hs := KeepsSound.refl s
  refine .next ?_
  split
  · exact .ite (fun _ => (hs.setClaim ..).settleSelect) fun _ => hs
  · exact hs

theorem roundTimerExpiry (k) : RowKeeps s (exec (.roundTimerExpiry k) s) := by
  have hs := KeepsSound.refl s
  refine .next ?_
  split
  · next r hr =>
    exact .ite (fun _ => (hs.issueVerdict (Table.has_of_find hr) r (fun hin => (KeepsSound.openRound_wf hr hin).1) true).settle)
      fun _ => hs
  · exact hs

theorem holdDownExpiry (k) : RowKeeps s (exec (.holdDownExpiry k) s) := by
  have hs := KeepsSound.refl s
  refine .next ?_
  split
  · next hr => exact .ite (fun _ => hs.putRound (Table.has_of_find hr) fun _ => rfl) fun _ => hs
  · exact hs

theorem frameStartHeard : RowKeeps s (exec .frameStartHeard s) := by
  have hs := KeepsSound.refl s
  refine .next ?_
  split
  · next hgap => exact hs.setLine .busy (by simp [hgap]) (by decide)
  · next hidle => exact .ite (fun _ => hs.startAttempt) fun _ => hs.setLine .busy (by simp [hidle]) (by decide)
  all_goals exact hs

theorem arbitrationWon : RowKeeps s (exec .arbitrationWon s) := by
  have hs := KeepsSound.refl s
  refine .next ?_
  exact .ite (fun harb => hs.setLine .sending (by simp [harb]) (by decide)) fun _ => hs

end RowKeeps

theorem exec_keepsSound {c : Instr} {s t : State} (h : exec c s = .next t) : KeepsSound s t := by
  revert t
  show RowKeeps s (exec c s)
  cases c
  case coldReset => exact .coldReset s _
  case warmReset => exact .warmReset s _
  case configWriteSpan => exact .configWriteSpan s _ _
  case configWriteStation => exact .configWriteStation s _
  case start => exact .start s _
  case run => exact .run s
  case halt => exact .halt s
  case readStatus => exact .readStatus s
  case readNotice => exact .readNotice s
  case readResult => exact .readResult s _
  case readTrace => exact .readTrace s _
  case sweep => exact .sweep s _ _ _
  case spanOff => exact .spanOff s _
  case spanOn => exact .spanOn s _
  case clearFault => exact .clearFault s
  case fpBegin => exact .fpBegin s _
  case fpData => exact .fpData s _ _
  case fpEnd => exact .fpEnd s _
  case unknownCommand => exact .unknownCommand s _
  case partialCommandDiscarded => exact .partialCommandDiscarded s _
  case endOfLocking => exact .endOfLocking s
  case windowStart => exact .windowStart s
  case windowEnd => exact .windowEnd s
  case dozeEntry => exact .dozeEntry s
  case alertLineAsserted => exact .alertLineAsserted s _
  case alertLineReleased => exact .alertLineReleased s _
  case reRaiseTimerExpiry => exact .reRaiseTimerExpiry s _
  case switchSettleExpiry => exact .switchSettleExpiry s
  case darkShotComplete => exact .darkShotComplete s _
  case litShotComplete => exact .litShotComplete s _
  case interleavedDarkShotCheck => exact .interleavedDarkShotCheck s _
  case reductionComplete => exact .reductionComplete s
  case comparisonComplete => exact .comparisonComplete s
  case baselineWriteComplete => exact .baselineWriteComplete s
  case resumeTimerExpiry => exact .resumeTimerExpiry s
  case laserFaultReport => exact .laserFaultReport s _
  case laserFaultConditionClears => exact .laserFaultConditionClears s
  case idleGap => exact .idleGap s
  case arbitrationLost => exact .arbitrationLost s
  case frameTransmitted => exact .frameTransmitted s
  case readbackError => exact .readbackError s
  case frameReceived => exact .frameReceived s _
  case presenceDelivered => exact .presenceDelivered s
  case claimDelivered => exact .claimDelivered s
  case holdDelivered => exact .holdDelivered s
  case releaseDelivered => exact .releaseDelivered s
  case findingDelivered => exact .findingDelivered s
  case presenceTimerExpiry => exact .presenceTimerExpiry s
  case learningTimerExpiry => exact .learningTimerExpiry s
  case ageTimerExpiry => exact .ageTimerExpiry s _
  case holdOffExpiry => exact .holdOffExpiry s _
  case holdRepetition => exact .holdRepetition s _
  case heldExpiry => exact .heldExpiry s _
  case roundTimerExpiry => exact .roundTimerExpiry s _
  case holdDownExpiry => exact .holdDownExpiry s _
  case frameStartHeard => exact .frameStartHeard s
  case arbitrationWon => exact .arbitrationWon s

theorem tick_keepsSound (s : State) : KeepsSound s (tick s) := by
  have hs := KeepsSound.refl s
  have hinput : KeepsSound s { s with reference := s.reference.drop 1 } := hs.trans {}
  refine .ite (fun _ => hs) fun _ => .ite (fun _ => hinput.setClock _ (htod := fun _ => ?_)) fun _ => hinput
  split
  · assumption
  · exact (by decide : 0 < Config.msPerDay)

theorem step_keepsSound {s t : State} (h : step s = .next t) : KeepsSound s t := by
  unfold step at h
  split at h
  · exact KeepsSound.trans (t := { s with pending := _ }) {} (exec_keepsSound h)
  · unfold idleStep at h
    split at h
    · cases h; exact tick_keepsSound s
    · exact exec_keepsSound h
    · split at h
      · exact KeepsSound.trans (t := bumpFree s) {} (exec_keepsSound h)
      · cases h; exact .refl s

end Machine
end Sys2Proof

/-! ## How many frames wait, and what an offer does to the queue (R136 to R139) -/

namespace Sys2Proof.Machine

-- The kernel checks the lemmas one after another: many at once take a thread each.
set_option Elab.async false

/-! ### At most twelve frames -/

/-- A PRESENCE. -/
def isPresence : FrameBody → Bool
  | .presence .. => true
  | .claim .. => false
  | .hold .. => false
  | .release .. => false
  | .finding .. => false

/-- The sheath groups of the waiting FINDINGs. -/
def findingGroups (q : List TxFrame) : List Nat := q.filterMap fun f => findingGroup f.body

/-- A frame is a PRESENCE, a claim frame or a FINDING, and one of these only. -/
theorem one_kind (b : FrameBody) :
    (isPresence b).toNat + (isClaimFrame b).toNat + (findingGroup b).toList.length = 1 := by
  cases b <;> rfl

theorem length_by_kind : ∀ q : List TxFrame, q.length =
    (q.filter fun f => isPresence f.body).length + (claimFrames q).length + (findingGroups q).length
  | [] => rfl
  | f :: q => by
    have ih := length_by_kind q
    simp only [claimFrames, findingGroups] at ih ⊢
    have hhead := one_kind f.body
    rw [List.filter_cons, List.filter_cons, List.filterMap_cons, List.length_cons]
    cases hp : isPresence f.body <;> cases hc : isClaimFrame f.body <;> cases hf : findingGroup f.body <;>
      simp_all <;> omega

theorem presences_le_one {q : List TxFrame} (h : noTwoSame q) : (q.filter fun f => isPresence f.body).length ≤ 1 := by
  have hpair : noTwoSame (q.filter fun f => isPresence f.body) := h.filter _
  have hall : ∀ f ∈ q.filter fun f => isPresence f.body, isPresence f.body = true := fun f hf => (List.mem_filter.1 hf).2
  rcases hl : q.filter fun f => isPresence f.body with _ | ⟨f, _ | ⟨g, l⟩⟩
  · simp [hl]
  · simp [hl]
  · rw [hl] at hpair hall
    have hfg := (List.pairwise_cons.1 hpair).1 g (List.mem_cons_self ..)
    have hf := hall f (List.mem_cons_self ..)
    have hg := hall g (List.mem_cons_of_mem _ (List.mem_cons_self ..))
    cases hb : f.body <;> cases hb' : g.body <;> simp_all [isPresence, sameFrame]

theorem findingGroups_nodup {q : List TxFrame} (h : noTwoSame q) : (findingGroups q).Nodup := by
  refine List.Pairwise.filterMap (R := fun f g => sameFrame f.body g.body = false) _ (fun f g hfg a ha b hb => ?_) h
  rintro rfl
  cases hf : f.body <;> cases hg : g.body <;> simp_all [findingGroup, sameFrame]

theorem length_le_twelve {s : State} (h : s.queueBounded) : s.line.queue.length + s.line.attempt.toList.length ≤ 12 := by
  obtain ⟨hsame, hclaims, hcorr, hfind⟩ := h
  have hkinds := length_by_kind s.line.queue
  have hpresence := presences_le_one hsame
  have hsub : findingGroups s.line.queue ⊆ s.corr.keys := by
    intro g hg
    obtain ⟨f, hf, hfg⟩ := List.mem_filterMap.1 hg
    exact (Table.has_iff ..).1 (hfind f (List.mem_append_left _ hf) g hfg)
  have hfindings := (List.subperm_of_subset (findingGroups_nodup hsame) hsub).length_le
  rw [Table.keys, List.length_map] at hfindings
  have hattempt : s.line.attempt.toList.length ≤ 1 := by cases s.line.attempt <;> simp
  omega

/-! ### What an offer does to a queue -/

/-- An offer to a unit that is on the line and not IDLE: the queue as R138 and R139 leave it, nothing else. -/
theorem offer_waiting {s : State} (u : Nat) (b : FrameBody) (hon : s.onLine) (hidle : s.line.state ≠ .idle) :
    offer s u b = { s with line := { s.line with
      nextAge := s.line.nextAge + 1, queue := queueOffer s.line.queue ⟨s.line.nextAge, u, b⟩ } } := by
  rw [offer_eq, offer_line s u b hon.1 hon.2 hidle]

theorem map_eq_of_unique {g : TxFrame → TxFrame} {pre post : List TxFrame} {x : TxFrame}
    (h : ∀ f ∈ pre ++ post, g f = f) : (pre ++ x :: post).map g = pre ++ g x :: post := by
  rw [List.map_append, List.map_cons, List.map_congr_left (g := id) fun f hf => h f (List.mem_append_left _ hf), List.map_id,
    List.map_congr_left (g := id) fun f hf => h f (List.mem_append_right _ hf), List.map_id]

/-- In a queue where no frame replaces another, a frame is replaced in its place. -/
theorem replaceWaiting_unique {pre post : List TxFrame} {x : TxFrame} {b : FrameBody} (u : Nat)
    (hq : noTwoSame (pre ++ x :: post)) (hx : sameFrame x.body b = true) :
    replaceWaiting (pre ++ x :: post) u b = pre ++ ⟨x.age, u, b⟩ :: post := by
  obtain ⟨_, hpost, hpre⟩ := List.pairwise_append.1 hq
  obtain ⟨hxpost, _⟩ := List.pairwise_cons.1 hpost
  have hother : ∀ f ∈ pre ++ post, sameFrame f.body b = false := by
    intro f hf
    rw [← Bool.not_eq_true]
    intro hfb
    have hfx : sameFrame f.body x.body = true := sameFrame_trans hfb (by rwa [sameFrame_comm])
    rcases List.mem_append.1 hf with hf | hf
    · rw [hpre f hf x (List.mem_cons_self ..)] at hfx
      cases hfx
    · rw [sameFrame_comm, hxpost f hf] at hfx
      cases hfx
  rw [replaceWaiting, map_eq_of_unique fun f hf => if_neg (by rw [hother f hf]; decide), if_pos hx]

theorem queueOffer_replaces {q : List TxFrame} {f : TxFrame} (h : q.any (fun x => sameFrame x.body f.body) = true)
    (hhold : ∀ g l, f.body = .hold g l → ∀ x ∈ q, isClaimOf g x.body = false) :
    queueOffer q f = replaceWaiting q f.urgency f.body := by
  obtain ⟨x, _, hx⟩ := List.any_eq_true.1 h
  unfold queueOffer
  split
  · rw [if_pos h]
  · rw [if_pos h]
  · next hb => rw [hb, sameFrame_claim] at hx; cases hx
  · next g l hb =>
    rw [if_neg (by simpa using hhold g l hb), if_pos h]
  · next hb => rw [hb, sameFrame_release] at hx; cases hx

/-- The frames that stay beside an offered one that replaces none: a RELEASE removes CLAIM and HOLD of its group. -/
def staying (q : List TxFrame) (b : FrameBody) : List TxFrame :=
  q.filter fun f => !(isRelease b && (claimGroup b).any fun g => isClaimOf g f.body || isHoldOf g f.body)

theorem staying_of_not_release {b : FrameBody} (q : List TxFrame) (h : isRelease b = false) : staying q b = q := by
  simp [staying, h]

theorem queueOffer_enters {q : List TxFrame} {f : TxFrame} (h : ∀ x ∈ q, sameFrame x.body f.body = false)
    (hhold : ∀ g l, f.body = .hold g l → ∀ x ∈ q, isClaimOf g x.body = false) :
    queueOffer q f = if isClaimFrame f.body then enterClaimFrame (staying q f.body) f
      else insertByAge f (staying q f.body) := by
  have hany : ¬ q.any (fun x => sameFrame x.body f.body) = true := by simpa using h
  unfold queueOffer
  split
  · next hb => rw [if_neg hany, staying_of_not_release q (by rw [hb]; rfl), if_neg (by rw [hb]; simp [isClaimFrame, claimGroup])]
  · next hb => rw [if_neg hany, staying_of_not_release q (by rw [hb]; rfl), if_neg (by rw [hb]; simp [isClaimFrame, claimGroup])]
  · next hb => rw [staying_of_not_release q (by rw [hb]; rfl), if_pos (by rw [hb]; rfl)]
  · next g l hb =>
    rw [if_neg (by simpa using hhold g l hb), if_neg hany, staying_of_not_release q (by rw [hb]; rfl), if_pos (by rw [hb]; rfl)]
  · next g l hb =>
    rw [if_pos (by rw [hb]; rfl), staying, hb]
    simp [isRelease, claimGroup, Bool.not_or]

theorem dropOldest_first {p : FrameBody → Bool} {post : List TxFrame} {x : TxFrame} (hx : p x.body = true) :
    ∀ {pre : List TxFrame}, (∀ f ∈ pre, p f.body = false) → dropOldest p (pre ++ x :: post) = pre ++ post
  | [], _ => by rw [List.nil_append, dropOldest, if_pos hx]; rfl
  | f :: pre, h => by
    obtain ⟨hf, hpre⟩ := List.forall_mem_cons.1 h
    rw [List.cons_append, dropOldest, if_neg (by rw [hf]; decide), dropOldest_first hx hpre, List.cons_append]

/-- With two claim frames waiting, the RELEASE of earliest age makes room (R139, last case). -/
theorem enterClaimFrame_drops {pre post : List TxFrame} {x f : TxFrame} (htwo : (claimFrames (pre ++ x :: post)).length = 2)
    (hage : inAgeOrder (pre ++ x :: post)) (hnew : ∀ g ∈ pre ++ post, g.age ≤ f.age) (hx : isRelease x.body = true)
    (hfirst : ∀ g ∈ pre ++ x :: post, isRelease g.body = true → x.age ≤ g.age) :
    enterClaimFrame (pre ++ x :: post) f = pre ++ post ++ [f] := by
  obtain ⟨_, _, hpre⟩ := List.pairwise_append.1 hage
  have hnone : ∀ g ∈ pre, isRelease g.body = false := by
    intro g hg
    rw [← Bool.not_eq_true]
    intro hgr
    have hlt := hpre g hg x (List.mem_cons_self ..)
    have hle := hfirst g (List.mem_append_left _ hg) hgr
    omega
  rw [enterClaimFrame, if_pos (by omega), makeRoom, if_pos (by simp [hx]), dropOldest_first hx hnone,
    insertByAge_last f _ hnew]

end Sys2Proof.Machine

namespace Sys2Proof
open Machine

/-- Settles O3: the station after a reset is one closed value, and each invariant a finite check on it. -/
theorem resetIsSound : Obligations.ResetIsSound := reset_sound

/-- Settles O21: every shared operation keeps the canonical form, so every row and every step does. -/
theorem tablesStaySound : Obligations.TablesStaySound :=
  ⟨fun _ _ hs h => (step_keepsSound h).tables hs, fun _ _ hs h => (step_keepsSound h).store hs⟩

/-- Settles O22: the invariants are kept row by row; the limits of R136 add up to twelve frames; and what an offer does is
the case of R138 and R139 that the waiting frames select. -/
theorem noticesAndQueueStaySound : Obligations.NoticesAndQueueStaySound := by
  refine ⟨fun _ _ hs h => (step_keepsSound h).notices hs, fun _ _ hs h => (step_keepsSound h).queue hs,
    fun _ _ ht hs h => (step_keepsSound h).bounded ht hs, fun _ _ hs h => (step_keepsSound h).ages hs,
    fun _ _ hs h => (step_keepsSound h).access hs, fun _ => length_le_twelve, fun s u b => ⟨?_, ?_, fun hoff => ?_⟩⟩
  · rintro hon hidle hsame ⟨hage, hnext, _⟩ hhold
    rw [offer_waiting u b hon hidle]
    have hlt : ∀ f ∈ s.line.queue, f.age ≤ s.line.nextAge := fun f hf => (hnext f (List.mem_append_left _ hf)).le
    refine ⟨fun pre x post hq hx => ?_, fun hnone rest hrest => ?_⟩
    · have hsame' : noTwoSame (pre ++ x :: post) := hq ▸ hsame
      have hany : s.line.queue.any (fun y => sameFrame y.body b) = true := by rw [hq]; simp [hx]
      rw [queueOffer_replaces hany hhold, hq, replaceWaiting_unique u hsame' hx]
    · have hsub : rest.Sublist s.line.queue := hrest ▸ List.filter_sublist
      have hnew : ∀ f ∈ rest, f.age ≤ s.line.nextAge := fun f hf => hlt f (hsub.subset hf)
      rw [queueOffer_enters hnone hhold, show staying s.line.queue b = rest from hrest]
      refine ⟨fun hroom => ?_, fun pre x post hclaim htwo hsplit hx hfirst => ?_⟩
      · have hlast := insertByAge_last ⟨s.line.nextAge, u, b⟩ rest hnew
        split
        · next hclaim =>
          have hfew : ¬ 2 ≤ (claimFrames rest).length := by
            rcases hroom with h | h
            · rw [show isClaimFrame b = true from hclaim] at h; cases h
            · omega
          rw [enterClaimFrame, if_neg hfew, hlast]
        · rw [hlast]
      · rw [if_pos hclaim]
        subst hsplit
        have hothers : ∀ g ∈ pre ++ post, g.age ≤ s.line.nextAge := fun g hg =>
          hnew g (((List.sublist_cons_self x post).append_left pre).subset hg)
        rw [enterClaimFrame_drops htwo (hage.sublist hsub) hothers hx hfirst]
  · rintro g l pre x post hon hidle rfl hq hx hother
    rw [offer_waiting u _ hon hidle]
    have hany : s.line.queue.any (fun y => isClaimOf g y.body) = true := by rw [hq]; simp [hx]
    simp only [queueOffer, if_pos hany]
    rw [hq, absorbHold, map_eq_of_unique fun f hf => if_neg (by rw [hother f hf]; decide), if_pos hx]
  · refine offer_discarded s u b ?_
    by_contra hno
    rw [not_or] at hno
    exact hoff hno

/-- Settles O23: kept row by row; thirty ids are left beside the own one. -/
theorem peersStaySound : Obligations.PeersStaySound := by
  refine ⟨fun _ _ hs h => (step_keepsSound h).peers hs, fun s ⟨_, _, hother⟩ hwf hlo hhi => ?_⟩
  have hsub : s.peers.table.keys ⊆ (List.range' 1 31).erase s.line.id := by
    intro x hx
    have h := hother x hx
    simp only [isOther, Bool.and_eq_true, decide_eq_true_eq] at h
    exact (List.mem_erase_of_ne h.2).2 (List.mem_range'_1.2 (by omega))
  have hle := (List.subperm_of_subset (hwf.imp Nat.ne_of_lt) hsub).length_le
  rw [Table.keys, List.length_map, List.length_erase_of_mem (List.mem_range'_1.2 (by omega)), List.length_range'] at hle
  exact hle

/-- Settles O24: kept row by row; a lit shot adds at most 4095 to every sum and one to the count. -/
theorem clockAndSumsStaySound : Obligations.ClockAndSumsStaySound :=
  ⟨fun _ _ hs h => (step_keepsSound h).clock hs, fun _ _ hs h => (step_keepsSound h).acc hs⟩

end Sys2Proof

/-! ## The engine's invariants: what they read of a state, and what leaves it as it is (R7, R65 to R73, R158) -/

namespace Sys2Proof.Machine

-- The kernel checks the lemmas one after another: many at once take a thread each.
set_option Elab.async false

/-! ### What the invariants read -/

/-- Whether the station claims an entry itself, and then whether it is OPEN. -/
def ownKind : ClaimState → Option Bool
  | .free => none
  | .held .. => none
  | .claiming .. => some false
  | .opened .. => some true

theorem ownClaim_eq (st : ClaimState) : ownClaim st = (ownKind st).isSome := by cases st <;> rfl

/-- What the invariants read of a sweep: its span, quick-only flag, reference and resumed flag. -/
def Ctx.core (c : Ctx) : Nat × Bool × Bool × Bool := (c.span, c.quickOnly, c.refPresent, c.resumed)

theorem isOpen_iff (s : State) (g : Nat) :
    isOpen s g = true ↔ ∃ e, s.claims.find g = some e ∧ ownKind e.state = some true := by
  unfold isOpen
  split
  · next l t m h => simp [h, ownKind]
  · next hn =>
    refine ⟨fun h => by simp at h, ?_⟩
    rintro ⟨⟨st, m⟩, h, hk⟩
    cases st <;> simp [ownKind] at hk
    exact absurd h (hn _ _ _)

/-- A state that the engine's invariants cannot tell from s: only a request that is not selected, a claim entry that the
station does not hold, or what no invariant reads may differ. -/
structure Quiet (s t : State) : Prop where
  station : t.port.station = .unconfigured → s.port.station = .unconfigured
  stopped : s.clock.state = .stopped → t.clock.state = .stopped
  awake : t.clock.state = .awake ↔ s.clock.state = .awake
  cfg : t.cfg = s.cfg
  state : t.engine.state = s.engine.state
  ctx : t.engine.ctx.map Ctx.core = s.engine.ctx.map Ctx.core
  fault : s.engine.laserFault = none → t.engine.laserFault = none
  selection : t.sched.selection = s.sched.selection
  save : ∀ c ∈ t.sched.save, c ∈ s.sched.save
  slots : ∀ n r, s.sched.selection = some (.slot n) → s.sched.slots.find n = some r → r.selected = true →
    ∃ q, t.sched.slots.find n = some q ∧ q.selected = true
  switch : t.switch = s.switch
  dir : t.store.dir = s.store.dir
  fp : t.store.fp = s.store.fp
  load : t.store.load = s.store.load
  keys : t.claims.keys = s.claims.keys
  claims : ∀ e ∈ t.claims, ∀ k, ownKind e.2.state = some k → ∃ d ∈ s.claims, d.1 = e.1 ∧ ownKind d.2.state = some k
  opens : ∀ g, isOpen s g = true → isOpen t g = true

namespace Quiet

/-- A state whose fields agree with those of s. -/
theorem of_eq {s t : State} (station : t.port.station = s.port.station := by rfl)
    (clock : t.clock.state = s.clock.state := by rfl) (cfg : t.cfg = s.cfg := by rfl)
    (engine : t.engine = s.engine := by rfl) (sched : t.sched = s.sched := by rfl)
    (switch : t.switch = s.switch := by rfl) (store : t.store = s.store := by rfl)
    (claims : t.claims = s.claims := by rfl) : Quiet s t where
  station := fun h => by rw [← station, h]
  stopped := fun h => by rw [clock, h]
  awake := by rw [clock]
  cfg := cfg
  state := by rw [engine]
  ctx := by rw [engine]
  fault := fun h => by rw [engine, h]
  selection := by rw [sched]
  save := fun c h => by rwa [← sched]
  slots := fun n r _ h hr => ⟨r, by rw [sched, h], hr⟩
  switch := switch
  dir := by rw [store]
  fp := by rw [store]
  load := by rw [store]
  keys := by rw [claims]
  claims := fun e he k hk => ⟨e, by rwa [← claims], rfl, hk⟩
  opens := fun g h => by rwa [isOpen, claims]

/-- The same for a state whose fields the laws of the operations compare. -/
theorem of_keeps {s t : State} (station : t.port.station = s.port.station := by simp)
    (clock : t.clock.state = s.clock.state := by simp) (cfg : t.cfg = s.cfg := by simp)
    (engine : t.engine = s.engine := by simp) (sched : t.sched = s.sched := by simp)
    (switch : t.switch = s.switch := by simp) (store : t.store = s.store := by simp)
    (claims : t.claims = s.claims := by simp) : Quiet s t := of_eq station clock cfg engine sched switch store claims

theorem refl (s : State) : Quiet s s := of_eq

theorem trans {s t u : State} (h : Quiet s t) (h' : Quiet t u) : Quiet s u where
  station := h.station ∘ h'.station
  stopped := h'.stopped ∘ h.stopped
  awake := h'.awake.trans h.awake
  cfg := h'.cfg.trans h.cfg
  state := h'.state.trans h.state
  ctx := h'.ctx.trans h.ctx
  fault := h'.fault ∘ h.fault
  selection := h'.selection.trans h.selection
  save := fun c hc => h.save c (h'.save c hc)
  slots := fun n r hsel hr hs => by
    obtain ⟨q, hq, hqs⟩ := h.slots n r hsel hr hs
    exact h'.slots n q (h.selection.trans hsel) hq hqs
  switch := h'.switch.trans h.switch
  dir := h'.dir.trans h.dir
  fp := h'.fp.trans h.fp
  load := h'.load.trans h.load
  keys := h'.keys.trans h.keys
  claims := fun e he k hk => by
    obtain ⟨d, hd, hde, hdk⟩ := h'.claims e he k hk
    obtain ⟨c, hc, hcd, hck⟩ := h.claims d hd k hdk
    exact ⟨c, hc, hcd.trans hde, hck⟩
  opens := fun g hg => h'.opens g (h.opens g hg)

theorem foldl {α : Type} {f : State → α → State} (hf : ∀ t a, Quiet t (f t a)) :
    ∀ (l : List α) (s : State), Quiet s (l.foldl f s)
  | [], s => refl s
  | a :: l, s => (hf s a).trans (foldl hf l _)

theorem ite {p : Prop} [Decidable p] {s t u : State} (ht : p → Quiet s t) (hu : ¬ p → Quiet s u) :
    Quiet s (if p then t else u) := by
  split
  · exact ht ‹_›
  · exact hu ‹_›

variable (s : State)

/-! ### Notices, frames, clock, peers and rounds -/

theorem answer (k : ReplyKind) (b : List Byte) : Quiet s (answer s k b) := of_eq
theorem accept : Quiet s (accept s) := of_eq
theorem refuse (k : ReplyKind) : Quiet s (refuse s k) := of_eq
theorem post (b : NoticeBody) : Quiet s (post s b) := of_keeps
theorem postAll (bs : List NoticeBody) : Quiet s (postAll s bs) := of_keeps
theorem startAttempt : Quiet s (startAttempt s) := of_keeps
theorem offer (u : Nat) (b : FrameBody) : Quiet s (offer s u b) := of_keeps
theorem offerPresence : Quiet s (offerPresence s) := of_keeps
theorem askRemove (p : FrameBody → Bool) : Quiet s (askRemove s p) := of_eq
theorem endAttempt (st : LineState) : Quiet s (endAttempt s st) := of_eq
theorem setLine (st : LineState) : Quiet s (setLine s st) := of_eq
theorem adjustResult (n : Nat) (f : ResultRecord → ResultRecord) : Quiet s (adjustResult s n f) := of_eq
theorem stopDoze : Quiet s (stopDoze s) := of_eq
theorem bumpFree : Quiet s (bumpFree s) := of_eq

theorem wake : Quiet s (wake s) := by
  unfold Machine.wake
  refine ite (fun hd => Quiet.trans ?_ (offerPresence _)) fun _ => refl s
  exact { of_eq (s := s) (t := s) with
    stopped := fun h => by rw [hd] at h; cases h
    awake := by simp [hd] }

theorem refreshDoze : Quiet s (refreshDoze s) := by
  refine of_keeps (clock := ?_)
  unfold Machine.refreshDoze
  repeat' split
  all_goals rfl

theorem settle : Quiet s (settle s) := by
  refine Quiet.trans ?_ (refreshDoze _)
  exact ite (fun _ => wake s) fun _ => refl s

/-! ### Requests and alert inputs -/

theorem putSlot {n : Nat} {q : Request}
    (h : ∀ r, s.sched.slots.find n = some r → r.selected = true → q.selected = true) : Quiet s (putSlot s n q) where
  __ := of_eq (s := s) (t := s)
  slots := fun m r _ hr hs => by
    by_cases hm : m = n
    · subst hm
      exact ⟨q, Table.find_put_same .., h r hr hs⟩
    · exact ⟨r, (Table.find_put_other _ _ _ _ hm).trans hr, hs⟩

theorem meet {n : Nat} {old : Request} (r : Raised) (h : s.sched.slots.find n = some old) : Quiet s (meet s n old r) := by
  have hold : ∀ q, s.sched.slots.find n = some q → q.selected = true → old.selected = true := by
    intro q hq
    rw [h] at hq
    cases hq
    exact id
  unfold Machine.meet
  split
  · exact refl s
  · exact putSlot s fun q hq hs => hold q hq hs
  · exact putSlot s fun q hq hs => hold q hq hs
  · exact Quiet.trans (t := Machine.putSlot s n (replaceBaseline old r s.clock.tod))
      (putSlot s fun q hq hs => hold q hq hs) (post _ _)
  · exact putSlot s fun q hq hs => hold q hq hs

theorem dropOutstanding (n : Nat) (t h : Option Nat) : Quiet s (dropOutstanding s n t h) :=
  of_keeps (sched := by unfold Machine.dropOutstanding; split <;> rfl)

theorem raise (n : Nat) (r : Raised) : Quiet s (raise s n r) := by
  unfold Machine.raise
  refine ite (fun _ => ite (fun _ => dropOutstanding s ..) fun _ => refl s) fun _ => ?_
  split
  · next h => exact putSlot s fun q hq => by rw [h] at hq; cases hq
  · next old h => exact meet s r h

theorem raiseAlert (n : Nat) : Quiet s (raiseAlert s n) := raise s n _

theorem levelTest (n : Nat) : Quiet s (levelTest s n) := ite (fun _ => raiseAlert s n) fun _ => refl s

theorem clearLatch (n : Nat) : Quiet s (clearLatch s n) := of_eq

theorem startReRaise (n : Nat) : Quiet s (startReRaise s n) := ite (fun _ => of_eq) fun _ => refl s

theorem sweepOver (c : Ctx) : Quiet s (sweepOver s c) :=
  Quiet.trans (ite (fun _ => clearLatch s _) fun _ => refl s) (startReRaise _ _)

/-! ### Rounds -/

theorem putRound (h : Nat) (c : CorrRecord) : Quiet s (putRound s h c) := of_eq

theorem offerFinding (h : Nat) (r : Report) : Quiet s (offerFinding s h r) := offer ..

theorem issueVerdict (h : Nat) (r : OpenRound) (b : Bool) : Quiet s (issueVerdict s h r b) :=
  (post s _).trans (putRound _ h _)

theorem completionCheck (h : Nat) : Quiet s (completionCheck s h) := by
  unfold Machine.completionCheck
  split
  · exact ite (fun _ => issueVerdict s ..) fun _ => refl s
  all_goals exact refl s

theorem makeReport (h : Nat) (r : OpenRound) : Quiet s (makeReport s h r) :=
  ((offerFinding s h _).trans (putRound _ h _)).trans (completionCheck _ h)

theorem decideSpan (n : Nat) (t h : Option Nat) (f : Option (List Best)) : Quiet s (decideSpan s n t h f) := by
  unfold Machine.decideSpan
  split
  · split
    · exact ite (fun _ => ite (fun _ => makeReport s ..) fun _ => putRound s ..) fun _ => refl s
    all_goals exact refl s
  · exact refl s

theorem unableBegins : Quiet s (unableBegins s) := by
  refine foldl (fun t h => ?_) _ s
  unfold unableRound
  split
  · exact ite (fun _ => refl t) fun _ => makeReport t ..
  all_goals exact refl t

theorem ownConfirm (h d o : Nat) (e : Nat × SpanRecord) : Quiet s (ownConfirm h d o s e) :=
  ite (fun _ => raise s ..) fun _ => refl s

theorem openOwnRound (h n : Nat) (k : ReportKind) (d : Nat) : Quiet s (openOwnRound s h n k d) :=
  ((((stopDoze s).trans (putRound _ h _)).trans (offerFinding _ h _)).trans (foldl (fun t => ownConfirm t h d n) _ _)).trans
    (completionCheck _ h)

theorem heardConfirm (h d : Nat) (e : Nat × SpanRecord) : Quiet s (heardConfirm h d s e) :=
  ite (fun _ => Quiet.trans of_eq (raise _ ..)) fun _ => refl s

theorem reportIfDecided (h : Nat) : Quiet s (reportIfDecided s h) := by
  unfold Machine.reportIfDecided
  split
  · exact ite (fun _ => makeReport s ..) fun _ => completionCheck s h
  all_goals exact refl s

theorem openHeardRound (h x : Nat) (k : ReportKind) (d : Nat) : Quiet s (openHeardRound s h x k d) := by
  refine Quiet.trans (((stopDoze s).trans (putRound _ h _)).trans (wake _)) (ite (fun _ => reportIfDecided _ h) fun _ => ?_)
  exact (foldl (fun t => heardConfirm t h d) _ _).trans (reportIfDecided _ h)

theorem takeFinding (x h : Nat) (rep : Report) : Quiet s (takeFinding s x h rep) := by
  unfold Machine.takeFinding
  split
  · split
    · exact openHeardRound s ..
    · exact refl s
  · exact (putRound s h _).trans (completionCheck _ h)
  all_goals exact refl s

theorem peerTableChange (added : List Nat) : Quiet s (peerTableChange s added) := by
  refine foldl (fun t h => ?_) _ s
  unfold peerChangeRound
  split
  · refine Quiet.trans (ite (fun _ => ?_) fun _ => refl t) (completionCheck _ h)
    unfold reOffer
    split
    · exact ite (fun _ => offerFinding t ..) fun _ => refl t
    · exact refl t
  all_goals exact refl t

theorem writeResult (c : Ctx) (o : SweepOutcome) (n : Nat) : Quiet s (writeResult s c o n) := adjustResult ..

theorem confirmReport (c : Ctx) (w : Option Comparison) : Quiet s (confirmReport s c w) := by
  unfold Machine.confirmReport
  split
  · split
    · exact decideSpan s ..
    · exact refl s
  · exact refl s

theorem findingDecision (c : Ctx) (o : SweepOutcome) (w : Option Comparison) : Quiet s (findingDecision s c o w) := by
  unfold Machine.findingDecision
  split
  · refine ite (fun _ => ?_) fun _ => refl s
    split
    · exact openOwnRound s ..
    · exact refl s
  · exact refl s

/-! ### The running sweep -/

/-- The sweep's counters change, not what the invariants read of it. -/
theorem adjustCtx {f : Ctx → Ctx} (hf : ∀ c, (f c).core = c.core) : Quiet s (adjustCtx s f) where
  __ := of_eq (s := s) (t := s)
  ctx := by
    show (s.engine.ctx.map f).map Ctx.core = _
    rw [Option.map_map, show Ctx.core ∘ f = Ctx.core from funext hf]

theorem addLit (xs : List Adc) : Quiet s (addLit s xs) :=
  (adjustCtx s (f := fun x => { x with litDone := x.litDone + 1 }) fun _ => rfl).trans (of_eq (t := Machine.addLit s xs))

theorem countDark (n : Nat) : Quiet s (countDark s n) := { of_eq (s := s) (t := s) with }

/-! ### Claims -/

/-- An entry that the station does not claim changes to one that it does not claim. -/
theorem setClaim_unclaimed {g : Nat} {e : ClaimEntry} {st : ClaimState} (h : s.claims.find g = some e)
    (he : ownKind e.state = none) (hst : ownKind st = none) : Quiet s (setClaim s g st) where
  __ := of_eq (s := s) (t := s)
  keys := Table.keys_adjust s.claims g fun e => { e with state := st }
  claims := fun d hd k hk => by
    obtain ⟨c, hc, rfl⟩ := List.mem_map.1 hd
    split at hk
    · rw [hst] at hk; cases hk
    · next hne => exact ⟨c, hc, by rw [if_neg hne], hk⟩
  opens := fun x hx => by
    obtain ⟨d, hd, hk⟩ := (isOpen_iff s x).1 hx
    refine (isOpen_iff _ x).2 ⟨d, ?_, hk⟩
    rw [Machine.setClaim, Table.find_adjust, if_neg, hd]
    rintro rfl
    rw [h] at hd
    cases hd
    rw [he] at hk
    cases hk

/-- The entries stay what they are to the station: their times and marks change. -/
theorem adjustClaims {g : Nat} {f : ClaimEntry → ClaimEntry}
    (hf : ∀ e, (g, e) ∈ s.claims → ownKind (f e).state = ownKind e.state) :
    Quiet s { s with claims := s.claims.adjust g f } where
  __ := of_eq (s := s) (t := s)
  keys := Table.keys_adjust _ _ _
  claims := fun d hd k hk => by
    obtain ⟨c, hc, rfl⟩ := List.mem_map.1 hd
    refine ⟨c, hc, ?_, ?_⟩
    · split <;> rfl
    · split at hk
      · next h => rw [← hf c.2 (by rw [← h]; exact hc)]; exact hk
      · exact hk
  opens := fun x hx => by
    obtain ⟨d, hd, hk⟩ := (isOpen_iff s x).1 hx
    refine (isOpen_iff _ x).2 ?_
    by_cases hxg : x = g
    · subst hxg
      exact ⟨f d, by rw [Table.find_adjust, if_pos rfl, hd]; rfl, by rw [hf d (Table.mem_of_find hd), hk]⟩
    · exact ⟨d, by rw [Table.find_adjust, if_neg hxg, hd], hk⟩

theorem setStale (g : Nat) (m : Option (StaleMark × Nat)) : Quiet s (setStale s g m) := adjustClaims s fun _ _ => rfl

theorem clearStale : Quiet s (clearStale s) where
  __ := of_eq (s := s) (t := s)
  keys := Table.keys_map _ _ fun _ => rfl
  claims := fun d hd k hk => by
    obtain ⟨c, hc, rfl⟩ := List.mem_map.1 hd
    exact ⟨c, hc, rfl, hk⟩
  opens := fun x hx => by
    obtain ⟨d, hd, hk⟩ := (isOpen_iff s x).1 hx
    refine (isOpen_iff _ x).2 ⟨{ d with stale := none }, ?_, hk⟩
    have hmap : ∀ t : Table ClaimEntry,
        Table.find (t.map fun e => (e.1, { e.2 with stale := none })) x = (t.find x).map fun e => { e with stale := none } := by
      intro t
      induction t with
      | nil => rfl
      | cons e t ih =>
        rw [List.map_cons, Table.find_cons, Table.find_cons, ih]
        split <;> rfl
    rw [Machine.clearStale, hmap, hd]
    rfl

theorem recordHolder {g : Nat} {e : ClaimEntry} (x l a : Nat) (h : s.claims.find g = some e)
    (he : ownKind e.state = none) : Quiet s (recordHolder s g x l a) := setClaim_unclaimed s h he rfl

/-- The state of an own entry changes in its times alone. -/
theorem setClaim_same {g : Nat} {e : ClaimEntry} {st : ClaimState} (hwf : Table.wf s.claims) (h : s.claims.find g = some e)
    (hst : ownKind st = ownKind e.state) : Quiet s (setClaim s g st) :=
  adjustClaims s fun d hd => by
    rw [Table.find_of_mem hwf hd] at h
    cases h
    exact hst

theorem claimTransmitted (g : Nat) (hwf : Table.wf s.claims) : Quiet s (claimTransmitted s g) := by
  unfold Machine.claimTransmitted
  split
  · exact setStale s ..
  · exact setStale s ..
  · exact setStale s ..
  · exact (setStale s ..).trans (offer ..)
  · next l h => exact setClaim_same s hwf h rfl
  · exact refl s

end Quiet

end Sys2Proof.Machine

/-! ## The engine's invariants as a case for each way the engine stands -/

namespace Sys2Proof.Machine

-- The kernel checks the lemmas one after another: many at once take a thread each.
set_option Elab.async false

/-! ### Ways the engine stands -/

/-- No entry is CLAIMING or OPEN. -/
def noClaim (s : State) : Prop := ∀ e ∈ s.claims, ownKind e.2.state = none

/-- Every entry that the station claims is that of group g and of one kind: OPEN, or CLAIMING. -/
def claimsOnly (s : State) (opened : Bool) (g : Nat) : Prop :=
  ∀ e ∈ s.claims, ∀ k, ownKind e.2.state = some k → k = opened ∧ e.1 = g

theorem noClaim.only {s : State} (h : noClaim s) (b : Bool) (g : Nat) : claimsOnly s b g := fun e he k hk => by
  rw [h e he] at hk
  cases hk

/-- The quick-only flag fits the path of a sweep in an engine state (R66, R67). -/
def pathFits (c : Ctx) (st : EngineState) : Prop :=
  (c.quickOnly = true → c.refPresent = true ∧ c.resumed = false) ∧
  (st = .quick → c.quickOnly = true) ∧ (st = .full → c.quickOnly = false)

/-- The four ways the engine stands: at rest, preparing an untaken request, preparing an untaken resume, and with a taken
sweep. -/
inductive Stand (s : State) : Prop
  | rest (state : atRest s.engine.state = true) (ctx : s.engine.ctx = none) (selection : s.sched.selection = none)
      (claims : noClaim s)
  | slot (n : Nat) (r : Request) (state : s.engine.state = .preparing) (ctx : s.engine.ctx = none)
      (selection : s.sched.selection = some (.slot n)) (enabled : isEnabled s n = true)
      (found : s.sched.slots.find n = some r) (selected : r.selected = true)
      (claims : claimsOnly s false (lightGroupOf s n))
  | save (c : Ctx) (state : s.engine.state = .preparing) (ctx : s.engine.ctx = some c)
      (selection : s.sched.selection = some .save) (resumed : c.resumed = true) (path : pathFits c .preparing)
      (claims : claimsOnly s false (lightGroupOf s c.span))
  | taken (c : Ctx) (state : atRest s.engine.state = false) (ctx : s.engine.ctx = some c)
      (selection : s.sched.selection = none) (path : pathFits c s.engine.state)
      (claims : claimsOnly s true (lightGroupOf s c.span))
      (ended : mayHoldClaim c s.engine.state = false → noClaim s)

/-- The engine is OFF exactly while the clock unit is not AWAKE, and the clock stands while UNCONFIGURED. -/
def clockFits (s : State) : Prop :=
  (s.port.station = .unconfigured → s.clock.state = .stopped) ∧ (s.engine.state = .off ↔ s.clock.state ≠ .awake)

/-- A suspended sweep is not a quick look. -/
def saveFits (s : State) : Prop := ∀ c ∈ s.sched.save, c.quickOnly = false

theorem contextFits_iff (s : State) :
    contextFits s = true ↔ (∀ c ∈ s.engine.ctx, pathFits c s.engine.state) ∧ saveFits s := by
  have hsave : (s.sched.save.all fun c => !c.quickOnly) = true ↔ saveFits s := by
    unfold saveFits
    cases s.sched.save <;> simp
  rw [contextFits, Bool.and_eq_true, hsave, and_congr_left_iff]
  intro _
  cases hc : s.engine.ctx with
  | none => simp
  | some c =>
    simp only [Option.mem_some_iff, forall_eq', pathFits, Bool.and_eq_true]
    refine and_congr ?_ ?_
    · cases c.quickOnly <;> simp
    · cases s.engine.state <;> simp

theorem claimFits_iff (s : State) (e : Nat × ClaimEntry) :
    claimFits s e = true ↔
      (ownKind e.2.state = some false → isUntaken s = true ∧ (engineSpan s).map (lightGroupOf s) = some e.1) ∧
      (ownKind e.2.state = some true → isUntaken s = false ∧
        ∃ c, s.engine.ctx = some c ∧ lightGroupOf s c.span = e.1 ∧ mayHoldClaim c s.engine.state = true) := by
  unfold claimFits
  cases e.2.state with
  | free => simp [ownKind]
  | held => simp [ownKind]
  | claiming => simp [ownKind]
  | opened => cases hc : s.engine.ctx <;> simp [ownKind]

/-- The engine is sound when it stands in one of the four ways. -/
theorem engineSound_iff (s : State) : s.engineSound ↔ clockFits s ∧ saveFits s ∧ Stand s := by
  simp only [State.engineSound, contextFits_iff, claimFits_iff]
  constructor
  · rintro ⟨hu, hoff, hrest, hsel, ⟨hpath, hsave⟩, hclaims⟩
    refine ⟨⟨hu, hoff⟩, hsave, ?_⟩
    cases hs : s.sched.selection with
    | none =>
      have hunt : isUntaken s = false := by simp [isUntaken, hs]
      cases hc : s.engine.ctx with
      | none =>
        refine .rest (hrest.2 ⟨hc, hs⟩) hc hs fun e he => ?_
        obtain ⟨hclaiming, hopen⟩ := hclaims e he
        match hk : ownKind e.2.state with
        | none => rfl
        | some false => rw [hunt] at hclaiming; cases (hclaiming hk).1
        | some true =>
          obtain ⟨_, c, hc', _⟩ := hopen hk
          rw [hc] at hc'
          cases hc'
      | some c =>
        have honly : ∀ e ∈ s.claims, ∀ k, ownKind e.2.state = some k →
            k = true ∧ lightGroupOf s c.span = e.1 ∧ mayHoldClaim c s.engine.state = true := by
          intro e he k hk
          obtain ⟨hclaiming, hopen⟩ := hclaims e he
          cases k with
          | false => rw [hunt] at hclaiming; cases (hclaiming hk).1
          | true =>
            obtain ⟨_, c', hc', hg, hm⟩ := hopen hk
            rw [hc] at hc'
            cases hc'
            exact ⟨rfl, hg, hm⟩
        refine .taken c ?_ hc hs (hpath c hc) (fun e he k hk => ?_) fun hm e he => ?_
        · rw [← Bool.not_eq_true, hrest, hc]
          simp
        · obtain ⟨hk', hg, _⟩ := honly e he k hk
          exact ⟨hk', hg.symm⟩
        · rw [Option.eq_none_iff_forall_ne_some]
          intro k hk
          obtain ⟨_, _, hm'⟩ := honly e he k hk
          rw [hm] at hm'
          cases hm'
    | some sel =>
      have hunt : isUntaken s = true := by simp [isUntaken, hs]
      have honly : ∀ n, engineSpan s = some n → claimsOnly s false (lightGroupOf s n) := by
        intro n hn e he k hk
        obtain ⟨hclaiming, hopen⟩ := hclaims e he
        cases k with
        | false =>
          obtain ⟨_, hg⟩ := hclaiming hk
          rw [hn] at hg
          exact ⟨rfl, (Option.some.inj hg).symm⟩
        | true => rw [hunt] at hopen; cases (hopen hk).1
      cases sel with
      | slot n =>
        simp only [selectionFits, hs, Bool.and_eq_true, decide_eq_true_eq, Option.isNone_iff_eq_none] at hsel
        obtain ⟨⟨⟨hstate, hctx⟩, henabled⟩, hslot⟩ := hsel
        split at hslot
        · next r hr => exact .slot n r hstate hctx hs henabled hr hslot (honly n (by simp [engineSpan, hctx, selectedSlot, hs]))
        · cases hslot
      | save =>
        simp only [selectionFits, hs, Bool.and_eq_true, decide_eq_true_eq] at hsel
        obtain ⟨hstate, hres⟩ := hsel
        cases hc : s.engine.ctx with
        | none => simp [hc] at hres
        | some c =>
          exact .save c hstate hc hs (by simpa [hc] using hres) (hstate ▸ hpath c hc) (honly c.span (by simp [engineSpan, hc]))
  · rintro ⟨⟨hu, hoff⟩, hsave, hstand⟩
    refine ⟨hu, hoff, ?_⟩
    cases hstand with
    | rest state ctx selection claims =>
      refine ⟨by simp [state, ctx, selection], by simp [selectionFits, selection], ⟨by simp [ctx], hsave⟩, fun e he => ?_⟩
      simp [claims e he]
    | slot n r state ctx selection enabled found selected claims =>
      refine ⟨by simp [state, selection, atRest], by simp [selectionFits, selection, state, ctx, enabled, found, selected],
        ⟨by simp [ctx], hsave⟩, fun e he => ⟨fun hk => ?_, fun hk => ?_⟩⟩
      · obtain ⟨_, hg⟩ := claims e he _ hk
        simp [isUntaken, selection, engineSpan, ctx, selectedSlot, hg]
      · cases (claims e he _ hk).1
    | save c state ctx selection resumed path claims =>
      refine ⟨by simp [state, selection, atRest], by simp [selectionFits, selection, state, ctx, resumed],
        ⟨by simpa [ctx, state] using path, hsave⟩, fun e he => ⟨fun hk => ?_, fun hk => ?_⟩⟩
      · obtain ⟨_, hg⟩ := claims e he _ hk
        simp [isUntaken, selection, engineSpan, ctx, hg]
      · cases (claims e he _ hk).1
    | taken c state ctx selection path claims ended =>
      refine ⟨by simp [state, ctx], by simp [selectionFits, selection], ⟨by simpa [ctx] using path, hsave⟩,
        fun e he => ⟨fun hk => ?_, fun hk => ?_⟩⟩
      · cases (claims e he _ hk).1
      · obtain ⟨_, hg⟩ := claims e he _ hk
        refine ⟨by simp [isUntaken, selection], c, ctx, hg.symm, ?_⟩
        rw [← Bool.not_eq_false]
        intro hm
        rw [ended hm e he] at hk
        cases hk

/-! ### The invariants together -/

/-- The engine is sound, and the tables it reads are in canonical form. -/
structure EngineInv (s : State) : Prop where
  spans : Table.wf s.cfg.spans
  wf : Table.wf s.claims
  clock : clockFits s
  save : saveFits s
  stand : Stand s

theorem EngineInv.sound {s : State} (h : EngineInv s) : s.engineSound := (engineSound_iff s).2 ⟨h.clock, h.save, h.stand⟩

theorem EngineInv.of_sound {s : State} (ht : s.tablesSound) (h : s.engineSound) : EngineInv s := by
  obtain ⟨hclock, hsave, hstand⟩ := (engineSound_iff s).1 h
  obtain ⟨_, hspans, _, _, _, _, _, hclaims, _⟩ := ht
  exact ⟨hspans, hclaims, hclock, hsave, hstand⟩

/-- The laser is safe as well. -/
structure FiringInv (s : State) : Prop extends EngineInv s where
  firing : s.firingSound

/-- No two enabled spans share a page, and their states follow the directory. -/
def storeFits (s : State) : Prop :=
  ((enabledSpans s).Pairwise fun e f => ∀ p ∈ e.2.pages, p ∉ f.2.pages) ∧
  (∀ e ∈ enabledSpans s, fingerprintFits s e.1 e.2) ∧ ∀ x ∈ s.store.fp.keys, isEnabled s x = true

/-- Whatever writes does so on its own span, which is WRITING (R10, R14). -/
def writersFit (s : State) : Prop :=
  (s.port.station = .unconfigured → s.store.load = none) ∧
  (∀ l ∈ s.store.load, fpOf s l.span = .writing ∧ engineSpan s ≠ some l.span ∧ ctxIs s.sched.save l.span = false) ∧
  ∀ c ∈ s.engine.ctx, s.engine.state = .storing → fpOf s c.span = .writing

theorem pagesSound_iff (s : State) : s.pagesSound ↔ storeFits s ∧ writersFit s := by
  simp only [State.pagesSound, storeFits, writersFit, and_assoc]

/-- The fingerprint states follow the directory as well (R7). -/
structure PagesInv (s : State) : Prop extends EngineInv s where
  dir : Table.wf s.store.dir
  fp : Table.wf s.store.fp
  store : storeFits s
  writers : writersFit s

/-- Each of the three invariants that holds of s holds of t. -/
structure Kept (s t : State) : Prop where
  engine : EngineInv s → EngineInv t
  firing : FiringInv s → FiringInv t
  pages : PagesInv s → PagesInv t

namespace Kept

theorem refl (s : State) : Kept s s := ⟨id, id, id⟩

theorem trans {s t u : State} (h : Kept s t) (h' : Kept t u) : Kept s u :=
  ⟨h'.engine ∘ h.engine, h'.firing ∘ h.firing, h'.pages ∘ h.pages⟩

/-- What is kept may be shown under the first invariant. -/
theorem of_engine {s t : State} (h : EngineInv s → Kept s t) : Kept s t :=
  ⟨fun hs => (h hs).engine hs, fun hs => (h hs.toEngineInv).firing hs, fun hs => (h hs.toEngineInv).pages hs⟩

theorem ite {p : Prop} [Decidable p] {s t u : State} (ht : p → Kept s t) (hu : ¬ p → Kept s u) :
    Kept s (if p then t else u) := by
  split
  · exact ht ‹_›
  · exact hu ‹_›

end Kept

/-! ### What the parts read -/

section
variable {s t : State}

theorem enabledRec_congr (h : t.cfg = s.cfg) (n : Nat) : enabledRec t n = enabledRec s n := by rw [enabledRec, h, enabledRec]

theorem lightGroupOf_congr (h : t.cfg = s.cfg) (n : Nat) : lightGroupOf t n = lightGroupOf s n := by
  rw [lightGroupOf, enabledRec_congr h, lightGroupOf]

theorem isEnabled_congr (h : t.cfg = s.cfg) (n : Nat) : isEnabled t n = isEnabled s n := by
  rw [isEnabled, enabledRec_congr h, isEnabled]

theorem storeFits_congr (hcfg : t.cfg = s.cfg) (hdir : t.store.dir = s.store.dir) (hfp : t.store.fp = s.store.fp) :
    storeFits t ↔ storeFits s := by
  simp only [storeFits, fingerprintFits, pageOf, fpOf, enabledSpans, isEnabled, enabledRec, hcfg, hdir, hfp]

theorem core_eq {c d : Ctx} (h : c.core = d.core) :
    c.span = d.span ∧ c.quickOnly = d.quickOnly ∧ c.refPresent = d.refPresent ∧ c.resumed = d.resumed := by
  simpa [Ctx.core] using h

theorem pathFits_congr {c d : Ctx} (h : c.core = d.core) (st : EngineState) : pathFits c st ↔ pathFits d st := by
  obtain ⟨_, hq, hr, hm⟩ := core_eq h
  rw [pathFits, pathFits, hq, hr, hm]

theorem mayHoldClaim_congr {c d : Ctx} (h : c.core = d.core) (st : EngineState) : mayHoldClaim c st = mayHoldClaim d st := by
  obtain ⟨_, hq, _, _⟩ := core_eq h
  cases st <;> simp [mayHoldClaim, hq]

end

theorem ctxIs_of_subset {a b : Option Ctx} (h : ∀ c ∈ b, c ∈ a) {n : Nat} (ha : ctxIs a n = false) : ctxIs b n = false := by
  cases b with
  | none => rfl
  | some c => rwa [h c rfl] at ha

/-! ### What leaves the invariants as they are -/

namespace Quiet
variable {s t : State} (h : Quiet s t)
include h

theorem ctx_none (hc : s.engine.ctx = none) : t.engine.ctx = none := by
  have := h.ctx
  rwa [hc, Option.map_none, Option.map_eq_none_iff] at this

theorem ctx_some {c : Ctx} (hc : s.engine.ctx = some c) : ∃ d, t.engine.ctx = some d ∧ d.core = c.core := by
  have := h.ctx
  rwa [hc, Option.map_some, Option.map_eq_some_iff] at this

theorem symm_ctx {d : Ctx} (hd : t.engine.ctx = some d) : ∃ c, s.engine.ctx = some c ∧ d.core = c.core := by
  cases hc : s.engine.ctx with
  | none => rw [h.ctx_none hc] at hd; cases hd
  | some c =>
    obtain ⟨d', hd', hcore⟩ := h.ctx_some hc
    rw [hd] at hd'
    cases hd'
    exact ⟨c, rfl, hcore⟩

theorem engineSpan_eq : engineSpan t = engineSpan s := by
  unfold engineSpan
  cases hc : s.engine.ctx with
  | none =>
    rw [h.ctx_none hc]
    simp only [selectedSlot, h.selection]
  | some c =>
    obtain ⟨d, hd, hcore⟩ := h.ctx_some hc
    rw [hd]
    exact congrArg some (core_eq hcore).1

theorem noClaim (hs : noClaim s) : noClaim t := fun e he => by
  rw [Option.eq_none_iff_forall_ne_some]
  intro k hk
  obtain ⟨d, hd, _, hdk⟩ := h.claims e he k hk
  rw [hs d hd] at hdk
  cases hdk

theorem claimsOnly {b : Bool} {g : Nat} (hs : claimsOnly s b g) : claimsOnly t b g := fun e he k hk => by
  obtain ⟨d, hd, hde, hdk⟩ := h.claims e he k hk
  rw [← hde]
  exact hs d hd k hdk

theorem stand (hs : Stand s) : Stand t := by
  cases hs with
  | rest state ctx selection claims =>
    exact .rest (h.state ▸ state) (h.ctx_none ctx) (h.selection.trans selection) (h.noClaim claims)
  | slot n r state ctx selection enabled found selected claims =>
    obtain ⟨q, hq, hqs⟩ := h.slots n r selection found selected
    exact .slot n q (h.state.trans state) (h.ctx_none ctx) (h.selection.trans selection)
      ((isEnabled_congr h.cfg n).trans enabled) hq hqs (lightGroupOf_congr h.cfg n ▸ h.claimsOnly claims)
  | save c state ctx selection resumed path claims =>
    obtain ⟨d, hd, hcore⟩ := h.ctx_some ctx
    obtain ⟨hspan, _, _, hres⟩ := core_eq hcore
    exact .save d (h.state.trans state) hd (h.selection.trans selection) (hres.trans resumed)
      ((pathFits_congr hcore _).2 path) (by rw [lightGroupOf_congr h.cfg, hspan]; exact h.claimsOnly claims)
  | taken c state ctx selection path claims ended =>
    obtain ⟨d, hd, hcore⟩ := h.ctx_some ctx
    obtain ⟨hspan, _, _, _⟩ := core_eq hcore
    refine .taken d (h.state ▸ state) hd (h.selection.trans selection) ?_ ?_ fun hm => h.noClaim (ended ?_)
    · rw [h.state]
      exact (pathFits_congr hcore _).2 path
    · rw [lightGroupOf_congr h.cfg, hspan]
      exact h.claimsOnly claims
    · rwa [h.state, mayHoldClaim_congr hcore] at hm

theorem engineInv (hs : EngineInv s) : EngineInv t where
  spans := by rw [h.cfg]; exact hs.spans
  wf := by rw [Table.wf, h.keys]; exact hs.wf
  clock := ⟨fun hu => h.stopped (hs.clock.1 (h.station hu)), by rw [h.state, Ne, h.awake]; exact hs.clock.2⟩
  save := fun c hc => hs.save c (h.save c hc)
  stand := h.stand hs.stand

theorem firingSound (hs : s.firingSound) : t.firingSound := by
  obtain ⟨hfault, hfire⟩ := hs
  refine ⟨fun hsel => h.fault (hfault (h.selection ▸ hsel)), fun d hd hsel hm => ?_⟩
  obtain ⟨c, hc, hcore⟩ := h.symm_ctx hd
  obtain ⟨hspan, _, _, _⟩ := core_eq hcore
  obtain ⟨hnone, hgroup, hswitch⟩ := hfire c hc (h.selection ▸ hsel) (by rwa [h.state, mayHoldClaim_congr hcore] at hm)
  rw [lightGroupOf_congr h.cfg, hspan, h.state, h.switch]
  exact ⟨h.fault hnone, hgroup.imp_right (h.opens _), hswitch⟩

theorem writersFit (hs : writersFit s) : writersFit t := by
  obtain ⟨hun, hload, hstoring⟩ := hs
  simp only [Machine.writersFit, h.load, fpOf, h.fp, h.engineSpan_eq, h.state]
  refine ⟨hun ∘ h.station, fun l hl => ?_, fun d hd hst => ?_⟩
  · obtain ⟨hfp, hspan, hsave⟩ := hload l hl
    exact ⟨hfp, hspan, ctxIs_of_subset h.save hsave⟩
  obtain ⟨c, hc, hcore⟩ := h.symm_ctx hd
  rw [(core_eq hcore).1]
  exact hstoring c hc hst

theorem kept : Kept s t where
  engine := h.engineInv
  firing hs := ⟨h.engineInv hs.toEngineInv, h.firingSound hs.firing⟩
  pages hs := ⟨h.engineInv hs.toEngineInv, h.dir ▸ hs.dir, h.fp ▸ hs.fp, (storeFits_congr h.cfg h.dir h.fp).2 hs.store,
    h.writersFit hs.writers⟩

end Quiet

end Sys2Proof.Machine

/-! ## What selection, taking, giving back, ends and suspension keep of the engine's invariants -/

namespace Sys2Proof.Machine

-- The kernel checks the lemmas one after another: many at once take a thread each.
set_option Elab.async false

/-! ### The frame of a change of the engine -/

/-- What no change of the engine's work touches. -/
structure Frame (s t : State) : Prop where
  station : t.port.station = .unconfigured → s.port.station = .unconfigured
  stopped : s.clock.state = .stopped → t.clock.state = .stopped
  awake : t.clock.state = .awake ↔ s.clock.state = .awake
  cfg : t.cfg = s.cfg
  keys : t.claims.keys = s.claims.keys

/-- Directory, fingerprint states and load context are the same. -/
structure SameStore (s t : State) : Prop where
  dir : t.store.dir = s.store.dir
  fp : t.store.fp = s.store.fp
  load : t.store.load = s.store.load

theorem SameStore.of_eq {s t : State} (h : t.store = s.store := by simp) : SameStore s t := by
  constructor <;> rw [h]

theorem SameStore.trans {s t u : State} (h : SameStore s t) (h' : SameStore t u) : SameStore s u :=
  ⟨h'.dir.trans h.dir, h'.fp.trans h.fp, h'.load.trans h.load⟩

theorem Quiet.sameStore {s t : State} (h : Quiet s t) : SameStore s t := ⟨h.dir, h.fp, h.load⟩

theorem Quiet.frame {s t : State} (h : Quiet s t) : Frame s t := ⟨h.station, h.stopped, h.awake, h.cfg, h.keys⟩

namespace Frame

theorem of_keeps {s t : State} (port : t.port = s.port := by simp) (clock : t.clock.state = s.clock.state := by simp)
    (cfg : t.cfg = s.cfg := by simp) (keys : t.claims.keys = s.claims.keys := by simp) : Frame s t :=
  ⟨fun h => by rw [← port, h], fun h => by rw [clock, h], by rw [clock], cfg, keys⟩

theorem refl (s : State) : Frame s s := of_keeps

theorem trans {s t u : State} (h : Frame s t) (h' : Frame t u) : Frame s u :=
  ⟨h.station ∘ h'.station, h'.stopped ∘ h.stopped, h'.awake.trans h.awake, h'.cfg.trans h.cfg, h'.keys.trans h.keys⟩

end Frame

/-- The load context and the suspended sweep keep apart, and a load writes. -/
def loadFits (s : State) : Prop :=
  (s.port.station = .unconfigured → s.store.load = none) ∧
  ∀ l ∈ s.store.load, fpOf s l.span = .writing ∧ ctxIs s.sched.save l.span = false

/-- The store's part of the invariants. -/
structure StoreInv (s : State) : Prop where
  dir : Table.wf s.store.dir
  fp : Table.wf s.store.fp
  fits : storeFits s
  load : loadFits s

theorem PagesInv.storeInv {s : State} (h : PagesInv s) : StoreInv s := by
  obtain ⟨hun, hload, _⟩ := h.writers
  exact ⟨h.dir, h.fp, h.store, hun, fun l hl => ⟨(hload l hl).1, (hload l hl).2.2⟩⟩

theorem StoreInv.writersFit {s : State} (h : StoreInv s)
    (hspan : ∀ l ∈ s.store.load, engineSpan s ≠ some l.span)
    (hstoring : ∀ c ∈ s.engine.ctx, s.engine.state = .storing → fpOf s c.span = .writing) : writersFit s :=
  ⟨h.load.1, fun l hl => ⟨(h.load.2 l hl).1, hspan l hl, (h.load.2 l hl).2⟩, hstoring⟩

/-- The store as it was, and no other span with a suspended sweep than before or than the one in the engine. -/
theorem SameStore.storeInv {s t : State} (h : SameStore s t) (f : Frame s t) (hs : PagesInv s)
    (hsave : ∀ n, ctxIs t.sched.save n = true → engineSpan s = some n ∨ ctxIs s.sched.save n = true) : StoreInv t := by
  obtain ⟨hun, hload, _⟩ := hs.writers
  refine ⟨h.dir ▸ hs.dir, h.fp ▸ hs.fp, (storeFits_congr f.cfg h.dir h.fp).2 hs.store, ?_, fun l hl => ?_⟩
  · rw [h.load]
    exact hun ∘ f.station
  · rw [h.load] at hl
    obtain ⟨hfp, hspan, hs'⟩ := hload l hl
    refine ⟨by rw [fpOf, h.fp]; exact hfp, ?_⟩
    rw [← Bool.not_eq_true]
    intro hc
    rcases hsave _ hc with hc | hc
    · exact hspan hc
    · rw [hs'] at hc; cases hc

theorem Frame.kept {s t : State} (f : Frame s t) (off : t.engine.state = .off ↔ s.engine.state = .off)
    (save : EngineInv s → saveFits t) (stand : EngineInv s → Stand t) (firing : FiringInv s → t.firingSound)
    (pages : PagesInv s → StoreInv t ∧ writersFit t) : Kept s t := by
  have hengine : EngineInv s → EngineInv t := fun hs =>
    { spans := by rw [f.cfg]; exact hs.spans
      wf := by rw [Table.wf, f.keys]; exact hs.wf
      clock := ⟨f.stopped ∘ hs.clock.1 ∘ f.station, by rw [off, Ne, f.awake]; exact hs.clock.2⟩
      save := save hs
      stand := stand hs }
  refine ⟨hengine, fun hs => ⟨hengine hs.toEngineInv, firing hs⟩, fun hs => ?_⟩
  obtain ⟨hstore, hwriters⟩ := pages hs
  exact ⟨hengine hs.toEngineInv, hstore.dir, hstore.fp, hstore.fits, hwriters⟩

/-- The engine becomes IDLE, empty and without a claim. -/
theorem Frame.kept_idle {s t : State} (f : Frame s t) (hs : s.engine.state ≠ .off) (state : t.engine.state = .idle)
    (ctx : t.engine.ctx = none) (selection : t.sched.selection = none) (claims : noClaim t)
    (save : EngineInv s → saveFits t) (store : PagesInv s → StoreInv t) : Kept s t := by
  refine f.kept ?_ save (fun _ => .rest (by rw [state]; rfl) ctx selection claims) (fun _ => ?_) fun hp => ⟨store hp, ?_⟩
  · simp [state, hs]
  · exact ⟨fun h => absurd selection h, fun c hc => by rw [ctx] at hc; cases hc⟩
  · refine (store hp).writersFit (fun l hl => ?_) fun c hc => ?_
    · simp [engineSpan, ctx, selectedSlot, selection]
    · rw [ctx] at hc; cases hc

/-- The engine holds a taken sweep. -/
theorem Frame.kept_taken {s t : State} (f : Frame s t) (same : SameStore s t) {c : Ctx}
    (hs : s.engine.state ≠ .off) (state : atRest t.engine.state = false) (ctx : t.engine.ctx = some c)
    (selection : t.sched.selection = none) (save : ∀ d ∈ t.sched.save, d ∈ s.sched.save)
    (path : EngineInv s → pathFits c t.engine.state) (claims : claimsOnly t true (lightGroupOf t c.span))
    (ended : mayHoldClaim c t.engine.state = false → noClaim t)
    (firing : FiringInv s → mayHoldClaim c t.engine.state = true →
      t.engine.laserFault = none ∧ (lightGroupOf t c.span = 0 ∨ isOpen t (lightGroupOf t c.span) = true) ∧
      (t.engine.state ≠ .preparing → t.switch = .settled c.span))
    (span : PagesInv s → ∀ l ∈ s.store.load, l.span ≠ c.span)
    (storing : PagesInv s → t.engine.state = .storing → fpOf s c.span = .writing) : Kept s t := by
  have hoff : t.engine.state ≠ .off := fun h => by rw [h] at state; cases state
  refine f.kept (by simp [hs, hoff]) (fun he d hd => he.save d (save d hd))
    (fun he => .taken c state ctx selection (path he) claims ended) (fun hf => ⟨fun h => absurd selection h, ?_⟩)
    fun hp => ?_
  · rintro d hd _ hm
    rw [ctx] at hd
    cases hd
    exact firing hf hm
  · have hstore : StoreInv t := same.storeInv f hp fun n hn => .inr <| by
      rw [← Bool.not_eq_false]
      intro h
      rw [ctxIs_of_subset save h] at hn
      cases hn
    refine ⟨hstore, hstore.writersFit (fun l hl h => ?_) fun d hd hst => ?_⟩
    · rw [same.load] at hl
      rw [engineSpan, ctx] at h
      exact span hp l hl (Option.some.inj h).symm
    · rw [ctx] at hd
      cases hd
      rw [fpOf, same.fp]
      exact storing hp hst

/-! ### Claims given up, released or lost -/

theorem setClaim_keys (s : State) (g : Nat) (st : ClaimState) : (setClaim s g st).claims.keys = s.claims.keys :=
  Table.keys_adjust s.claims g fun e => { e with state := st }

theorem noClaim_setClaim {s : State} {b : Bool} {g : Nat} {st : ClaimState} (h : claimsOnly s b g) (hst : ownKind st = none) :
    noClaim (setClaim s g st) := by
  rintro _ he
  obtain ⟨d, hd, rfl⟩ := List.mem_map.1 he
  split
  · exact hst
  · next hne =>
    rw [Option.eq_none_iff_forall_ne_some]
    intro k hk
    exact hne (h d hd k hk).2

theorem claimsOnly_setClaim {s : State} {b : Bool} {g : Nat} {st : ClaimState} {k : Bool} (h : claimsOnly s b g)
    (hst : ownKind st = some k) : claimsOnly (setClaim s g st) k g := by
  rintro _ he k' hk
  obtain ⟨d, hd, rfl⟩ := List.mem_map.1 he
  split at hk
  · next hg =>
    simp only at hk
    rw [hst] at hk
    cases hk
    exact ⟨rfl, by rw [if_pos hg]; exact hg⟩
  · next hne => exact absurd (h d hd k' hk).2 hne

/-- Nothing is claimed when the group's entry is not of the one kind that there could be. -/
theorem noClaim_of_find {s : State} {b : Bool} {g : Nat} (hwf : Table.wf s.claims) (h : claimsOnly s b g)
    (hn : ∀ e, s.claims.find g = some e → ownKind e.state ≠ some b) : noClaim s := by
  intro e he
  rw [Option.eq_none_iff_forall_ne_some]
  intro k hk
  obtain ⟨rfl, hg⟩ := h e he k hk
  exact hn e.2 (hg ▸ Table.find_of_mem hwf he) hk

section
variable {s : State} {g : Nat}

theorem noClaim_releaseClaim (hwf : Table.wf s.claims) (h : claimsOnly s true g) : noClaim (releaseClaim s g) := by
  unfold releaseClaim
  split
  · exact (Quiet.offer _ _ _).noClaim (noClaim_setClaim h rfl)
  · next hn =>
    refine noClaim_of_find hwf h fun e he hk => ?_
    obtain ⟨st, m⟩ := e
    cases st <;> simp [ownKind] at hk
    exact hn _ _ _ he

theorem noClaim_giveUpClaim (hwf : Table.wf s.claims) (h : claimsOnly s false g) : noClaim (giveUpClaim s g) := by
  unfold giveUpClaim
  split
  · exact (Quiet.offer _ _ _).noClaim (noClaim_setClaim h rfl)
  · have hfree : noClaim (setClaim (askRemove s (isClaimOrHold g)) g .free) :=
      noClaim_setClaim ((Quiet.askRemove s _).claimsOnly h) rfl
    split
    · exact (Quiet.setStale _ _ _).noClaim hfree
    · exact hfree
  · next hn hn' =>
    refine noClaim_of_find hwf h fun e he hk => ?_
    obtain ⟨st, m⟩ := e
    cases st <;> simp [ownKind] at hk
    next l t =>
      cases t with
      | none => exact hn' _ _ he
      | some t => exact hn _ _ _ he

theorem noClaim_withdrawClaim (x l a : Nat) (hwf : Table.wf s.claims) (h : claimsOnly s false g) :
    noClaim (withdrawClaim s g x l a) := by
  unfold withdrawClaim
  split
  · exact (Quiet.setStale _ _ _).noClaim ((Quiet.askRemove _ _).noClaim (noClaim_setClaim h rfl))
  · next hn =>
    refine noClaim_of_find hwf h fun e he hk => ?_
    obtain ⟨st, m⟩ := e
    cases st <;> simp [ownKind] at hk
    exact hn _ _ _ he

theorem noClaim_loseOpen (x l a : Nat) {b : Bool} (h : claimsOnly s b g) : noClaim (loseOpen s g x l a) :=
  (Quiet.askRemove _ _).noClaim (noClaim_setClaim h rfl)

end

namespace Frame
variable (s : State)

theorem setClaim (g : Nat) (st : ClaimState) : Frame s (setClaim s g st) := of_keeps (keys := setClaim_keys ..)

theorem askClaim (g l : Nat) : Frame s (askClaim s g l) := by
  unfold Machine.askClaim
  split
  · exact ((Quiet.askRemove s _).frame.trans (setClaim _ g _)).trans (Quiet.offer _ _ _).frame
  · exact refl s

theorem releaseClaim (g : Nat) : Frame s (releaseClaim s g) := by
  unfold Machine.releaseClaim
  split
  · exact (setClaim s g _).trans (Quiet.offer _ _ _).frame
  · exact refl s

theorem giveUpClaim (g : Nat) : Frame s (giveUpClaim s g) := by
  unfold Machine.giveUpClaim
  split
  · exact (setClaim s g _).trans (Quiet.offer _ _ _).frame
  · have hfree := (Quiet.askRemove s (isClaimOrHold g)).frame.trans (setClaim _ g .free)
    split
    · exact hfree.trans (Quiet.setStale _ _ _).frame
    · exact hfree
  · exact refl s

theorem withdrawClaim (g x l a : Nat) : Frame s (withdrawClaim s g x l a) := by
  unfold Machine.withdrawClaim
  split
  · exact ((setClaim s g _).trans (Quiet.askRemove _ _).frame).trans (Quiet.setStale _ _ _).frame
  · exact refl s

theorem loseOpen (g x l a : Nat) : Frame s (loseOpen s g x l a) := (setClaim s g _).trans (Quiet.askRemove _ _).frame

end Frame

/-! ### The end of PREPARING -/

theorem kept_checkPrepared (s : State) : Kept s (checkPrepared s) := by
  refine .of_engine fun he => ?_
  unfold checkPrepared
  split
  next c hc =>
    split
    next hcond =>
      obtain ⟨hstate, hsel, hswitch⟩ := hcond
      have hstand := he.stand
      have hclaims : claimsOnly s true (lightGroupOf s c.span) ∧ pathFits c .preparing := by
        cases hstand with
        | rest _ ctx => rw [ctx] at hc; cases hc
        | slot _ _ _ _ selection => rw [hsel] at selection; cases selection
        | save _ _ _ selection => rw [hsel] at selection; cases selection
        | taken d _ ctx _ path claims =>
          rw [ctx] at hc
          cases hc
          exact ⟨claims, hstate ▸ path⟩
      obtain ⟨honly, hpath⟩ := hclaims
      have hfire : FiringInv s → s.engine.laserFault = none ∧
          (lightGroupOf s c.span = 0 ∨ isOpen s (lightGroupOf s c.span) = true) := fun hf => by
        obtain ⟨hfault, hgroup, _⟩ := hf.firing.2 c hc hsel (by rw [hstate]; rfl)
        exact ⟨hfault, hgroup⟩
      have hspan : PagesInv s → ∀ l ∈ s.store.load, l.span ≠ c.span := fun hp l hl h => by
        have := (hp.writers.2.1 l hl).2.1
        rw [engineSpan, hc, h] at this
        exact this rfl
      have hoff : s.engine.state ≠ .off := by rw [hstate]; decide
      split
      · next hres =>
        refine Frame.kept_taken (t := enter s .full) ⟨id, id, .rfl, rfl, rfl⟩ (.of_eq rfl) (c := { c with phase := .full }) hoff
          rfl (by simp [enter, hc]) hsel (fun _ => id) (fun _ => ?_) honly (nofun) (fun hf _ => ?_) hspan
          (fun _ => nofun)
        · refine ⟨hpath.1, nofun, fun _ => ?_⟩
          rw [← Bool.not_eq_true]
          intro hq
          have := (hpath.1 hq).2
          rw [hres] at this
          cases this
        · exact ⟨(hfire hf).1, (hfire hf).2, fun _ => hswitch⟩
      · refine Frame.kept_taken (t := enterDark s) ⟨id, id, .rfl, rfl, rfl⟩ (.of_eq rfl)
          (c := { c with phase := .dark }) hoff rfl (by simp [enterDark, enter, hc]) hsel (fun _ => id) (fun _ => ?_) honly
          (nofun) (fun hf _ => ?_) hspan (fun _ => nofun)
        · exact ⟨hpath.1, nofun, nofun⟩
        · exact ⟨(hfire hf).1, (hfire hf).2, fun _ => hswitch⟩
    next => exact .refl s
  next => exact .refl s

/-! ### A preparation given back, and taking -/

/-- A preparation is given back once nothing is claimed for it. -/
theorem kept_giveBack {s u : State} (f : Frame s u) (same : SameStore s u) (hctx : u.engine.ctx = s.engine.ctx)
    (hsched : u.sched = s.sched) (huntaken : isUntaken s = true) (hclaims : noClaim u) : Kept s (giveBack u) := by
  refine .of_engine fun he => ?_
  have hstand := he.stand
  unfold giveBack
  rw [hsched, hctx]
  cases hstand with
  | rest _ _ selection => rw [isUntaken, selection] at huntaken; cases huntaken
  | taken _ _ _ selection => rw [isUntaken, selection] at huntaken; cases huntaken
  | slot n r state ctx selection =>
    rw [selection]
    refine Frame.kept_idle (s := s) ⟨f.station, f.stopped, f.awake, f.cfg, f.keys⟩
      (by rw [state]; decide) rfl rfl rfl hclaims (fun h => ?_) fun hp => ?_
    · show ∀ c ∈ u.sched.save, _
      rw [hsched]
      exact h.save
    · refine SameStore.storeInv (s := s) ⟨same.dir, same.fp, same.load⟩ ?_ hp fun m hm => .inr ?_
      · exact ⟨f.station, f.stopped, f.awake, f.cfg, f.keys⟩
      · have hm' : ctxIs u.sched.save m = true := hm
        rwa [hsched] at hm'
  | save c state ctx selection resumed path =>
    rw [selection]
    have hslow : c.quickOnly = false := by
      rw [← Bool.not_eq_true]
      intro hq
      have := (path.1 hq).2
      rw [resumed] at this
      cases this
    refine Frame.kept_idle (s := s) ⟨f.station, f.stopped, f.awake, f.cfg, f.keys⟩
      (by rw [state]; decide) rfl rfl rfl hclaims (fun h d hd => ?_) fun hp => ?_
    · simp only [ctx, Option.map_some, Option.mem_some_iff] at hd
      rw [← hd]
      exact hslow
    · refine SameStore.storeInv (s := s) ⟨same.dir, same.fp, same.load⟩ ?_ hp fun m hm => .inl ?_
      · exact ⟨f.station, f.stopped, f.awake, f.cfg, f.keys⟩
      · simp only [ctx, Option.map_some, ctxIs, decide_eq_true_eq] at hm
        rw [engineSpan, ctx]
        exact congrArg some hm

/-- A selected request is taken when its group is 0 or its claim, alone of the station's, is OPEN. -/
theorem kept_takeSlot {s u : State} {n : Nat} (f : Frame s u) (same : SameStore s u) (hengine : u.engine = s.engine)
    (hsched : u.sched = s.sched) (hsel : s.sched.selection = some (.slot n))
    (hclaims : claimsOnly u true (lightGroupOf s n))
    (hopen : lightGroupOf s n = 0 ∨ isOpen u (lightGroupOf s n) = true) : Kept s (takeSlot u n) := by
  refine .of_engine fun he => ?_
  have hstand := he.stand
  cases hstand with
  | rest _ _ selection => rw [hsel] at selection; cases selection
  | taken _ _ _ selection => rw [hsel] at selection; cases selection
  | save _ _ _ selection => rw [hsel] at selection; cases selection
  | slot m r state ctx selection enabled found =>
    rw [hsel] at selection
    cases selection
    obtain ⟨rec, hrec⟩ := Option.isSome_iff_exists.1 enabled
    rw [takeSlot_eq u n r rec (by rw [hsched, found]) (by rw [enabledRec_congr f.cfg, hrec])]
    refine Frame.kept_taken (s := s) ⟨f.station, f.stopped, f.awake, f.cfg, f.keys⟩
      ⟨same.dir, same.fp, same.load⟩ (c := newCtx u n r rec) (by rw [state]; decide) ?_ rfl rfl ?_ (fun _ => ?_) ?_ ?_
      (fun hf _ => ?_) (fun hp l hl h => ?_) fun _ h => ?_
    · show atRest u.engine.state = false
      rw [hengine, state]; rfl
    · show ∀ d ∈ u.sched.save, _
      rw [hsched]; exact fun _ => id
    · show pathFits _ u.engine.state
      rw [hengine, state]
      refine ⟨fun hq => ⟨?_, rfl⟩, nofun, nofun⟩
      simp only [newCtx, Bool.and_eq_true] at hq ⊢
      exact hq.2
    · show claimsOnly u true (lightGroupOf u n)
      rw [lightGroupOf_congr f.cfg]
      exact hclaims
    · show mayHoldClaim _ u.engine.state = false → _
      rw [hengine, state]
      exact nofun
    · have hfault := hf.firing.1 (by rw [hsel]; exact nofun)
      refine ⟨by show u.engine.laserFault = none; rw [hengine, hfault], ?_, fun h => absurd ?_ h⟩
      · show lightGroupOf u n = 0 ∨ isOpen u (lightGroupOf u n) = true
        rw [lightGroupOf_congr f.cfg]
        exact hopen
      · show u.engine.state = .preparing
        rw [hengine, state]
    · have hne := (hp.writers.2.1 l hl).2.1
      rw [engineSpan, ctx] at hne
      simp only [selectedSlot, hsel] at hne
      exact hne (congrArg some h.symm)
    · have : u.engine.state = .storing := h
      rw [hengine, state] at this
      cases this

/-- A resume counts as taken when its group is 0 or its claim, alone of the station's, is OPEN. -/
theorem kept_takeResume {s u : State} {c : Ctx} (f : Frame s u) (same : SameStore s u) (hengine : u.engine = s.engine)
    (hsched : u.sched = s.sched) (hsel : s.sched.selection = some .save) (hc : s.engine.ctx = some c)
    (hclaims : claimsOnly u true (lightGroupOf s c.span))
    (hopen : lightGroupOf s c.span = 0 ∨ isOpen u (lightGroupOf s c.span) = true) :
    Kept s { u with sched := { u.sched with selection := none } } := by
  refine .of_engine fun he => ?_
  have hstand := he.stand
  cases hstand with
  | rest _ _ selection => rw [hsel] at selection; cases selection
  | taken _ _ _ selection => rw [hsel] at selection; cases selection
  | slot _ _ _ _ selection => rw [hsel] at selection; cases selection
  | save d state ctx selection resumed path =>
    rw [hc] at ctx
    cases ctx
    refine Frame.kept_taken (s := s) ⟨f.station, f.stopped, f.awake, f.cfg, f.keys⟩
      ⟨same.dir, same.fp, same.load⟩ (c := c) (by rw [state]; decide) ?_ ?_ rfl ?_ (fun _ => ?_) ?_ ?_
      (fun hf _ => ?_) (fun hp l hl h => ?_) fun _ h => ?_
    · show atRest u.engine.state = false
      rw [hengine, state]; rfl
    · show u.engine.ctx = some c
      rw [hengine, hc]
    · show ∀ d ∈ u.sched.save, _
      rw [hsched]; exact fun _ => id
    · show pathFits _ u.engine.state
      rw [hengine, state]
      exact path
    · show claimsOnly u true (lightGroupOf u c.span)
      rw [lightGroupOf_congr f.cfg]
      exact hclaims
    · show mayHoldClaim _ u.engine.state = false → _
      rw [hengine, state]
      exact nofun
    · have hfault := hf.firing.1 (by rw [hsel]; exact nofun)
      refine ⟨by show u.engine.laserFault = none; rw [hengine, hfault], ?_, fun h => absurd ?_ h⟩
      · show lightGroupOf u c.span = 0 ∨ isOpen u (lightGroupOf u c.span) = true
        rw [lightGroupOf_congr f.cfg]
        exact hopen
      · show u.engine.state = .preparing
        rw [hengine, state]
    · have hne := (hp.writers.2.1 l hl).2.1
      rw [engineSpan, hc] at hne
      exact hne (congrArg some h.symm)
    · have : u.engine.state = .storing := h
      rw [hengine, state] at this
      cases this

end Sys2Proof.Machine

/-! ## Selection, ends, aborts and suspension keep the engine's invariants -/

namespace Sys2Proof.Machine

-- The kernel checks the lemmas one after another: many at once take a thread each.
set_option Elab.async false

/-! ### Selection -/

/-- The best of the pending candidates is one of them. -/
theorem bestSlot_mem {s : State} {n l : Nat} (h : bestSlot s = some (n, l)) :
    ∃ r, (n, r) ∈ s.sched.slots ∧ slotCandidate s n r = true ∧ r.level = l := by
  have key : ∀ (t : Table Request) (best : Option (Nat × Nat)),
      t.foldl (fun best e => match best with
        | none => some (e.1, e.2.level)
        | some (n, l) => if l < e.2.level then some (e.1, e.2.level) else some (n, l)) best = some (n, l) →
      best = some (n, l) ∨ ∃ r, (n, r) ∈ t ∧ r.level = l := by
    intro t
    induction t with
    | nil => exact fun _ => .inl
    | cons e t ih =>
      intro best hb
      rcases ih _ hb with hb | ⟨r, hr, hl⟩
      · dsimp only at hb
        split at hb
        · cases hb
          exact .inr ⟨e.2, List.mem_cons_self .., rfl⟩
        · split at hb
          · cases hb
            exact .inr ⟨e.2, List.mem_cons_self .., rfl⟩
          · exact .inl hb
      · exact .inr ⟨r, List.mem_cons_of_mem _ hr, hl⟩
  rcases key _ none h with h | ⟨r, hr, hl⟩
  · cases h
  · obtain ⟨hmem, hcand⟩ := List.mem_filter.1 hr
    exact ⟨r, hmem, hcand, hl⟩

theorem selectable_iff (s : State) (l n : Nat) : selectable s l n = true ↔
    s.clock.mask ≤ l ∧ isEnabled s n = true ∧ isOff s n = false ∧ fpOf s n ≠ .writing ∧
    (lightGroupOf s n = 0 ∨ isHeld s (lightGroupOf s n) = false) ∧ s.engine.laserFault = none ∧
    s.port.station = .running := by
  simp [selectable, and_assoc]

theorem slotCandidate_iff (s : State) (n : Nat) (r : Request) : slotCandidate s n r = true ↔
    r.selected = false ∧ selectable s r.level n = true ∧ ctxIs s.sched.save n = false := by
  simp [slotCandidate, and_assoc]

theorem EngineInv.idle {s : State} (h : EngineInv s) (hs : atRest s.engine.state = true) :
    s.engine.ctx = none ∧ s.sched.selection = none ∧ noClaim s := by
  cases h.stand with
  | rest _ ctx selection claims => exact ⟨ctx, selection, claims⟩
  | slot _ _ state => rw [state] at hs; cases hs
  | save _ state => rw [state] at hs; cases hs
  | taken _ state => rw [state] at hs; cases hs

/-- An untaken sweep whose claim is sought stands as before. -/
theorem Stand.of_claiming {s u : State} (hs : Stand s) (huntaken : isUntaken s = true) (hcfg : u.cfg = s.cfg)
    (hengine : u.engine = s.engine) (hsched : u.sched = s.sched)
    (hclaims : ∀ n, engineSpan s = some n → claimsOnly u false (lightGroupOf s n)) : Stand u := by
  cases hs with
  | rest _ _ selection => rw [isUntaken, selection] at huntaken; cases huntaken
  | taken _ _ _ selection => rw [isUntaken, selection] at huntaken; cases huntaken
  | slot n r state ctx selection enabled found selected =>
    refine .slot n r (hengine ▸ state) (hengine ▸ ctx) (hsched ▸ selection) ((isEnabled_congr hcfg n).trans enabled)
      (hsched ▸ found) selected (lightGroupOf_congr hcfg n ▸ hclaims n ?_)
    rw [engineSpan, ctx]
    simp only [selectedSlot, selection]
  | save c state ctx selection resumed path =>
    refine .save c (hengine ▸ state) (hengine ▸ ctx) (hsched ▸ selection) resumed path
      (lightGroupOf_congr hcfg c.span ▸ hclaims c.span ?_)
    rw [engineSpan, ctx]

/-- The claim of the sweep in the engine is asked for (R158). -/
theorem kept_seekClaim {s : State} {g l n : Nat} (huntaken : isUntaken s = true) (hclaims : noClaim s)
    (hspan : engineSpan s = some n) (hg : lightGroupOf s n = g) : Kept s (seekClaim s g l) := by
  unfold seekClaim
  cases hf : s.claims.find g with
  | none =>
    have hask : askClaim s g l = s := by unfold askClaim; rw [hf]
    rw [hask]
    exact .ite (fun _ => kept_giveBack (.refl s) (.of_eq rfl) rfl rfl huntaken hclaims) fun _ => .refl s
  | some e =>
    obtain ⟨st, m⟩ := e
    cases st with
    | free =>
      have hask : askClaim s g l =
          offer (setClaim (askRemove s (isReleaseOf g)) g (.claiming l none)) l (.claim g l) := by
        unfold askClaim; rw [hf]
      have hheld : isHeld (askClaim s g l) g = false := by
        rw [isHeld, hask, offer_eq]
        simp [setClaim, askRemove, Table.find_adjust, hf]
      rw [if_neg (by rw [hheld]; decide)]
      have hengine : (askClaim s g l).engine = s.engine := by simp
      have hsched : (askClaim s g l).sched = s.sched := by simp
      have honly : claimsOnly (askClaim s g l) false g := by
        rw [hask]
        refine (Quiet.offer _ _ _).claimsOnly (claimsOnly_setClaim (b := false) ?_ rfl)
        exact (Quiet.askRemove s _).claimsOnly (hclaims.only false g)
      have hsel : (askClaim s g l).sched.selection ≠ none := by
        rw [hsched, ← Option.isSome_iff_ne_none]; exact huntaken
      have hstore : SameStore s (askClaim s g l) := .of_eq
      have hspan' : engineSpan (askClaim s g l) = engineSpan s := by simp only [engineSpan, selectedSlot, hengine, hsched]
      refine (Frame.askClaim s g l).kept (by rw [hengine]) (fun he => by rw [saveFits, hsched]; exact he.save)
        (fun he => he.stand.of_claiming huntaken (by simp) hengine hsched fun m hm => ?_) (fun hf => ?_) fun hp => ?_
      · rw [hspan] at hm
        cases hm
        rw [hg]
        exact honly
      · rw [State.firingSound, hengine, hsched]
        refine ⟨hf.firing.1, fun c _ h => ?_⟩
        rw [isUntaken, h] at huntaken
        cases huntaken
      · have hinv := hstore.storeInv (Frame.askClaim s g l) hp fun x hx => .inr (by rwa [hsched] at hx)
        refine ⟨hinv, hinv.writersFit (fun d hd => ?_) fun c hc hst => ?_⟩
        · rw [hspan']
          rw [hstore.load] at hd
          exact (hp.writers.2.1 d hd).2.1
        · rw [hengine] at hc hst
          rw [fpOf, hstore.fp]
          exact hp.writers.2.2 c hc hst
    | held => 
      have hask : askClaim s g l = s := by unfold askClaim; rw [hf]
      rw [hask]
      exact .ite (fun _ => kept_giveBack (.refl s) (.of_eq rfl) rfl rfl huntaken hclaims) fun _ => .refl s
    | claiming => exact absurd (hclaims _ (Table.mem_of_find hf)) (by simp [ownKind])
    | opened => exact absurd (hclaims _ (Table.mem_of_find hf)) (by simp [ownKind])

/-- A request is selected: its mark set, the switch sent to its port, the engine in PREPARING (R55). -/
def slotSelected (s : State) (n : Nat) : State :=
  let s1 := adjustSlot (stopDoze s) n fun r => { r with selected := true }
  sendSwitch { s1 with
    sched := { s1.sched with selection := some (.slot n) }, engine := { s1.engine with state := .preparing } } n

theorem beginSlot_eq (s : State) (n l : Nat) : beginSlot s n l =
    if lightGroupOf s n = 0 then checkPrepared (takeSlot (slotSelected s n) n)
    else seekClaim (slotSelected s n) (lightGroupOf s n) l := rfl

/-- The context of a suspended sweep as its resume begins (R60). -/
def resumedCtx (s : State) (c : Ctx) : Ctx :=
  { c with resumed := true, phase := .preparing, answersLatch := c.answersLatch || latchSet s c.span }

/-- The suspended sweep is selected: its context back in the engine, its slot active, the switch sent to its port (R60). -/
def resumeSelected (s : State) (c : Ctx) : State :=
  let s1 := stopDoze s
  sendSwitch { s1 with
    sched := { s1.sched with
      save := none, selection := some .save, resumeExpiry := none
      resumeLeft := (s.sched.resumeExpiry.getD s.clock.now) - s.clock.now }
    engine := { s1.engine with state := .preparing, ctx := some (resumedCtx s c) }
    acc := s1.acc.bringBack } c.span

theorem beginResume_eq (s : State) (c : Ctx) : beginResume s c =
    if lightGroupOf s c.span = 0 then
      checkPrepared { resumeSelected s c with sched := { (resumeSelected s c).sched with selection := none } }
    else seekClaim (resumeSelected s c) (lightGroupOf s c.span) c.level := rfl

/-- A candidate request is selected (R55). -/
theorem kept_beginSlot {s : State} {n l k : Nat} {r : Request} (hidle : s.engine.state = .idle)
    (hfound : s.sched.slots.find n = some r) (hsel : selectable s k n = true) : Kept s (beginSlot s n l) := by
  obtain ⟨_, henabled, _, hfp, _, hfault, _⟩ := (selectable_iff ..).1 hsel
  refine .of_engine fun he => ?_
  obtain ⟨hctx, _, hclaims⟩ := he.idle (by rw [hidle]; rfl)
  rw [beginSlot_eq]
  generalize hu : slotSelected s n = u
  have hengine : u.engine = { s.engine with state := .preparing } := by rw [← hu]; simp [slotSelected, stopDoze, adjustSlot]
  have hsched : u.sched = { s.sched with
      slots := s.sched.slots.adjust n fun r => { r with selected := true }, selection := some (.slot n) } := by
    rw [← hu]; simp [slotSelected, stopDoze, adjustSlot]
  have hcfg : u.cfg = s.cfg := by rw [← hu]; simp [slotSelected, stopDoze, adjustSlot]
  have hclaims' : u.claims = s.claims := by rw [← hu]; simp [slotSelected, stopDoze, adjustSlot]
  have hstore : SameStore s u := .of_eq (by rw [← hu]; simp [slotSelected, stopDoze, adjustSlot])
  have hframe : Frame s u := .of_keeps (by rw [← hu]; simp [slotSelected, stopDoze, adjustSlot]) (by rw [← hu]; simp [slotSelected, stopDoze, adjustSlot])
    hcfg (by rw [hclaims'])
  have hno : noClaim u := by rw [noClaim, hclaims']; exact hclaims
  have huspan : engineSpan u = some n := by simp [engineSpan, selectedSlot, hengine, hctx, hsched]
  have hkept : Kept s u := by
    refine hframe.kept (by simp [hengine, hidle]) (fun he => by rw [saveFits, hsched]; exact he.save)
      (fun _ => .slot n { r with selected := true } (by rw [hengine]) (by rw [hengine, hctx]) (by rw [hsched])
        ((isEnabled_congr hcfg n).trans henabled) ?_ rfl (hno.only _ _)) (fun _ => ?_) fun hp => ?_
    · rw [hsched, Table.find_adjust, if_pos rfl, hfound]; rfl
    · refine ⟨fun _ => by rw [hengine, hfault], fun c hc => ?_⟩
      rw [hengine, hctx] at hc
      cases hc
    · have hinv := hstore.storeInv hframe hp fun x hx => .inr (by rwa [hsched] at hx)
      refine ⟨hinv, hinv.writersFit (fun d hd h => ?_) fun c hc => ?_⟩
      · rw [huspan] at h
        cases h
        rw [hstore.load] at hd
        exact hfp (hp.writers.2.1 d hd).1
      · rw [hengine, hctx] at hc
        cases hc
  have hgroup : lightGroupOf s n = lightGroupOf u n := (lightGroupOf_congr hcfg n).symm
  rw [hgroup]
  refine hkept.trans (.ite (fun hp => Kept.trans ?_ (kept_checkPrepared _)) fun _ => ?_)
  · exact kept_takeSlot (.refl u) (.of_eq rfl) rfl rfl (by rw [hsched]) (hno.only _ _) (.inl hp)
  · exact kept_seekClaim (by simp [isUntaken, hsched]) hno huspan rfl

/-- The suspended sweep is resumed (R60). -/
theorem kept_beginResume {s : State} {c : Ctx} (hidle : s.engine.state = .idle) (hsave : s.sched.save = some c)
    (hsel : selectable s c.level c.span = true) : Kept s (beginResume s c) := by
  obtain ⟨_, _, _, hfp, _, hfault, _⟩ := (selectable_iff ..).1 hsel
  refine .of_engine fun he => ?_
  obtain ⟨_, _, hclaims⟩ := he.idle (by rw [hidle]; rfl)
  rw [beginResume_eq]
  generalize hd : resumedCtx s c = d
  have hspan : d.span = c.span := by rw [← hd]; rfl
  have hslow : d.quickOnly = false := by rw [← hd]; exact he.save c hsave
  have hres : d.resumed = true := by rw [← hd]; rfl
  generalize hu : resumeSelected s c = u
  have hengine : u.engine = { s.engine with state := .preparing, ctx := some d } := by rw [← hu]; simp [resumeSelected, stopDoze, hd]
  have hselu : u.sched.selection = some .save := by rw [← hu]; simp [resumeSelected, stopDoze]
  have hsaveu : u.sched.save = none := by rw [← hu]; simp [resumeSelected, stopDoze]
  have hcfg : u.cfg = s.cfg := by rw [← hu]; simp [resumeSelected, stopDoze]
  have hclaims' : u.claims = s.claims := by rw [← hu]; simp [resumeSelected, stopDoze]
  have hstore : SameStore s u := .of_eq (by rw [← hu]; simp [resumeSelected, stopDoze])
  have hframe : Frame s u := .of_keeps (by rw [← hu]; simp [resumeSelected, stopDoze]) (by rw [← hu]; simp [resumeSelected, stopDoze]) hcfg (by rw [hclaims'])
  have hno : noClaim u := by rw [noClaim, hclaims']; exact hclaims
  have hctxu : u.engine.ctx = some d := by rw [hengine]
  have huspan : engineSpan u = some c.span := by rw [engineSpan, hctxu]; exact congrArg some hspan
  have hkept : Kept s u := by
    refine hframe.kept (by simp [hengine, hidle]) (fun _ e he => by rw [hsaveu] at he; cases he)
      (fun _ => .save d (by rw [hengine]) hctxu hselu hres ⟨fun h => ?_, nofun, nofun⟩ (hno.only _ _)) (fun _ => ?_) fun hp => ?_
    · rw [hslow] at h; cases h
    · exact ⟨fun _ => by rw [hengine, hfault], fun e _ h => by rw [hselu] at h; cases h⟩
    · have hinv := hstore.storeInv hframe hp fun x hx => by rw [hsaveu] at hx; cases hx
      refine ⟨hinv, hinv.writersFit (fun e he h => ?_) fun _ _ h => by rw [hengine] at h; cases h⟩
      rw [huspan] at h
      rw [hstore.load] at he
      obtain ⟨hw, _⟩ := hp.writers.2.1 e he
      rw [← Option.some.inj h] at hw
      exact hfp hw
  have hgroup : lightGroupOf s c.span = lightGroupOf u c.span := (lightGroupOf_congr hcfg _).symm
  rw [hgroup]
  refine hkept.trans (.ite (fun hp => Kept.trans ?_ (kept_checkPrepared _)) fun _ => ?_)
  · exact kept_takeResume (.refl u) (.of_eq rfl) rfl rfl hselu hctxu (hno.only _ _) (.inl (by rw [hspan]; exact hp))
  · exact kept_seekClaim (by simp [isUntaken, hselu]) hno huspan rfl

theorem kept_select (s : State) : Kept s (select s) := by
  have hslot : ∀ n l, s.engine.state = .idle → bestSlot s = some (n, l) → Kept s (beginSlot s n l) := by
    intro n l hidle hb
    obtain ⟨r, hr, hcand, _⟩ := bestSlot_mem hb
    obtain ⟨_, hable, _⟩ := (slotCandidate_iff ..).1 hcand
    obtain ⟨q, hq⟩ := Option.isSome_iff_exists.1 ((Table.has_iff s.sched.slots n).2 (List.mem_map.2 ⟨_, hr, rfl⟩))
    exact kept_beginSlot hidle hq hable
  unfold select
  refine .ite (fun _ => .refl s) fun hn => ?_
  have hidle : s.engine.state = .idle := not_not.1 hn
  have hresume : ∀ c, s.sched.save = some c → saveCandidate s = true → Kept s (beginResume s c) := by
    intro c hc hcand
    rw [saveCandidate, hc] at hcand
    exact kept_beginResume hidle hc hcand
  split
  · next c n l hc hcand hb => exact .ite (fun _ => hresume c hc hcand) fun _ => hslot n l hidle hb
  · next c hc hcand _ => exact hresume c hc hcand
  · next n l hb _ => exact hslot n l hidle hb
  · exact .refl s

theorem kept_settleSelect (s : State) : Kept s (settleSelect s) := (kept_select s).trans (Quiet.settle _).kept

/-! ### Ends, aborts and suspension -/

theorem Quiet.storeInv {s t : State} (h : Quiet s t) (hs : StoreInv s) : StoreInv t := by
  refine ⟨h.dir ▸ hs.dir, h.fp ▸ hs.fp, (storeFits_congr h.cfg h.dir h.fp).2 hs.fits, ?_, fun l hl => ?_⟩
  · rw [h.load]
    exact hs.load.1 ∘ h.station
  · rw [h.load] at hl
    obtain ⟨hfp, hsave⟩ := hs.load.2 l hl
    exact ⟨by rw [fpOf, h.fp]; exact hfp, ctxIs_of_subset h.save hsave⟩

/-- Steps 1 to 4 of a sweep's end (R85): result record, notices, confirm report, finding decision, alert input. -/
def sweepClosed (s : State) (c : Ctx) (o : SweepOutcome) (pre : List NoticeBody) : State :=
  sweepOver (findingDecision
    (confirmReport (postAll (writeResult s c o s.acc.current.lit) (pre ++ [.sweepDone c.span o])) c (writtenPart s o))
    c o (writtenPart s o)) c

theorem endSweep_eq {s : State} {c : Ctx} (hc : s.engine.ctx = some c) (o : SweepOutcome) (pre : List NoticeBody) :
    endSweep s o pre = clearEngine (sweepClosed s c o pre) := by
  rw [endSweep, hc]
  rfl

theorem Quiet.sweepClosed (s : State) (c : Ctx) (o : SweepOutcome) (pre : List NoticeBody) : Quiet s (sweepClosed s c o pre) :=
  ((((Quiet.writeResult s ..).trans (.postAll ..)).trans (.confirmReport ..)).trans (.findingDecision ..)).trans
    (.sweepOver ..)

/-- A sweep without a claim ends (R85). -/
theorem kept_endSweep {s u : State} {c : Ctx} (f : Frame s u) (hs : s.engine.state ≠ .off) (hc : u.engine.ctx = some c)
    (claims : noClaim u) (save : EngineInv s → saveFits u) (store : PagesInv s → StoreInv u) (o : SweepOutcome)
    (pre : List NoticeBody) : Kept s (endSweep u o pre) := by
  rw [endSweep_eq hc]
  have hq := Quiet.sweepClosed u c o pre
  have fv := f.trans hq.frame
  refine Frame.kept_idle (s := s) ⟨fv.station, fv.stopped, fv.awake, fv.cfg, fv.keys⟩ hs rfl rfl rfl (hq.noClaim claims)
    (fun he d hd => save he d (hq.save d hd)) fun hp => ?_
  obtain ⟨dir, fp, fits, load⟩ := hq.storeInv (store hp)
  exact ⟨dir, fp, fits, load⟩

/-- A span that was WRITING becomes ABSENT: no directory entry names it (R12). -/
theorem storeFits_setFp_absent {s : State} {n : Nat} (h : storeFits s)
    (hn : fpOf s n = .writing) : storeFits (setFp s n .absent) := by
  obtain ⟨hpages, hfits, hkeys⟩ := h
  have hfp : ∀ m, fpOf (setFp s n .absent) m = if m = n then .absent else fpOf s m := by
    intro m
    simp only [fpOf, setFp, if_true, Table.find_erase]
    split <;> rfl
  refine ⟨hpages, fun e he => ?_, fun x hx => ?_⟩
  · obtain ⟨hne, hiff, hdir⟩ := hfits e he
    refine ⟨hne, ?_, ?_⟩
    · rw [hfp]
      split
      · next hen =>
        rw [hen, hn] at hiff
        refine ⟨nofun, fun hall => ?_⟩
        have := hiff.2 (by rw [← hen]; exact hall)
        cases this
      · exact hiff
    · rw [hfp]
      split
      · next hen => exact fun _ => hdir (by rw [hen, hn]; exact nofun)
      · exact hdir
  · refine hkeys x ?_
    simp only [setFp, if_true, Table.erase] at hx
    exact (Table.keys_filter_sublist _ _).subset hx

theorem fpOf_setFp (s : State) (n m : Nat) (st : FpState) :
    fpOf (setFp s n st) m = if m = n then st else fpOf s m := by
  unfold setFp fpOf
  by_cases hst : st = .absent
  · simp only [hst, if_true, Table.find_erase]
    split <;> rfl
  · simp only [hst, if_false, Table.find_put]
    split <;> rfl

/-- The span of the sweep in STORING is WRITING; when its write is stopped it is ABSENT (R12). -/
theorem storeInv_stopWrite {s : State} {n : Nat} (h : StoreInv s)
    (hn : s.engine.state = .storing → fpOf s n = .writing) (hload : ∀ l ∈ s.store.load, l.span ≠ n) :
    StoreInv (stopWrite s n) := by
  unfold stopWrite
  split
  · next hst =>
    have hcut : (cutCopy s n).store.dir = s.store.dir ∧ (cutCopy s n).store.fp = s.store.fp ∧
        (cutCopy s n).store.load = s.store.load := by
      unfold cutCopy bumpFree copyTrace
      split <;> exact ⟨rfl, rfl, rfl⟩
    obtain ⟨hcdir, hcfp, hcload⟩ := hcut
    have hcfg : (cutCopy s n).cfg = s.cfg := by simp
    have hport : (cutCopy s n).port = s.port := by simp
    have hsched : (cutCopy s n).sched = s.sched := by simp
    have hfpof : ∀ m, fpOf (cutCopy s n) m = fpOf s m := fun m => by rw [fpOf, hcfp, fpOf]
    have hfits := (storeFits_congr hcfg hcdir hcfp).2 h.fits
    have hdir : Table.wf (cutCopy s n).store.dir := by rw [hcdir]; exact h.dir
    have hfp : Table.wf (cutCopy s n).store.fp := by rw [hcfp]; exact h.fp
    refine ⟨hdir, Table.wf_erase _ hfp,
      storeFits_setFp_absent hfits (by rw [hfpof]; exact hn hst), ?_, fun l hl => ?_⟩
    · show (cutCopy s n).port.station = _ → (cutCopy s n).store.load = none
      rw [hport, hcload]
      exact h.load.1
    · have hl' : l ∈ s.store.load := by rw [← hcload]; exact hl
      obtain ⟨hw, hsave⟩ := h.load.2 l hl'
      rw [fpOf_setFp, if_neg (hload l hl'), hfpof]
      refine ⟨hw, ?_⟩
      show ctxIs (cutCopy s n).sched.save l.span = false
      rw [hsched]
      exact hsave
  · exact h

theorem noClaim_dropClaim {s : State} (hwf : Table.wf s.claims) {n : Nat}
    (h : claimsOnly s (!isUntaken s) (lightGroupOf s n)) : noClaim (dropClaim s n) := by
  unfold dropClaim
  split
  · next hu => exact noClaim_giveUpClaim hwf (by rwa [hu] at h)
  · next hu =>
    rw [Bool.not_eq_true] at hu
    exact noClaim_releaseClaim hwf (by rwa [hu] at h)

/-- A sweep in the engine with its context is aborted (R87): u is s but for its claims, already given up, its fault flag, and
what no invariant reads. -/
theorem kept_abort_of {s u : State} {c d : Ctx} (f : Frame s u) (same : SameStore s u) (hstate : u.engine.state = s.engine.state)
    (hc : s.engine.ctx = some c) (hd : u.engine.ctx = some d) (hcore : d.core = c.core) (hsave : u.sched.save = s.sched.save)
    (hclaims : EngineInv s → claimsOnly u (!isUntaken u) (lightGroupOf u c.span)) (o : SweepOutcome) (pre : List NoticeBody) :
    Kept s (abort u o pre) := by
  refine .of_engine fun he => ?_
  obtain ⟨hspan, _⟩ := core_eq hcore
  have hoff : s.engine.state ≠ .off := by
    intro h
    have := (he.idle (by rw [h]; rfl)).1
    rw [hc] at this
    cases this
  unfold abort
  rw [hd]
  dsimp only
  rw [hspan]
  have hno : noClaim (dropClaim u c.span) :=
    noClaim_dropClaim (by rw [Table.wf, f.keys]; exact he.wf) (hclaims he)
  generalize hv : dropClaim u c.span = v at hno
  have fv : Frame u v := by
    rw [← hv]
    unfold dropClaim
    split
    · exact Frame.giveUpClaim ..
    · exact Frame.releaseClaim ..
  have hve : v.engine = u.engine := by rw [← hv]; simp
  have hvs : v.sched = u.sched := by rw [← hv]; simp
  have hvst : SameStore u v := .of_eq (by rw [← hv]; simp)
  have fw : Frame s (stopReduction (stopWrite v c.span)) := by
    have := f.trans fv
    exact ⟨by simpa [stopReduction] using this.station, by simpa [stopReduction] using this.stopped,
      by simpa [stopReduction] using this.awake, by simpa [stopReduction] using this.cfg, by simpa [stopReduction] using this.keys⟩
  refine kept_endSweep (c := d) fw hoff (by simp [stopReduction, hve, hd]) ?_ (fun he => ?_) (fun hp => ?_) _ _
  · show ∀ e ∈ (stopWrite v c.span).claims, _
    rw [show (stopWrite v c.span).claims = v.claims by simp]
    exact hno
  · show ∀ e ∈ (stopWrite v c.span).sched.save, _
    rw [show (stopWrite v c.span).sched = v.sched by simp, hvs, hsave]
    exact he.save
  · have hstore : StoreInv v := (same.trans hvst).storeInv (f.trans fv) hp fun m hm => .inr (by rwa [hvs, hsave] at hm)
    have hw := storeInv_stopWrite (n := c.span) hstore (fun hst => ?_) fun l hl h => ?_
    · obtain ⟨dir, fp, fits, load⟩ := hw
      exact ⟨dir, fp, fits, load⟩
    · rw [fpOf, hvst.fp, same.fp]
      rw [hve, hstate] at hst
      exact hp.writers.2.2 c hc hst
    · rw [hvst.load, same.load] at hl
      have := (hp.writers.2.1 l hl).2.1
      rw [engineSpan, hc, h] at this
      exact this rfl

/-- What a sweep in the engine claims. -/
theorem EngineInv.claimsOnly {s : State} {c : Ctx} (h : EngineInv s) (hc : s.engine.ctx = some c) :
    claimsOnly s (!isUntaken s) (lightGroupOf s c.span) := by
  cases h.stand with
  | rest _ ctx => rw [hc] at ctx; cases ctx
  | slot _ _ _ ctx => rw [hc] at ctx; cases ctx
  | save d _ ctx selection _ _ claims =>
    rw [hc] at ctx
    cases ctx
    simpa [isUntaken, selection] using claims
  | taken d _ ctx selection _ claims =>
    rw [hc] at ctx
    cases ctx
    simpa [isUntaken, selection] using claims

theorem kept_abort (s : State) (o : SweepOutcome) (pre : List NoticeBody) : Kept s (abort s o pre) := by
  cases hc : s.engine.ctx with
  | none =>
    unfold abort
    rw [hc]
    exact .refl s
  | some c => exact kept_abort_of (.refl s) (.of_eq rfl) rfl hc hc rfl rfl (fun he => he.claimsOnly hc) o pre

/-- The preparation of an untaken sweep is given up with its claim (R57, R167). -/
theorem kept_giveUp {s u : State} (f : Frame s u) (same : SameStore s u) (hctx : u.engine.ctx = s.engine.ctx)
    (hsched : u.sched = s.sched) (hclaims : u.claims = s.claims) (huntaken : isUntaken s = true) {n : Nat}
    (hn : engineSpan s = some n) : Kept s (giveBack (giveUpClaim u (lightGroupOf u n))) := by
  refine .of_engine fun he => ?_
  have honly : Machine.claimsOnly s false (lightGroupOf s n) := by
    cases he.stand with
    | rest _ _ selection => rw [isUntaken, selection] at huntaken; cases huntaken
    | taken _ _ _ selection => rw [isUntaken, selection] at huntaken; cases huntaken
    | slot m _ _ ctx selection _ _ _ claims =>
      rw [engineSpan, ctx] at hn
      simp only [selectedSlot, selection, Option.some.injEq] at hn
      rwa [← hn]
    | save c _ ctx _ _ _ claims =>
      rw [engineSpan, ctx] at hn
      rwa [← Option.some.inj hn]
  have honly' : Machine.claimsOnly u false (lightGroupOf u n) := by
    rw [lightGroupOf_congr f.cfg, Machine.claimsOnly, hclaims]
    exact honly
  refine kept_giveBack (f.trans (Frame.giveUpClaim ..)) (same.trans (.of_eq (by simp))) (by simp [hctx]) (by simp [hsched])
    huntaken (noClaim_giveUpClaim (by rw [hclaims]; exact he.wf) honly')

theorem kept_stopSweep (s : State) (o : SweepOutcome) (pre : List NoticeBody) : Kept s (stopSweep s o pre) := by
  unfold stopSweep
  refine .ite (fun hu => ?_) fun _ => kept_abort s o pre
  split
  · next n hn => exact kept_giveUp (.refl s) (.of_eq rfl) rfl rfl rfl hu hn
  · exact .refl s

/-- The running context and its accumulator slot are set aside (R59). -/
def setAside (s : State) (c : Ctx) : State :=
  { s with
    sched := { s.sched with save := some { c with phase := .full } }
    engine := { s.engine with ctx := none }
    acc := s.acc.setAside }

theorem suspend_eq {s : State} {c : Ctx} (hc : s.engine.ctx = some c) :
    suspend s =
      let s1 := releaseClaim (setAside s c) (lightGroupOf s c.span)
      { s1 with
        sched := { s1.sched with resumeExpiry := some (after s (s.cfg.block.resumeLimit * 1000)) }
        engine := { s1.engine with state := .idle } } := by
  rw [suspend, hc]
  rfl

/-- A full acquisition is set aside (R59). -/
theorem kept_suspend {s : State} (hstate : s.engine.state = .full) : Kept s (suspend s) := by
  refine .of_engine fun he => ?_
  cases hc : s.engine.ctx with
  | none =>
    rw [suspend, hc]
    exact .refl s
  | some c =>
    rw [suspend_eq hc]
    obtain ⟨hsel, hslow, honly⟩ : s.sched.selection = none ∧ c.quickOnly = false ∧
        Machine.claimsOnly s true (lightGroupOf s c.span) := by
      cases he.stand with
      | rest _ ctx => rw [hc] at ctx; cases ctx
      | slot _ _ state => rw [hstate] at state; cases state
      | save _ state => rw [hstate] at state; cases state
      | taken d _ ctx selection path claims =>
        rw [hc] at ctx
        cases ctx
        exact ⟨selection, path.2.2 hstate, claims⟩
    have hno : noClaim (releaseClaim (setAside s c) (lightGroupOf s c.span)) := noClaim_releaseClaim he.wf honly
    have f : Frame s (releaseClaim (setAside s c) (lightGroupOf s c.span)) :=
      Frame.trans (t := setAside s c) ⟨id, id, .rfl, rfl, rfl⟩ (Frame.releaseClaim _ _)
    have hstore : SameStore s (releaseClaim (setAside s c) (lightGroupOf s c.span)) := .of_eq (by simp [setAside])
    have hsched : (releaseClaim (setAside s c) (lightGroupOf s c.span)).sched = (setAside s c).sched := by simp
    refine Frame.kept_idle (s := s) ⟨f.station, f.stopped, f.awake, f.cfg, f.keys⟩ (by rw [hstate]; decide) rfl ?_ ?_ hno
      (fun _ => ?_) fun hp => ?_
    · simp [setAside]
    · simp [setAside, hsel]
    · show ∀ d ∈ (releaseClaim (setAside s c) (lightGroupOf s c.span)).sched.save, _
      rw [hsched]
      intro d hd
      cases hd
      exact hslow
    · refine SameStore.storeInv (s := s) ⟨hstore.dir, hstore.fp, hstore.load⟩ ⟨f.station, f.stopped, f.awake, f.cfg, f.keys⟩ hp
        fun m hm => .inl ?_
      have hm' : ctxIs (releaseClaim (setAside s c) (lightGroupOf s c.span)).sched.save m = true := hm
      rw [hsched] at hm'
      rw [engineSpan, hc]
      exact congrArg some (of_decide_eq_true hm')

/-- The save slot and its accumulator slot are emptied (R61, R62). -/
def saveEmptied (s : State) : State :=
  { s with
    sched := { s.sched with save := none, resumeExpiry := none, resumeLeft := 0 }
    acc := s.acc.discardSaved }

theorem endSuspended_eq {s : State} {c : Ctx} (hc : s.sched.save = some c) (o : SweepOutcome) :
    endSuspended s o =
      sweepOver (confirmReport (post (writeResult (saveEmptied s) c o c.litDone) (.sweepDone c.span o)) c none) c := by
  rw [endSuspended, hc]
  rfl

theorem Quiet.saveEmptied (s : State) : Quiet s (saveEmptied s) where
  __ := of_eq (s := s) (t := s)
  save := fun c hc => by cases hc

/-- The suspended sweep ends (R61, R62): nothing that the invariants read changes but the save slot. -/
theorem Quiet.endSuspended (s : State) (o : SweepOutcome) : Quiet s (endSuspended s o) := by
  cases hc : s.sched.save with
  | none =>
    rw [Machine.endSuspended, hc]
    exact refl s
  | some c =>
    rw [endSuspended_eq hc]
    exact ((((Quiet.saveEmptied s).trans (writeResult _ ..)).trans (post ..)).trans (confirmReport ..)).trans (sweepOver ..)

end Sys2Proof.Machine

/-! ## START: the reconciliation of the page directory (R8), and the steps of R192 -/

namespace Sys2Proof

-- The kernel checks the lemmas one after another: many at once take a thread each.
set_option Elab.async false

/-! ### Tables filtered by their values -/

section
variable {α : Type}

/-- Where keys are distinct, an entry that is filtered out leaves no other at its key. -/
theorem Table.find_filter {t : Table α} (hwf : t.wf) (p : Nat × α → Bool) (k : Nat) :
    Table.find (t.filter p) k = (t.find k).filter fun v => p (k, v) := by
  refine Option.ext fun v => ?_
  rw [Option.filter_eq_some_iff]
  constructor
  · intro h
    obtain ⟨hmem, hp⟩ := List.mem_filter.1 (Table.mem_of_find h)
    exact ⟨Table.find_of_mem hwf hmem, hp⟩
  · rintro ⟨h, hp⟩
    exact Table.find_of_mem (Table.wf_filter p hwf) (List.mem_filter.2 ⟨Table.mem_of_find h, hp⟩)

theorem Table.find_eq_some_iff {t : Table α} (hwf : t.wf) {k : Nat} {v : α} : t.find k = some v ↔ (k, v) ∈ t :=
  ⟨Table.mem_of_find, Table.find_of_mem hwf⟩

/-- The value at the first entry of a key when every entry carries the same. -/
theorem Table.find_map_const (l : List Nat) (v : α) (k : Nat) :
    Table.find (l.map fun n => (n, v)) k = if k ∈ l then some v else none := by
  induction l with
  | nil => rfl
  | cons n l ih =>
    rw [List.map_cons, Table.find_cons, ih]
    by_cases hk : k = n <;> simp [hk]

end

namespace Machine

/-! ### Enabled records -/

theorem enabledRec_eq_some {s : State} {n : Nat} {r : SpanRecord} :
    enabledRec s n = some r ↔ s.cfg.spans.find n = some r ∧ r.enabled = true := by
  unfold enabledRec
  cases s.cfg.spans.find n with
  | none => simp
  | some q =>
    simp only [Option.some.injEq]
    split
    · next h => simp only [Option.some.injEq]; exact ⟨fun hq => ⟨hq, hq ▸ h⟩, And.left⟩
    · next h => exact ⟨nofun, fun ⟨hq, hr⟩ => absurd (hq ▸ hr) h⟩

theorem mem_enabledSpans {s : State} (hwf : Table.wf s.cfg.spans) {n : Nat} {r : SpanRecord} :
    (n, r) ∈ enabledSpans s ↔ enabledRec s n = some r := by
  rw [enabledRec_eq_some, Table.find_eq_some_iff hwf]
  simp [enabledSpans]

/-! ### The reconciliation (R8) -/

/-- Every page of a record's range holds its entry: span n, the page's ordinal, the span's L. -/
def wholeRange (dir : Table DirEntry) (n : Nat) (r : SpanRecord) : Prop :=
  ∀ p ∈ r.pages, dir.find p = some ⟨n, p - r.firstPage, r.len⟩

theorem entryStands_iff (s : State) (p : Nat) (e : DirEntry) : entryStands s p e = true ↔
    ∃ r, enabledRec s e.owner = some r ∧ p ∈ r.pages ∧ e = ⟨e.owner, p - r.firstPage, r.len⟩ := by
  unfold entryStands
  cases enabledRec s e.owner with
  | none => simp
  | some r =>
    obtain ⟨owner, ordinal, len⟩ := e
    simp only [Bool.and_eq_true, decide_eq_true_eq, Option.some.injEq, exists_eq_left', DirEntry.mk.injEq, true_and, and_assoc]
    refine and_congr_right fun hp => and_congr_left fun _ => ?_
    obtain ⟨o, _, rfl⟩ := List.mem_map.1 hp
    omega

theorem rangeKept_iff {dir : Table DirEntry} {n : Nat} {r : SpanRecord} : rangeKept dir n r = true ↔
    ∀ p ∈ r.pages, ∃ e, dir.find p = some e ∧ e.owner = n := by
  rw [rangeKept, List.all_eq_true]
  refine forall₂_congr fun p _ => ?_
  cases dir.find p <;> simp

/-- Among the entries that stand, a span's range is whole when each of its pages names the span. -/
theorem rangeKept_standing {s : State} {dir : Table DirEntry} (hwf : dir.wf) {n : Nat} {r : SpanRecord}
    (hr : enabledRec s n = some r) :
    rangeKept (dir.filter fun e => entryStands s e.1 e.2) n r = true ↔ wholeRange dir n r := by
  rw [rangeKept_iff]
  refine forall₂_congr fun p hp => ?_
  simp only [Table.find_filter hwf, Option.filter_eq_some_iff, entryStands_iff]
  constructor
  · rintro ⟨e, ⟨he, q, hq, _, hshape⟩, rfl⟩
    rw [hr] at hq
    cases hq
    rw [he]
    exact congrArg some hshape
  · exact fun h => ⟨_, ⟨h, r, hr, hp, rfl⟩, rfl⟩

/-- Clearing the entries of other spans leaves a range as it is. -/
theorem rangeKept_clear {dir : Table DirEntry} (hwf : dir.wf) {n m : Nat} (hne : n ≠ m) (r : SpanRecord) :
    rangeKept (dir.filter fun e => decide (e.2.owner ≠ m)) n r = rangeKept dir n r := by
  rw [Bool.eq_iff_iff, rangeKept_iff, rangeKept_iff]
  refine forall₂_congr fun p _ => exists_congr fun e => ?_
  rw [Table.find_filter hwf, Option.filter_eq_some_iff, decide_eq_true_eq, and_assoc]
  exact ⟨fun ⟨h, _, he⟩ => ⟨h, he⟩, fun ⟨h, he⟩ => ⟨h, he ▸ hne, he⟩⟩

/-- The span pass of R8: the entries of spans with an incomplete range go, the other spans become PRESENT. -/
theorem foldl_reconcileSpan : ∀ (l : Table SpanRecord) (t : State), l.wf → t.store.dir.wf →
    (l.foldl reconcileSpan t).store.dir =
      t.store.dir.filter (fun d => l.all fun e => decide (e.1 ≠ d.2.owner) || rangeKept t.store.dir e.1 e.2) ∧
    ∀ n, (l.foldl reconcileSpan t).store.fp.find n =
      if l.any (fun e => decide (e.1 = n) && rangeKept t.store.dir e.1 e.2) then some .present else t.store.fp.find n
  | [], t, _, _ => by simp
  | e :: l, t, hl, hwf => by
    obtain ⟨hkeys, hl⟩ := (Table.wf_cons _ _).1 hl
    have hne : ∀ x ∈ l, x.1 ≠ e.1 := fun x hx => Nat.ne_of_gt (hkeys _ (List.mem_map.2 ⟨x, hx, rfl⟩))
    rw [List.foldl_cons]
    by_cases hk : rangeKept t.store.dir e.1 e.2 = true
    · have hstep : reconcileSpan t e = setFp t e.1 .present := if_pos hk
      obtain ⟨hdir, hfp⟩ := foldl_reconcileSpan l (reconcileSpan t e) hl (by rw [hstep]; exact hwf)
      have hd : (reconcileSpan t e).store.dir = t.store.dir := by rw [hstep]; rfl
      rw [hdir, hd]
      refine ⟨by simp [hk], fun n => ?_⟩
      rw [hfp, hd, hstep]
      simp only [setFp, List.any_cons, hk, Bool.and_true, Bool.or_eq_true, decide_eq_true_eq, reduceCtorEq, if_false,
        Table.find_put]
      by_cases hen : e.1 = n
      · simp [hen]
      · simp only [hen, Ne.symm hen, false_or, if_false]
    · have hstep : reconcileSpan t e = clearDir t e.1 := if_neg hk
      have hd : (reconcileSpan t e).store.dir = t.store.dir.filter fun d => decide (d.2.owner ≠ e.1) := by rw [hstep]; rfl
      obtain ⟨hdir, hfp⟩ := foldl_reconcileSpan l (reconcileSpan t e) hl (by rw [hd]; exact Table.wf_filter _ hwf)
      have hsame : ∀ x ∈ l, rangeKept (reconcileSpan t e).store.dir x.1 x.2 = rangeKept t.store.dir x.1 x.2 := fun x hx => by
        rw [hd]; exact rangeKept_clear hwf (hne x hx) x.2
      rw [Bool.not_eq_true] at hk
      refine ⟨?_, fun n => ?_⟩
      · rw [hdir, hd, List.filter_filter]
        refine List.filter_congr fun d _ => ?_
        rw [List.all_cons, hk, Bool.or_false, Bool.and_comm]
        congr 1
        · simp [eq_comm]
        · rw [← hd, Bool.eq_iff_iff, List.all_eq_true, List.all_eq_true]
          exact forall₂_congr fun x hx => by rw [hsame x hx]
      · rw [hfp, show (reconcileSpan t e).store.fp = t.store.fp by rw [hstep]; rfl]
        simp only [List.any_cons, hk, Bool.and_false, Bool.false_or]
        congr 1
        rw [eq_iff_iff, List.any_eq_true, List.any_eq_true]
        exact exists_congr fun x => and_congr_right fun hx => by rw [hsame x hx]

/-- The reconciled directory: the entries of the spans whose range is whole. -/
theorem reconcile_dir {s : State} (hspans : Table.wf s.cfg.spans) (hwf : s.store.dir.wf) (p : Nat) (e : DirEntry) :
    (reconcile s).store.dir.find p = some e ↔ s.store.dir.find p = some e ∧
      ∃ r, enabledRec s e.owner = some r ∧ p ∈ r.pages ∧ wholeRange s.store.dir e.owner r := by
  obtain ⟨hdir, _⟩ := foldl_reconcileSpan (enabledSpans s)
    { s with store := { s.store with dir := s.store.dir.filter fun e => entryStands s e.1 e.2, fp := [] } }
    (Table.wf_filter _ hspans) (Table.wf_filter _ hwf)
  rw [reconcile, hdir]
  dsimp only
  rw [Table.find_filter (Table.wf_filter _ hwf), Table.find_filter hwf, Option.filter_eq_some_iff, Option.filter_eq_some_iff,
    and_assoc, entryStands_iff, List.all_eq_true]
  refine and_congr_right fun hfind => ⟨?_, ?_⟩
  · rintro ⟨⟨r, hr, hp, _⟩, hall⟩
    refine ⟨r, hr, hp, (rangeKept_standing hwf hr).1 ?_⟩
    simpa using hall (e.owner, r) ((mem_enabledSpans hspans).2 hr)
  · rintro ⟨r, hr, hp, hwhole⟩
    refine ⟨⟨r, hr, hp, ?_⟩, fun x hx => ?_⟩
    · have := hwhole p hp
      rw [hfind] at this
      exact Option.some.inj this
    · by_cases hxe : x.1 = e.owner
      · have hxr : enabledRec s x.1 = some x.2 := (mem_enabledSpans hspans).1 hx
        rw [hxe, hr] at hxr
        rw [hxe, ← Option.some.inj hxr, (rangeKept_standing hwf hr).2 hwhole, Bool.or_true]
      · simp [hxe]

/-- The reconciled states: PRESENT for the spans whose range is whole, and no other state. -/
theorem reconcile_fp {s : State} (hspans : Table.wf s.cfg.spans) (hwf : s.store.dir.wf) (n : Nat) (st : FpState) :
    (reconcile s).store.fp.find n = some st ↔
      st = .present ∧ ∃ r, enabledRec s n = some r ∧ wholeRange s.store.dir n r := by
  obtain ⟨_, hfp⟩ := foldl_reconcileSpan (enabledSpans s)
    { s with store := { s.store with dir := s.store.dir.filter fun e => entryStands s e.1 e.2, fp := [] } }
    (Table.wf_filter _ hspans) (Table.wf_filter _ hwf)
  rw [reconcile, hfp]
  dsimp only
  have hany : (enabledSpans s).any (fun e => decide (e.1 = n) &&
      rangeKept (s.store.dir.filter fun e => entryStands s e.1 e.2) e.1 e.2) = true ↔
      ∃ r, enabledRec s n = some r ∧ wholeRange s.store.dir n r := by
    rw [List.any_eq_true]
    constructor
    · rintro ⟨⟨m, r⟩, he, h⟩
      rw [Bool.and_eq_true, decide_eq_true_eq] at h
      obtain ⟨rfl, h⟩ := h
      have hr := (mem_enabledSpans hspans).1 he
      exact ⟨r, hr, (rangeKept_standing hwf hr).1 h⟩
    · rintro ⟨r, hr, h⟩
      exact ⟨(n, r), (mem_enabledSpans hspans).2 hr, by simp [(rangeKept_standing hwf hr).2 h]⟩
  split
  · next h => exact ⟨fun hst => ⟨(Option.some.inj hst).symm, hany.1 h⟩, fun hst => by rw [hst.1]⟩
  · next h => simp [← hany, h]

theorem reconcile_mem (s : State) : (reconcile s).store.mem = s.store.mem ∧ (reconcile s).store.load = s.store.load := by
  have hstep : ∀ t e, (reconcileSpan t e).store.mem = t.store.mem ∧ (reconcileSpan t e).store.load = t.store.load := by
    intro t e
    unfold reconcileSpan
    split <;> exact ⟨rfl, rfl⟩
  exact ⟨foldl_keeps (·.store.mem) reconcileSpan (fun t e => (hstep t e).1) _ _,
    foldl_keeps (·.store.load) reconcileSpan (fun t e => (hstep t e).2) _ _⟩

/-! ### The test of R45 -/

/-- The test of R45 for a LEVEL input (R45, R46). -/
abbrev levelHolds (s : State) (n : Nat) : Prop :=
  alertModeOfSpan s n = .level ∧ isOff s n = false ∧ n ∈ s.alerts.asserted ∧ s.sched.slots.find n = none ∧
  ctxIs s.engine.ctx n = false ∧ ctxIs s.sched.save n = false ∧ s.alerts.timers.find n = none

/-- The ALERT that an input raises into an empty slot (R40, R45). -/
def alertRequest (s : State) (n : Nat) : Request := ⟨.alert, alertLevelOf s n, false, none, none, s.clock.tod, false⟩

theorem isEnabled_of_alertMode {s : State} {n : Nat} (h : alertModeOfSpan s n ≠ .off) : isEnabled s n = true := by
  unfold alertModeOfSpan at h
  unfold isEnabled
  cases hr : enabledRec s n with
  | none => rw [hr] at h; exact absurd rfl h
  | some r => rfl

theorem levelTest_eq (s : State) (n : Nat) :
    levelTest s n = if levelHolds s n then putSlot s n (alertRequest s n) else s := by
  have hcond : (decide (alertModeOfSpan s n = .level) && !isOff s n && decide (n ∈ s.alerts.asserted) &&
      !s.sched.slots.has n && !ctxIs s.engine.ctx n && !ctxIs s.sched.save n && !s.alerts.timers.has n) = true ↔
      levelHolds s n := by
    simp [levelHolds, Table.has, and_assoc]
  unfold levelTest
  simp only [hcond]
  split
  · next h =>
    obtain ⟨hmode, hoff, _, hslot, _⟩ := h
    rw [raiseAlert, raise, if_neg, hslot]
    · rfl
    · simp [isEnabled_of_alertMode (n := n) (by rw [hmode]; decide), hoff]
  · rfl

/-- The test made for several spans: each that passes it holds its ALERT. -/
theorem foldl_levelTest : ∀ (l : List Nat) (s : State), ∃ slots,
    l.foldl levelTest s = { s with sched := { s.sched with slots := slots } } ∧
    ∀ n, slots.find n = if n ∈ l ∧ levelHolds s n then some (alertRequest s n) else s.sched.slots.find n
  | [], s => ⟨s.sched.slots, rfl, fun n => by simp⟩
  | m :: l, s => by
    obtain ⟨slots, hfold, hfind⟩ := foldl_levelTest l (levelTest s m)
    by_cases hm : levelHolds s m
    · have hstep : levelTest s m = putSlot s m (alertRequest s m) := by rw [levelTest_eq, if_pos hm]
      rw [List.foldl_cons, hfold, hstep]
      refine ⟨slots, rfl, fun n => ?_⟩
      rw [hfind, hstep]
      have hslot : (putSlot s m (alertRequest s m)).sched.slots.find n =
          if n = m then some (alertRequest s m) else s.sched.slots.find n := Table.find_put ..
      by_cases hn : n = m
      · subst hn
        have hno : ¬ levelHolds (putSlot s n (alertRequest s n)) n := by
          rintro ⟨_, _, _, h, _⟩
          rw [hslot, if_pos rfl] at h
          cases h
        rw [if_neg fun h => hno h.2, if_pos ⟨List.mem_cons_self .., hm⟩, hslot, if_pos rfl]
      · have hsame : levelHolds (putSlot s m (alertRequest s m)) n ↔ levelHolds s n := by
          simp only [levelHolds, hslot, if_neg hn]
          rfl
        exact if_congr (by rw [hsame, List.mem_cons, or_iff_right hn]) rfl (by rw [hslot, if_neg hn])
    · have hstep : levelTest s m = s := by rw [levelTest_eq, if_neg hm]
      rw [List.foldl_cons, hfold, hstep]
      refine ⟨slots, rfl, fun n => ?_⟩
      rw [hfind, hstep]
      by_cases hn : n = m
      · subst hn
        rw [if_neg fun h => hm h.2, if_neg fun h => hm h.2]
      · simp only [List.mem_cons, hn, false_or]

/-! ### The steps of an accepted START (R192) -/

/-- The first PRESENCE waits alone in the queue. -/
theorem offerPresence_startBase (s : State) (tod : Nat) : offerPresence (startBase s tod) =
    { startBase s tod with
      peers := ⟨[], some 1000, some 3000⟩
      line := { (startBase s tod).line with
        queue := [⟨s.line.nextAge, 0, .presence .learning (startBase s tod).cfg.sheathGroups⟩]
        nextAge := s.line.nextAge + 1 } } := by
  rw [startBase_eq]
  rw [offerPresence, if_neg (by simp), offer_waiting _ _ (by simp [State.onLine]) (by simp)]
  rfl

/-- The ALERTs that START raises, on the station as it then is. -/
theorem started_shape (s : State) (tod : Nat) : ∃ slots,
    started s tod = accept { offerPresence (startBase s tod) with
      alerts := ⟨s.alerts.asserted, [], []⟩, sched := ⟨slots, [], none, none, 0, none⟩ } ∧
    ∀ n, slots.find n = if alertModeOfSpan (startBase s tod) n = .level ∧ n ∈ s.alerts.asserted ∧ ctxIs s.engine.ctx n = false
      then some (alertRequest (startBase s tod) n) else none := by
  have hshape := offerPresence_startBase s tod
  generalize hb : offerPresence (startBase s tod) = b at hshape
  obtain ⟨slots, hfold, hfind⟩ := foldl_levelTest (enabledSpans b).keys
    { b with alerts := { b.alerts with latches := [], timers := [] } }
  have hbase := startBase_eq s tod
  have halerts : b.alerts = s.alerts := by rw [hshape, hbase]
  have hsched : b.sched = ⟨[], [], none, none, 0, none⟩ := by rw [hshape, hbase]
  have hctx : b.engine = s.engine := by rw [hshape, hbase]
  have hcfg : b.cfg = (startBase s tod).cfg := by rw [hshape]
  have hclock : b.clock = (startBase s tod).clock := by rw [hshape]
  refine ⟨slots, ?_, fun n => ?_⟩
  · rw [started_eq, hb, watchAlerts, ← List.foldl_map (f := fun e : Nat × SpanRecord => e.1) (g := levelTest)]
    show accept (List.foldl levelTest _ (enabledSpans b).keys) = _
    rw [hfold, hsched, halerts]
  · rw [hfind]
    refine if_congr ?_ ?_ (by rw [hsched]; rfl)
    · have hmode : alertModeOfSpan b n = alertModeOfSpan (startBase s tod) n := by
        simp only [alertModeOfSpan, enabledRec, hcfg]
      have hkey : alertModeOfSpan b n = .level → n ∈ (enabledSpans b).keys := fun h => by
        obtain ⟨r, hr⟩ := Option.isSome_iff_exists.1 (isEnabled_of_alertMode (s := b) (n := n) (by rw [h]; decide))
        obtain ⟨hf, he⟩ := enabledRec_eq_some.1 hr
        exact List.mem_map.2 ⟨(n, r), List.mem_filter.2 ⟨Table.mem_of_find hf, he⟩, rfl⟩
      rw [← hmode]
      constructor
      · rintro ⟨_, hlevel, _, hass, _, hc, _⟩
        exact ⟨hlevel, halerts ▸ hass, hctx ▸ hc⟩
      · rintro ⟨hlevel, hass, hc⟩
        exact ⟨hkey hlevel, hlevel, by simp [isOff, hsched], halerts ▸ hass, by simp [hsched], hctx ▸ hc, by simp [hsched, ctxIs],
          rfl⟩
    · simp only [alertRequest, alertLevelOf, enabledRec, hcfg, hclock]

theorem fpOf_eq_present {s : State} {n : Nat} (h : s.store.fp.find n = some .present) : fpOf s n = .present := by
  rw [fpOf, h]; rfl

end Machine

open Machine

/-- Settles O8: each step of R192 is written out, and the test of R45 is made on every enabled span. -/
theorem startStartsTheStation : Obligations.StartStartsTheStation := by
  intro s tod hun hfault
  obtain ⟨slots, hstarted, hslots⟩ := started_shape s tod
  refine ⟨_, exec_start_started hun hfault, ?_⟩
  have hmode : ∀ n, alertModeOfSpan (started s tod) n = alertModeOfSpan (startBase s tod) n := fun n => by
    rw [hstarted, offerPresence_startBase]; rfl
  have hlevel : ∀ n, alertLevelOf (started s tod) n = alertLevelOf (startBase s tod) n := fun n => by
    rw [hstarted, offerPresence_startBase]; rfl
  obtain ⟨hmem, hload⟩ := reconcile_mem (lockConfig s)
  refine ⟨?_, ?_, ?_, ?_, ?_, fun hctx n => ?_, ?_, ?_, ?_, ?_, ⟨s.line.nextAge, ?_⟩, ?_, ?_, ?_⟩
  case refine_6 =>
    rw [hmode, hlevel, hstarted]
    show slots.find n = _
    rw [hslots, hctx]
    refine if_congr (by simp [ctxIs]) ?_ rfl
    rw [alertRequest, startBase_eq]
  case refine_12 => rw [hstarted, offerPresence_startBase, startBase_eq]; exact hmem
  case refine_13 => rw [hstarted, offerPresence_startBase, startBase_eq]; exact hload
  case refine_3 =>
    rw [hstarted, offerPresence_startBase, startBase_eq]
    simp only [accept, answer, maskOf]
    cases phaseAt s.port.stagedStation tod <;> rfl
  all_goals rw [hstarted, offerPresence_startBase, startBase_eq]; rfl

/-- Settles O9: the span pass finds a span's range whole exactly when the old directory bears it out page by page. -/
theorem startReconcilesTheDirectory : Obligations.StartReconcilesTheDirectory := by
  intro s t tod hun hfault hdir hspans hstep
  rw [exec_start_started hun hfault] at hstep
  cases hstep
  obtain ⟨slots, hstarted, _⟩ := started_shape s tod
  have hstore : (started s tod).store = (reconcile (lockConfig s)).store := by
    rw [hstarted, offerPresence_startBase, startBase_eq]; rfl
  have hrec : ∀ n r, enabledRec (lockConfig s) n = some r ↔ (n, r) ∈ stagedEnabled s := fun n r =>
    (mem_enabledSpans (s := lockConfig s) hspans).symm
  have hfp : ∀ n, fpOf (started s tod) n = fpOf (reconcile (lockConfig s)) n := fun n => by rw [fpOf, hstore]; rfl
  have hfind := reconcile_fp (s := lockConfig s) hspans hdir
  have habsent : ∀ n, (∀ r, (n, r) ∈ stagedEnabled s → ¬ wholeRange s.store.dir n r) → fpOf (started s tod) n = .absent := by
    intro n hn
    have hnone : (reconcile (lockConfig s)).store.fp.find n = none := Option.eq_none_iff_forall_ne_some.2 fun st hst => by
      obtain ⟨_, r, hr, hwhole⟩ := (hfind n st).1 hst
      exact hn r ((hrec n r).1 hr) hwhole
    rw [hfp, fpOf, hnone]
    rfl
  refine ⟨fun n r hr => ⟨fun hwhole => ?_, fun hnot => ?_⟩, fun n hn => ?_, fun p e => ?_, ?_, ?_⟩
  · rw [hfp]
    exact fpOf_eq_present ((hfind n .present).2 ⟨rfl, r, (hrec n r).2 hr, hwhole⟩)
  · refine habsent n fun q hq => ?_
    have := ((hrec n q).2 hq).symm.trans ((hrec n r).2 hr)
    rwa [Option.some.inj this]
  · exact habsent n fun r hr => absurd hr (hn r)
  · rw [hstore, reconcile_dir (s := lockConfig s) hspans hdir]
    simp only [hrec]
    rfl
  · rw [hstore, (reconcile_mem _).1]; rfl
  · rw [hstarted, offerPresence_startBase, startBase_eq]; rfl

end Sys2Proof

/-! ## Changes of the fingerprint store, and of a taken sweep's state, keep the engine's invariants -/

namespace Sys2Proof.Machine

-- The kernel checks the lemmas one after another: many at once take a thread each.
set_option Elab.async false

/-! ### Directory and fingerprint states (R7) -/

theorem apart_of_mem {s : State} (h : storeFits s) {e f : Nat × SpanRecord} (he : e ∈ enabledSpans s) (hf : f ∈ enabledSpans s)
    (hne : e ≠ f) : ∀ p ∈ e.2.pages, p ∉ f.2.pages := by
  have hsymm : Std.Symm apart := ⟨fun e f => (apart_comm e f).1⟩
  exact List.Pairwise.forall h.1 he hf hne

theorem mem_keys_setFp {s : State} {n x : Nat} {st : FpState} (h : x ∈ (setFp s n st).store.fp.keys) :
    x = n ∨ x ∈ s.store.fp.keys := by
  unfold setFp at h
  by_cases hst : st = .absent
  · simp only [hst, if_true] at h
    exact .inr ((Table.keys_filter_sublist _ _).subset h)
  · simp only [hst, if_false] at h
    exact (Table.mem_keys_put ..).1 h

theorem wf_setFp {s : State} (n : Nat) (st : FpState) (h : Table.wf s.store.fp) : Table.wf (setFp s n st).store.fp := by
  unfold setFp
  by_cases hst : st = .absent
  · simp only [hst, if_true]
    exact Table.wf_erase _ h
  · simp only [hst, if_false]
    exact Table.wf_put _ _ h

/-- A span whose directory entries are cleared is no longer PRESENT (R10, R14, R18). -/
theorem storeFits_clear {s : State} {n : Nat} {st : FpState} (h : storeFits s) (hwf : Table.wf s.store.dir)
    (hn : isEnabled s n = true) (hst : st ≠ .present) : storeFits (setFp (clearDir s n) n st) := by
  obtain ⟨hpages, hfits, hkeys⟩ := h
  have hfp : ∀ m, fpOf (setFp (clearDir s n) n st) m = if m = n then st else fpOf s m := fun m => fpOf_setFp ..
  have hfind : ∀ p e, (setFp (clearDir s n) n st).store.dir.find p = some e ↔ s.store.dir.find p = some e ∧ e.owner ≠ n := by
    intro p e
    show Table.find (s.store.dir.filter fun e => decide (e.2.owner ≠ n)) p = some e ↔ _
    rw [Table.find_filter hwf, Option.filter_eq_some_iff, decide_eq_true_eq]
  refine ⟨hpages, fun e he => ?_, fun x hx => ?_⟩
  · obtain ⟨hne, hiff, hdir⟩ := hfits e he
    refine ⟨hne, ?_, fun hnot d hd => ?_⟩
    · simp only [hfp, pageOf, hfind]
      split
      · next hen =>
        refine ⟨fun h => absurd h hst, fun hall => ?_⟩
        obtain ⟨p, hp⟩ := List.exists_mem_of_ne_nil _ hne
        exact absurd hen (hall p hp).2
      · next hen =>
        rw [hiff]
        exact forall₂_congr fun p _ => ⟨fun h => ⟨h, hen⟩, And.left⟩
    · obtain ⟨hd, hown⟩ := List.mem_filter.1 hd
      rw [hfp] at hnot
      split at hnot
      · next hen => rw [hen]; exact of_decide_eq_true hown
      · exact hdir hnot d hd
  · rcases mem_keys_setFp hx with rfl | hx
    · exact hn
    · exact hkeys x hx

theorem mem_number {α : Type} : ∀ {vs : List α} {k : Nat} {e : Nat × α}, e ∈ Table.number k vs → e.2 ∈ vs
  | [], _, _, h => by cases h
  | v :: vs, k, e, h => by
    rcases List.mem_cons.1 h with rfl | h
    · exact List.mem_cons_self ..
    · exact List.mem_cons_of_mem _ (mem_number h)

/-- A span with no directory entry gets those of its whole range, and is PRESENT (R11, R16). -/
theorem storeFits_setDir {s : State} {n : Nat} {r : SpanRecord} (h : storeFits s) (hspans : Table.wf s.cfg.spans)
    (hr : enabledRec s n = some r) (hn : fpOf s n ≠ .present) : storeFits (setFp (setDir s n r) n .present) := by
  obtain ⟨hpages, hfits, hkeys⟩ := id h
  have hmem : (n, r) ∈ enabledSpans s := (mem_enabledSpans hspans).2 hr
  have hfp : ∀ m, fpOf (setFp (setDir s n r) n .present) m = if m = n then .present else fpOf s m := fun m => fpOf_setFp ..
  have hfind : ∀ p, (setFp (setDir s n r) n .present).store.dir.find p =
      if r.firstPage ≤ p ∧ p < r.firstPage + pageCount r.len then some ⟨n, p - r.firstPage, r.len⟩ else s.store.dir.find p := by
    intro p
    show Table.find (s.store.dir.putRun r.firstPage ((List.range (pageCount r.len)).map fun o => (⟨n, o, r.len⟩ : DirEntry))) p = _
    rw [Table.find_putRun, List.length_map, List.length_range]
    split
    · next hp => rw [List.getElem?_map, List.getElem?_range (by omega)]; rfl
    · rfl
  have hrange : ∀ p, p ∈ r.pages ↔ r.firstPage ≤ p ∧ p < r.firstPage + pageCount r.len := by
    intro p
    simp only [SpanRecord.pages, List.mem_map, List.mem_range]
    exact ⟨fun ⟨o, ho, hp⟩ => by omega, fun hp => ⟨p - r.firstPage, by omega, by omega⟩⟩
  refine ⟨hpages, fun e he => ?_, fun x hx => ?_⟩
  · obtain ⟨hne, hiff, hdir⟩ := hfits e he
    by_cases hen : e.1 = n
    · have her : e.2 = r := by
        have := (mem_enabledSpans hspans).1 he
        rw [hen, hr] at this
        exact (Option.some.inj this).symm
      refine ⟨hne, ?_, fun hnot => absurd (by rw [hfp, if_pos hen]) hnot⟩
      rw [hfp, if_pos hen, her]
      refine ⟨fun _ p hp => ?_, fun _ => rfl⟩
      rw [pageOf, hfind, if_pos ((hrange p).1 hp), hen]
    · have happart := apart_of_mem h he hmem fun heq => hen (congrArg Prod.fst heq)
      refine ⟨hne, ?_, fun hnot d hd => ?_⟩
      · rw [hfp, if_neg hen, hiff]
        refine forall₂_congr fun p hp => ?_
        rw [pageOf, pageOf, hfind, if_neg fun h => happart p hp ((hrange p).2 h)]
      · rw [hfp, if_neg hen] at hnot
        rcases List.mem_append.1 hd with hd | hd
        · rcases List.mem_append.1 hd with hd | hd
          · exact hdir hnot d (List.mem_filter.1 hd).1
          · obtain ⟨o, _, ho⟩ := List.mem_map.1 (mem_number hd)
            rw [← ho]
            exact Ne.symm hen
        · exact hdir hnot d (List.mem_filter.1 hd).1
  · rcases mem_keys_setFp hx with rfl | hx
    · show isEnabled s x = true
      rw [isEnabled, hr]; rfl
    · exact hkeys x hx

/-! ### A change of the store alone -/

theorem EngineInv.of_store {t : State} {x : Store} (h : EngineInv { t with store := x }) : EngineInv t := by
  have hs : t.engineSound := h.sound
  obtain ⟨hclock, hsave, hstand⟩ := (engineSound_iff _).1 hs
  exact ⟨h.spans, h.wf, hclock, hsave, hstand⟩

theorem Quiet.kept_store {s t : State} (q : Quiet s { t with store := s.store })
    (pages : PagesInv s → StoreInv t ∧ Machine.writersFit t) : Kept s t := by
  refine ⟨fun he => (q.engineInv he).of_store, fun hf => ⟨(q.engineInv hf.toEngineInv).of_store, ?_⟩, fun hp => ?_⟩
  · exact q.firingSound hf.firing
  · obtain ⟨hstore, hwriters⟩ := pages hp
    exact ⟨(q.engineInv hp.toEngineInv).of_store, hstore.dir, hstore.fp, hstore.fits, hwriters⟩

/-- A span outside the engine and the save slot takes the host's load and is WRITING (R14). -/
theorem kept_openLoad {s : State} {n : Nat} (hn : isEnabled s n = true) (hlocked : s.port.station ≠ .unconfigured)
    (hspan : engineSpan s ≠ some n) (hsave : ctxIs s.sched.save n = false) : Kept s (openLoad s n) := by
  refine Quiet.kept_store (.of_eq) fun hp => ?_
  have hfp : ∀ m, fpOf (openLoad s n) m = if m = n then .writing else fpOf s m := fun m =>
    fpOf_setFp (clearDir s n) n m .writing
  have hinv : StoreInv (openLoad s n) := by
    have hdir : Table.wf (openLoad s n).store.dir := Table.wf_filter _ hp.dir
    have hwf : Table.wf (openLoad s n).store.fp := wf_setFp (s := clearDir s n) n .writing hp.fp
    have hfits : storeFits (openLoad s n) :=
      (storeFits_congr (s := setFp (clearDir s n) n .writing) rfl rfl rfl).2 (storeFits_clear hp.store hp.dir hn (by decide))
    refine ⟨hdir, hwf, hfits, fun h => absurd h hlocked, fun l hl => ?_⟩
    cases hl
    exact ⟨by rw [hfp, if_pos rfl], hsave⟩
  refine ⟨hinv, hinv.writersFit (fun l hl => ?_) fun c hc hst => ?_⟩
  · cases hl
    exact hspan
  · rw [hfp]
    split
    · rfl
    · exact hp.writers.2.2 c hc hst

/-- A host load is closed with its span in a new state (R16). -/
theorem kept_closeLoad {s : State} {l : Load} {x : Store} {st : FpState} (hl : s.store.load = some l)
    (hload : x.load = none) (hdir : PagesInv s → Table.wf x.dir) (hfp : PagesInv s → Table.wf x.fp)
    (hfpOf : ∀ m, fpOf { s with store := x } m = if m = l.span then st else fpOf s m)
    (hfits : PagesInv s → storeFits { s with store := x }) : Kept s { s with store := x } := by
  refine Quiet.kept_store (t := { s with store := x }) (.refl s) fun hp => ?_
  have hinv : StoreInv { s with store := x } := ⟨hdir hp, hfp hp, hfits hp, fun _ => hload, fun d hd => by
    rw [hload] at hd; cases hd⟩
  refine ⟨hinv, hinv.writersFit (fun d hd => by rw [hload] at hd; cases hd) fun c hc hs => ?_⟩
  have hc' : s.engine.ctx = some c := hc
  rw [hfpOf, if_neg]
  · exact hp.writers.2.2 c hc hs
  · intro h
    have := (hp.writers.2.1 l hl).2.1
    rw [engineSpan, hc'] at this
    exact this (congrArg some h)

/-! ### A taken sweep goes on -/

/-- A sweep past PREPARING is taken. -/
theorem EngineInv.taken {s : State} {c : Ctx} (h : EngineInv s) (hc : s.engine.ctx = some c)
    (hs : s.engine.state ≠ .preparing) : atRest s.engine.state = false ∧ s.sched.selection = none ∧
      pathFits c s.engine.state ∧ Machine.claimsOnly s true (lightGroupOf s c.span) ∧
      (mayHoldClaim c s.engine.state = false → noClaim s) := by
  cases h.stand with
  | rest _ ctx => rw [hc] at ctx; cases ctx
  | slot _ _ state => exact absurd state hs
  | save _ state => exact absurd state hs
  | taken d state ctx selection path claims ended =>
    rw [hc] at ctx
    cases ctx
    exact ⟨state, selection, path, claims, ended⟩

theorem ne_off_of_not_atRest {st : EngineState} (h : atRest st = false) : st ≠ .off := fun hst => by rw [hst] at h; cases h

theorem PagesInv.load_ne {s : State} {c : Ctx} (hp : PagesInv s) (hc : s.engine.ctx = some c) :
    ∀ l ∈ s.store.load, l.span ≠ c.span := fun l hl h => by
  have := (hp.writers.2.1 l hl).2.1
  rw [engineSpan, hc, h] at this
  exact this rfl

/-- A taken sweep enters another state in which it may claim what it claimed before. -/
theorem kept_enter {s : State} {c : Ctx} {st : EngineState} (hc : s.engine.ctx = some c) (hs : s.engine.state ≠ .preparing)
    (hst : atRest st = false) (path : pathFits c s.engine.state → pathFits c st)
    (hold : mayHoldClaim c st = mayHoldClaim c s.engine.state)
    (storing : PagesInv s → st = .storing → fpOf s c.span = .writing) : Kept s (enter s st) := by
  refine .of_engine fun he => ?_
  obtain ⟨hrest, hsel, hpath, hclaims, hended⟩ := he.taken hc hs
  refine Frame.kept_taken (t := enter s st) ⟨id, id, .rfl, rfl, rfl⟩ (.of_eq rfl) (c := { c with phase := st })
    (ne_off_of_not_atRest hrest) hst (by simp [enter, hc]) hsel (fun _ => id) (fun _ => path hpath) hclaims (fun hm => ?_)
    (fun hf hm => ?_) (fun hp => PagesInv.load_ne (c := c) hp hc) storing
  · refine hended ?_
    rw [← hold]
    exact (mayHoldClaim_congr (c := { c with phase := st }) (d := c) rfl st).symm.trans hm
  · have hm' : mayHoldClaim c st = true := (mayHoldClaim_congr (c := { c with phase := st }) (d := c) rfl st).symm.trans hm
    rw [hold] at hm'
    obtain ⟨hfault, hgroup, hswitch⟩ := hf.firing.2 c hc hsel hm'
    exact ⟨hfault, hgroup, fun _ => hswitch hs⟩

/-- A taken sweep whose claim has been released enters a state in which it claims nothing. -/
theorem kept_enterReleased {s : State} {c : Ctx} {st : EngineState} (hc : s.engine.ctx = some c)
    (hs : s.engine.state ≠ .preparing) (hst : atRest st = false) (path : pathFits c s.engine.state → pathFits c st)
    (hold : mayHoldClaim c st = false) (storing : st ≠ .storing) :
    Kept s (enter (releaseClaim s (lightGroupOf s c.span)) st) := by
  refine .of_engine fun he => ?_
  obtain ⟨hrest, hsel, hpath, hclaims, _⟩ := he.taken hc hs
  have hno := noClaim_releaseClaim he.wf hclaims
  have f := Frame.releaseClaim s (lightGroupOf s c.span)
  have hstore : SameStore s (releaseClaim s (lightGroupOf s c.span)) := .of_eq
  have hhold : mayHoldClaim { c with phase := st } st = false :=
    (mayHoldClaim_congr (c := { c with phase := st }) (d := c) rfl st).trans hold
  refine Frame.kept_taken (t := enter (releaseClaim s (lightGroupOf s c.span)) st)
    ⟨f.station, f.stopped, f.awake, f.cfg, f.keys⟩ ⟨hstore.dir, hstore.fp, hstore.load⟩ (c := { c with phase := st })
    (ne_off_of_not_atRest hrest) hst (by simp [enter, hc]) (by simp [enter, hsel]) (by simp [enter]) (fun _ => path hpath)
    (hno.only _ _) (fun _ => hno) (fun _ hm => ?_) (fun hp => PagesInv.load_ne (c := c) hp hc) fun _ h => absurd h storing
  rw [show (enter (releaseClaim s (lightGroupOf s c.span)) st).engine.state = st from rfl, hhold] at hm
  cases hm

/-- A taken sweep ends once its claim is released (R85, R166). -/
theorem kept_endReleased {s : State} {c : Ctx} (hc : s.engine.ctx = some c) (hs : s.engine.state ≠ .preparing)
    (o : SweepOutcome) (pre : List NoticeBody) : Kept s (endSweep (releaseClaim s (lightGroupOf s c.span)) o pre) := by
  refine .of_engine fun he => ?_
  obtain ⟨hrest, _, _, hclaims, _⟩ := he.taken hc hs
  refine kept_endSweep (Frame.releaseClaim s _) (ne_off_of_not_atRest hrest) (c := c) (by simp [hc]) (noClaim_releaseClaim he.wf hclaims)
    (fun h => by rw [saveFits, show (releaseClaim s (lightGroupOf s c.span)).sched = s.sched by simp]; exact h.save) (fun hp => ?_) o pre
  have hstore : SameStore s (releaseClaim s (lightGroupOf s c.span)) := .of_eq
  exact hstore.storeInv (Frame.releaseClaim s _) hp fun m hm => .inr (by simpa using hm)

/-- A taken sweep that claims nothing ends (R85). -/
theorem kept_endUnclaimed {s u : State} {c : Ctx} (q : Frame s u) (hc : s.engine.ctx = some c) (hs : s.engine.state ≠ .preparing)
    (hhold : mayHoldClaim c s.engine.state = false) (hu : u.engine.ctx = some c) (hclaims : u.claims = s.claims)
    (hsched : u.sched = s.sched) (store : PagesInv s → StoreInv u) (o : SweepOutcome) (pre : List NoticeBody) :
    Kept s (endSweep u o pre) := by
  refine .of_engine fun he => ?_
  obtain ⟨hrest, _, _, _, hended⟩ := he.taken hc hs
  exact kept_endSweep q (ne_off_of_not_atRest hrest) hu (by rw [noClaim, hclaims]; exact hended hhold)
    (fun h => by rw [saveFits, hsched]; exact h.save) store o pre

/-- The baseline write begins (R10). -/
theorem kept_enterStoring {s : State} {c : Ctx} (hc : s.engine.ctx = some c) (hs : s.engine.state = .reducing)
    (hquick : c.quickOnly = false) (hn : isEnabled s c.span = true) : Kept s (enterStoring s c.span) := by
  have hfp : ∀ m, fpOf (removeHeld (setFp (clearDir s c.span) c.span .writing) c.span) m =
      if m = c.span then .writing else fpOf s m := fun m => fpOf_setFp (clearDir s c.span) c.span m .writing
  have hstore : Kept s (removeHeld (setFp (clearDir s c.span) c.span .writing) c.span) := by
    refine Quiet.kept_store (.of_eq) fun hp => ?_
    have hinv : StoreInv (removeHeld (setFp (clearDir s c.span) c.span .writing) c.span) := by
      have hdir : Table.wf (setFp (clearDir s c.span) c.span .writing).store.dir := Table.wf_filter _ hp.dir
      have hwf := wf_setFp (s := clearDir s c.span) c.span .writing hp.fp
      have hfits := storeFits_clear (st := .writing) hp.store hp.dir hn (by decide)
      refine ⟨hdir, hwf, hfits, hp.writers.1, fun l hl => ?_⟩
      obtain ⟨hw, _, hsave⟩ := hp.writers.2.1 l hl
      exact ⟨by rw [hfp, if_neg (hp.load_ne hc l hl)]; exact hw, hsave⟩
    refine ⟨hinv, hinv.writersFit (fun l hl => (hp.writers.2.1 l hl).2.1) fun d _ hst => ?_⟩
    have hst' : s.engine.state = .storing := hst
    rw [hs] at hst'
    cases hst'
  refine hstore.trans (kept_enter (c := c) hc (by show s.engine.state ≠ _; rw [hs]; decide) rfl (fun h => ⟨h.1, nofun, nofun⟩) ?_ fun _ _ => ?_)
  · show mayHoldClaim c .storing = mayHoldClaim c s.engine.state
    rw [hs, mayHoldClaim, mayHoldClaim, hquick]
  · rw [hfp, if_pos rfl]

end Sys2Proof.Machine

/-! ## Every row keeps the engine's invariants -/

namespace Sys2Proof.Machine

-- The kernel checks the lemmas one after another: many at once take a thread each.
set_option Elab.async false

theorem sweepIn_eq_some {s : State} {sts : List EngineState} {c : Ctx} {r : SpanRecord} :
    sweepIn s sts = some (c, r) ↔ s.engine.ctx = some c ∧ s.engine.state ∈ sts ∧ enabledRec s c.span = some r := by
  unfold sweepIn
  cases s.engine.ctx with
  | none => simp
  | some d =>
    simp only [Option.some.injEq]
    split
    · next hs =>
      rw [Option.map_eq_some_iff]
      constructor
      · rintro ⟨q, hq, he⟩
        cases he
        exact ⟨rfl, hs, hq⟩
      · rintro ⟨rfl, _, hr⟩
        exact ⟨r, hr, rfl⟩
    · next hs => simp [hs]

/-! ### Resets and START -/

/-- A reset leaves nothing that the invariants could find fault with. -/
theorem kept_afterReset {s t : State} (spans : t.cfg.spans = []) (claims : t.claims = []) (clock : t.clock.state = .stopped)
    (state : t.engine.state = .off) (ctx : t.engine.ctx = none) (selection : t.sched.selection = none)
    (save : t.sched.save = none) (fp : t.store.fp = []) (load : t.store.load = none)
    (dir : PagesInv s → Table.wf t.store.dir) : Kept s t := by
  have henabled : enabledSpans t = [] := by rw [enabledSpans, spans]; rfl
  have he : EngineInv t :=
    { spans := by rw [spans]; exact Table.wf_nil
      wf := by rw [claims]; exact Table.wf_nil
      clock := ⟨fun _ => clock, by rw [state, clock]; simp⟩
      save := fun c hc => by rw [save] at hc; cases hc
      stand := .rest (by rw [state]; rfl) ctx selection fun e h => by rw [claims] at h; cases h }
  refine ⟨fun _ => he, fun _ => ⟨he, fun h => absurd selection h, fun c hc => by rw [ctx] at hc; cases hc⟩, fun hp => ?_⟩
  have hfits : storeFits t := by
    simp only [storeFits, henabled, fp, Table.keys, List.map_nil, List.not_mem_nil, false_imp_iff, implies_true, and_true]
    exact .nil
  have hwriters : writersFit t := by
    simp [writersFit, load, ctx]
  exact ⟨he, dir hp, by rw [fp]; exact Table.wf_nil, hfits, hwriters⟩

theorem kept_warmValues (straps : BitVec 5) (s : State) : Kept s (warmValues straps s) := by
  refine kept_afterReset rfl rfl rfl rfl rfl rfl rfl rfl rfl fun hp => ?_
  show Table.wf (stoppedStore s).dir
  have hdir : (stoppedStore s).dir = s.store.dir := by
    unfold stoppedStore cutCopy bumpFree copyTrace
    repeat' split
    all_goals rfl
  rw [hdir]
  exact hp.dir

theorem wf_reconcile {s : State} (hdir : Table.wf s.store.dir) :
    Table.wf (reconcile s).store.dir ∧ Table.wf (reconcile s).store.fp := by
  have hfold : ∀ (l : Table SpanRecord) (t : State), Table.wf t.store.dir ∧ Table.wf t.store.fp →
      Table.wf (l.foldl reconcileSpan t).store.dir ∧ Table.wf (l.foldl reconcileSpan t).store.fp := by
    intro l
    induction l with
    | nil => exact fun _ => id
    | cons e l ih =>
      rintro t ⟨hd, hf⟩
      refine ih _ ?_
      unfold reconcileSpan
      split
      · exact ⟨hd, wf_setFp _ _ hf⟩
      · exact ⟨Table.wf_filter _ hd, hf⟩
  exact hfold _ _ ⟨Table.wf_filter _ hdir, Table.wf_nil⟩

/-- After the reconciliation the fingerprint states follow the directory (R8). -/
theorem storeFits_startBase {s : State} {tod : Nat} (hfault : startFault s tod = none) (hspans : Table.wf s.port.stagedSpans)
    (hdir : Table.wf s.store.dir) : storeFits (startBase s tod) := by
  obtain ⟨_, hbounds, _, _, hpages⟩ := (startFault_eq_none s tod).1 hfault
  have hcfg : (startBase s tod).cfg = (lockConfig s).cfg := by rw [startBase_eq]; rfl
  have hstore : (startBase s tod).store = (reconcile (lockConfig s)).store := by rw [startBase_eq]
  have hrec : ∀ n r, enabledRec (lockConfig s) n = some r ↔ (n, r) ∈ stagedEnabled s := fun n r =>
    (mem_enabledSpans (s := lockConfig s) hspans).symm
  have hfp := reconcile_fp (s := lockConfig s) hspans hdir
  have hfind := reconcile_dir (s := lockConfig s) hspans hdir
  obtain ⟨hwf, _⟩ := wf_reconcile (s := lockConfig s) hdir
  have hspansEq : enabledSpans (startBase s tod) = stagedEnabled s := by rw [enabledSpans, hcfg]; rfl
  have hpresent : ∀ n r, (n, r) ∈ stagedEnabled s →
      (fpOf (startBase s tod) n = .present ↔ wholeRange s.store.dir n r) := by
    intro n r hr
    rw [fpOf, hstore]
    constructor
    · intro h
      cases hf : (reconcile (lockConfig s)).store.fp.find n with
      | none => rw [hf] at h; cases h
      | some st =>
        obtain ⟨_, q, hq, hwhole⟩ := (hfp n st).1 hf
        rw [(hrec n r).2 hr] at hq
        rw [Option.some.inj hq]
        exact hwhole
    · intro h
      rw [(hfp n .present).2 ⟨rfl, r, (hrec n r).2 hr, h⟩]
      rfl
  refine ⟨by rw [hspansEq]; exact hpages, fun e he => ?_, fun x hx => ?_⟩
  · rw [hspansEq] at he
    have hne : e.2.pages ≠ [] := by
      obtain ⟨⟨hlen, _⟩, _⟩ := hbounds e he
      have hcount : pageCount e.2.len ≠ 0 := by
        rw [pageCount_eq]
        omega
      simpa [SpanRecord.pages] using hcount
    refine ⟨hne, ?_, fun hnot d hd hown => hnot ?_⟩
    · rw [hpresent e.1 e.2 he]
      simp only [pageOf, hstore, hfind]
      constructor
      · exact fun h p hp => ⟨h p hp, e.2, (hrec _ _).2 he, hp, h⟩
      · exact fun h p hp => (h p hp).1
    · rw [hstore] at hd
      obtain ⟨_, r, hr, _, hwhole⟩ := (hfind d.1 d.2).1 (Table.find_of_mem hwf hd)
      rw [hown, (hrec _ _).2 he] at hr
      rw [hpresent e.1 e.2 he, Option.some.inj hr, ← hown]
      exact hwhole
  · rw [hstore] at hx
    obtain ⟨st, hst⟩ := Option.isSome_iff_exists.1 ((Table.find_isSome_iff _ _).2 hx)
    obtain ⟨_, r, hr, _⟩ := (hfp x st).1 hst
    rw [isEnabled_congr (s := lockConfig s) hcfg, isEnabled, hr]
    rfl

theorem kept_startBase {s : State} {tod : Nat} (ht : s.tablesSound) (hun : s.port.station = .unconfigured)
    (hfault : startFault s tod = none) : Kept s (startBase s tod) := by
  obtain ⟨hspans, _⟩ := ht
  have hbase := startBase_eq s tod
  have hclaims : (startBase s tod).claims = (groupsOf (·.lightGroup) (stagedEnabled s)).map fun g => (g, ⟨.free, none⟩) := by
    rw [hbase]
  have hidle : EngineInv s → s.engine.state = .off ∧ s.engine.ctx = none := fun he => by
    have hoff : s.engine.state = .off := he.clock.2.2 (by rw [he.clock.1 hun]; decide)
    exact ⟨hoff, (he.idle (by rw [hoff]; rfl)).1⟩
  have hengine : (startBase s tod).engine = s.engine := by rw [hbase]
  have hselection : (startBase s tod).sched.selection = none := by rw [hbase]
  have hsave : (startBase s tod).sched.save = none := by rw [hbase]
  have hinv : EngineInv s → EngineInv (startBase s tod) := fun he => by
    obtain ⟨hoff, hctx⟩ := hidle he
    exact
      { spans := by rw [hbase]; exact hspans
        wf := by rw [hclaims]; exact Table.wf_map_const _ (sorted_ascSet _) _
        clock := by simp [clockFits, hoff, hbase]
        save := by simp [saveFits, hsave]
        stand := .rest (by rw [hengine, hoff]; rfl) (by rw [hengine, hctx]) hselection fun e h => by
          rw [hclaims] at h
          obtain ⟨g, _, rfl⟩ := List.mem_map.1 h
          rfl }
  refine ⟨hinv, fun hf => ⟨hinv hf.toEngineInv, fun h => absurd hselection h, fun c hc => ?_⟩, fun hp => ?_⟩
  · rw [hengine, (hidle hf.toEngineInv).2] at hc
    cases hc
  · have hload : (startBase s tod).store.load = none := by
      rw [hbase]
      exact (reconcile_mem (lockConfig s)).2.trans (hp.writers.1 hun)
    have hstore : (startBase s tod).store = (reconcile (lockConfig s)).store := by rw [hbase]
    obtain ⟨hdir, hfp⟩ := wf_reconcile (s := lockConfig s) hp.dir
    refine ⟨hinv hp.toEngineInv, by rw [hstore]; exact hdir, by rw [hstore]; exact hfp, storeFits_startBase hfault hspans hp.dir,
      fun _ => hload, fun l h => ?_, fun c hc => ?_⟩
    · rw [hload] at h
      cases h
    · rw [hengine, (hidle hp.toEngineInv).2] at hc
      cases hc

theorem quiet_watchAlerts (s : State) : Quiet s (watchAlerts s) := by
  have htest : ∀ t (e : Nat × SpanRecord), Quiet t (levelTest t e.1) := fun t e => .levelTest t e.1
  unfold watchAlerts
  refine Quiet.trans (Quiet.of_eq (t := { s with alerts := { s.alerts with latches := [], timers := [] } })) ?_
  exact Quiet.foldl htest _ _

theorem kept_started {s : State} {tod : Nat} (ht : s.tablesSound) (hun : s.port.station = .unconfigured)
    (hfault : startFault s tod = none) : Kept s (started s tod) := by
  rw [started_eq]
  exact (kept_startBase ht hun hfault).trans
    ((((Quiet.offerPresence _).trans (quiet_watchAlerts _)).trans (.accept _)).kept)


/-! ### The rows -/

/-- What a row leaves keeps the engine's invariants. -/
def RowKept (s : State) (r : Result) : Prop := ∀ t, r = .next t → Kept s t

namespace RowKept

theorem next {s t : State} (h : Kept s t) : RowKept s (.next t) := by
  rintro _ ⟨⟩
  exact h

theorem quiet {s t : State} (h : Quiet s t) : RowKept s (.next t) := next h.kept

variable (s : State)

/-! #### Host commands -/

theorem coldReset (x) : RowKept s (exec (.coldReset x) s) :=
  next (kept_afterReset rfl rfl rfl rfl rfl rfl rfl rfl rfl fun _ => Table.wf_nil)

theorem warmReset (x) : RowKept s (exec (.warmReset x) s) := next (kept_warmValues x s)

theorem configWriteSpan (n r) : RowKept s (exec (.configWriteSpan n r) s) :=
  quiet (.ite (fun _ => .refuse s _) fun _ => .ite (fun _ => .refuse s _) fun _ => Quiet.trans .of_eq (.accept _))

theorem configWriteStation (b) : RowKept s (exec (.configWriteStation b) s) :=
  quiet (.ite (fun _ => .refuse s _) fun _ => Quiet.trans .of_eq (.accept _))

theorem start (ht : s.tablesSound) (tod) : RowKept s (exec (.start tod) s) := by
  refine next (.ite (fun _ => (Quiet.refuse s _).kept) fun hun => ?_)
  split
  · exact (Quiet.answer s _ _).kept
  · next hfault => exact kept_started ht (not_not.1 hun) hfault

/-- The station state changes, but not from or to UNCONFIGURED. -/
theorem quiet_station {st : StationState} (h : st ≠ .unconfigured) :
    Quiet s { s with port := { s.port with station := st } } :=
  { Quiet.of_eq (s := s) (t := s) with station := fun h' => absurd h' h }

theorem quiet_announce : Quiet s (announce s) := .ite (fun _ => .wake s) fun _ => .offerPresence s

theorem run : RowKept s (exec .run s) := by
  refine next (.ite (fun _ => (Quiet.refuse s _).kept) fun _ => .ite (fun _ => ?_) fun _ => (Quiet.accept s).kept)
  have htarget : runTarget s ≠ .unconfigured := by unfold runTarget; split <;> decide
  exact ((((quiet_station s htarget).trans (quiet_announce _)).kept).trans (kept_settleSelect _)).trans (Quiet.accept _).kept

theorem halt : RowKept s (exec .halt s) := by
  refine next (.ite (fun _ => (Quiet.refuse s _).kept) fun _ => .ite (fun _ => (Quiet.accept s).kept) fun _ => ?_)
  exact ((quiet_station s (by decide)).kept.trans (kept_stopSweep _ _ _)).trans
    (((((Quiet.unableBegins _).trans (quiet_announce _)).trans (.settle _)).trans (.accept _)).kept)

theorem readStatus : RowKept s (exec .readStatus s) := quiet ((Quiet.answer s _ _).trans .of_eq)

theorem readNotice : RowKept s (exec .readNotice s) := by
  refine quiet ?_
  split
  · exact .refuse s _
  · exact Quiet.trans .of_eq (.answer _ _ _)

theorem readResult (n) : RowKept s (exec (.readResult n) s) := by
  refine quiet (.ite (fun _ => .refuse s _) fun _ => ?_)
  split
  · exact .answer s _ _
  · exact .refuse s _

theorem readTrace (q) : RowKept s (exec (.readTrace q) s) := by
  refine quiet (.ite (fun _ => .refuse s _) fun _ => .ite (fun _ => .ite (fun _ => .refuse s _) fun _ => ?_) fun _ => ?_)
  · split
    · exact .ite (fun _ => .answer s _ _) fun _ => .refuse s _
    · exact .refuse s _
  · unfold readFingerprint
    split
    · exact .refuse s _
    · exact .ite (fun _ => .answer s _ _) fun _ => .refuse s _
    · exact .refuse s _
    · exact .refuse s _

theorem sweep (n k l) : RowKept s (exec (.sweep n k l) s) := by
  refine next (.ite (fun _ => (Quiet.refuse s _).kept) fun _ => .ite (fun _ => (Quiet.refuse s _).kept) fun _ => ?_)
  split
  · exact (Quiet.refuse s _).kept
  · refine .ite (fun _ => (Quiet.refuse s _).kept) fun _ => .ite (fun _ => (Quiet.refuse s _).kept) fun _ => ?_
    exact ((Quiet.raise s _ _).kept.trans (kept_settleSelect _)).trans (Quiet.accept _).kept

theorem clearFault : RowKept s (exec .clearFault s) := by
  refine next (.ite (fun _ => (Quiet.refuse s _).kept) fun _ => .ite (fun _ => (Quiet.refuse s _).kept) fun _ =>
    .ite (fun _ => (Quiet.accept s).kept) fun _ => ?_)
  have hq : Quiet s { s with engine := { s.engine with laserFault := none } } :=
    { Quiet.of_eq (s := s) (t := s) with fault := fun _ => rfl }
  exact (hq.kept.trans (kept_settleSelect _)).trans (Quiet.accept _).kept

theorem unknownCommand (b) : RowKept s (exec (.unknownCommand b) s) :=
  quiet (.ite (fun _ => .refuse s _) fun _ => .refl s)

theorem partialCommandDiscarded (b) : RowKept s (exec (.partialCommandDiscarded b) s) := quiet .of_eq

end RowKept

end Sys2Proof.Machine

/-! ## Every row keeps the engine's invariants: service, loads, clock, alert inputs -/

namespace Sys2Proof.Machine

-- The kernel checks the lemmas one after another: many at once take a thread each.
set_option Elab.async false

/-! ### A span out of service and back (R51, R52) -/

theorem quiet_off (s : State) (l : List Nat) : Quiet s { s with sched := { s.sched with off := l } } :=
  { Quiet.of_eq (s := s) (t := s) with }

theorem quiet_emptySlotOf {s : State} {n : Nat} (h : s.sched.selection ≠ some (.slot n)) : Quiet s (emptySlotOf s n) where
  __ := Quiet.of_eq (s := s) (t := s)
  slots := fun m r hm hr hs => by
    have hmn : m ≠ n := fun he => h (he ▸ hm)
    exact ⟨r, by rw [emptySlotOf, Table.find_erase, if_neg hmn, hr], hs⟩

theorem quiet_tellRemoved (s : State) (n : Nat) (r : Request) : Quiet s (tellRemoved s n r) := by
  unfold tellRemoved
  split
  · exact .post s _
  · exact .decideSpan s ..
  all_goals exact .refl s

theorem tellRemoved_keeps (s : State) (n : Nat) (r : Request) :
    (tellRemoved s n r).engine = s.engine ∧ (tellRemoved s n r).sched = s.sched ∧ (tellRemoved s n r).claims = s.claims := by
  unfold tellRemoved
  split <;> simp

/-- The request of a span leaves its slot, and the preparation for it is given up (R51 step 2, R57). -/
theorem kept_removeRequest (s : State) (n : Nat) : Kept s (removeRequest s n) := by
  unfold removeRequest
  split
  · next r hr =>
    obtain ⟨hengine, hsched, hclaims⟩ := tellRemoved_keeps (emptySlotOf s n) n r
    have htell := quiet_tellRemoved (emptySlotOf s n) n r
    generalize tellRemoved (emptySlotOf s n) n r = u at hengine hsched hclaims htell
    have hsel : u.sched.selection = s.sched.selection := by rw [hsched]; rfl
    unfold dropPreparation
    rw [hsel]
    refine .ite (fun hn => .of_engine fun he => ?_) fun hn => ((quiet_emptySlotOf hn).trans htell).kept
    have f : Frame s u := Frame.trans (t := emptySlotOf s n) ⟨id, id, .rfl, rfl, rfl⟩ htell.frame
    have hstore : SameStore s u := ⟨htell.dir, htell.fp, htell.load⟩
    have fg := f.trans (Frame.giveUpClaim u (lightGroupOf u n))
    have hsched' : (giveUpClaim u (lightGroupOf u n)).sched = u.sched := by simp
    have hstore' : SameStore u (giveUpClaim u (lightGroupOf u n)) := .of_eq
    obtain ⟨hstate, honly⟩ : s.engine.state = .preparing ∧ claimsOnly s false (lightGroupOf s n) := by
      cases he.stand with
      | rest _ _ selection => rw [hn] at selection; cases selection
      | save _ _ _ selection => rw [hn] at selection; cases selection
      | taken _ _ _ selection => rw [hn] at selection; cases selection
      | slot m q state _ selection _ _ _ claims =>
        rw [hn] at selection
        cases selection
        exact ⟨state, claims⟩
    have hno : noClaim (giveUpClaim u (lightGroupOf u n)) := by
      refine noClaim_giveUpClaim (by rw [hclaims]; exact he.wf) ?_
      rw [lightGroupOf_congr f.cfg, claimsOnly, hclaims]
      exact honly
    refine Frame.kept_idle (s := s) ⟨fg.station, fg.stopped, fg.awake, fg.cfg, fg.keys⟩ (by rw [hstate]; decide) rfl rfl rfl hno
      (fun h c hc => ?_) fun hp => ?_
    · have hc' : c ∈ (giveUpClaim u (lightGroupOf u n)).sched.save := hc
      rw [hsched', hsched] at hc'
      exact h.save c hc'
    · refine SameStore.storeInv (s := s) ⟨hstore'.dir.trans hstore.dir, hstore'.fp.trans hstore.fp, hstore'.load.trans hstore.load⟩
        ⟨fg.station, fg.stopped, fg.awake, fg.cfg, fg.keys⟩ hp fun m hm => .inr ?_
      have hm' : ctxIs (giveUpClaim u (lightGroupOf u n)).sched.save m = true := hm
      rwa [hsched', hsched] at hm'
  · exact .refl s

theorem kept_spanOff (s : State) (n : Nat) : Kept s (spanOff s n) :=
  (((quiet_off s _).kept.trans (kept_removeRequest _ n)).trans (.ite (fun _ => kept_abort _ _ _) fun _ => .refl _)).trans
    ((Quiet.ite (fun _ => .endSuspended _ _) fun _ => .refl _).trans (.clearLatch _ n)).kept

/-! ### Host loads (R14 to R16) -/

theorem loadFor_eq_some {s : State} {n : Nat} {l : Load} {r : SpanRecord} :
    loadFor s n = some (l, r) ↔ s.store.load = some l ∧ enabledRec s n = some r ∧ l.span = n := by
  unfold loadFor
  cases s.store.load with
  | none => simp
  | some d =>
    cases enabledRec s n with
    | none => simp
    | some q =>
      simp only [Option.some.injEq]
      split
      · next h =>
        simp only [Option.some.injEq, Prod.mk.injEq]
        exact ⟨fun ⟨hd, hq⟩ => ⟨hd, hq, hd ▸ h⟩, fun ⟨hd, hq, _⟩ => ⟨hd, hq⟩⟩
      · next h => exact ⟨nofun, fun ⟨hd, _, hn⟩ => absurd (hd ▸ hn) h⟩

theorem kept_appendBlock {s : State} {l : Load} (hl : s.store.load = some l) (r : SpanRecord) (vs : List Nat) :
    Kept s (appendBlock s l r vs) := by
  refine Quiet.kept_store (.of_eq) fun hp => ?_
  obtain ⟨hun, hload, hstoring⟩ := hp.writers
  have hinv : StoreInv (appendBlock s l r vs) := by
    have hfits : storeFits (appendBlock s l r vs) := (storeFits_congr (s := s) rfl rfl rfl).2 hp.store
    refine ⟨hp.dir, hp.fp, hfits, fun h => ?_, fun d hd => ?_⟩
    · rw [hun h] at hl; cases hl
    · cases hd
      exact ⟨(hload l hl).1, (hload l hl).2.2⟩
  refine ⟨hinv, hinv.writersFit (fun d hd => ?_) hstoring⟩
  cases hd
  exact (hload l hl).2.1

theorem wf_setDir {s : State} (n : Nat) (r : SpanRecord) (h : Table.wf s.store.dir) : Table.wf (setDir s n r).store.dir :=
  Table.wf_putRun _ _ h

/-- A full load ends: the span is PRESENT (R16). -/
theorem kept_endLoad {s : State} {l : Load} {r : SpanRecord} (hl : s.store.load = some l) (hr : enabledRec s l.span = some r) :
    Kept s (emptyLoad (setFp (setDir s l.span r) l.span .present)) := by
  refine kept_closeLoad (st := .present) hl rfl (fun hp => wf_setDir _ _ hp.dir)
    (fun hp => wf_setFp (s := setDir s l.span r) _ .present hp.fp) (fun m => fpOf_setFp (setDir s l.span r) l.span m .present)
    fun hp => ?_
  refine (storeFits_congr (s := setFp (setDir s l.span r) l.span .present) rfl rfl rfl).2
    (storeFits_setDir hp.store hp.spans hr ?_)
  rw [(hp.writers.2.1 l hl).1]
  decide

/-- A short load ends: the span is ABSENT (R16, R19). -/
theorem kept_cutLoad {s : State} {l : Load} (hl : s.store.load = some l) : Kept s (emptyLoad (setFp s l.span .absent)) := by
  refine kept_closeLoad (st := .absent) hl rfl (fun hp => hp.dir) (fun hp => wf_setFp _ .absent hp.fp)
    (fun m => fpOf_setFp s l.span m .absent) fun hp => ?_
  exact (storeFits_congr (s := setFp s l.span .absent) rfl rfl rfl).2
    (storeFits_setFp_absent hp.store (hp.writers.2.1 l hl).1)

/-! ### Clock rows -/

theorem quiet_clock {s : State} {k : Clock} (hstate : k.state = s.clock.state) : Quiet s { s with clock := k } :=
  .of_eq (clock := hstate)

theorem kept_enterAwake {s : State} (h : lockingOver s = true) : Kept s (enterAwake s) := by
  obtain ⟨hlock, _⟩ : s.clock.state = .locking ∧ isDue s s.clock.lockExpiry = true := by simpa [lockingOver] using h
  have hrest : EngineInv s → s.engine.ctx = none ∧ s.sched.selection = none ∧ noClaim s := fun he =>
    he.idle (by rw [he.clock.2.2 (by rw [hlock]; decide)]; rfl)
  have hinv : EngineInv s → EngineInv (enterAwake s) := fun he => by
    obtain ⟨hctx, hsel, hno⟩ := hrest he
    refine ⟨he.spans, he.wf, ⟨fun hu => ?_, ?_⟩, he.save, .rest rfl hctx hsel hno⟩
    · have := he.clock.1 hu
      rw [hlock] at this
      cases this
    · simp [enterAwake]
  refine ⟨hinv, fun hf => ⟨hinv hf.toEngineInv, ?_⟩, fun hp => ?_⟩
  · obtain ⟨hctx, hsel, _⟩ := hrest hf.toEngineInv
    exact ⟨fun h => absurd hsel h, fun c hc => by rw [show s.engine.ctx = _ from hc] at hctx; cases hctx⟩
  · obtain ⟨hctx, _, _⟩ := hrest hp.toEngineInv
    have hfits : storeFits (enterAwake s) := (storeFits_congr (s := s) rfl rfl rfl).2 hp.store
    exact ⟨hinv hp.toEngineInv, hp.dir, hp.fp, hfits, hp.writers.1, hp.writers.2.1, fun c hc => by
      rw [show s.engine.ctx = _ from hc] at hctx; cases hctx⟩

theorem kept_enterDoze {s : State} (hidle : s.engine.state = .idle) : Kept s (enterDoze s) := by
  have hrest : EngineInv s → s.engine.ctx = none ∧ s.sched.selection = none ∧ noClaim s := fun he =>
    he.idle (by rw [hidle]; rfl)
  have hinv : EngineInv s → EngineInv (enterDoze s) := fun he => by
    obtain ⟨hctx, hsel, hno⟩ := hrest he
    refine ⟨he.spans, he.wf, ⟨fun hu => ?_, ?_⟩, he.save, .rest rfl hctx hsel hno⟩
    · have hoff := he.clock.2.2 (by rw [he.clock.1 hu]; decide)
      rw [hidle] at hoff
      cases hoff
    · simp [enterDoze]
  refine ⟨hinv, fun hf => ⟨hinv hf.toEngineInv, ?_⟩, fun hp => ?_⟩
  · obtain ⟨hctx, hsel, _⟩ := hrest hf.toEngineInv
    exact ⟨fun h => absurd hsel h, fun c hc => by rw [show s.engine.ctx = _ from hc] at hctx; cases hctx⟩
  · obtain ⟨hctx, _, _⟩ := hrest hp.toEngineInv
    have hfits : storeFits (enterDoze s) := (storeFits_congr (s := s) rfl rfl rfl).2 hp.store
    exact ⟨hinv hp.toEngineInv, hp.dir, hp.fp, hfits, hp.writers.1, hp.writers.2.1, fun c hc => by
      rw [show s.engine.ctx = _ from hc] at hctx; cases hctx⟩

/-- A PRESENT span loses its fingerprint (R18). -/
theorem kept_loseSpan {s : State} {e : Nat × SpanRecord} (hn : isEnabled s e.1 = true) : Kept s (loseSpan s e) := by
  refine .ite (fun ⟨hpresent, _⟩ => ?_) fun _ => .refl s
  have hpost := Quiet.post (setFp (clearDir s e.1) e.1 .absent) (.fpLost e.1 .retention)
  refine Kept.trans (t := setFp (clearDir s e.1) e.1 .absent) ?_
    (hpost.trans (.adjustResult _ e.1 fun r => { r with held := none })).kept
  refine Quiet.kept_store (.of_eq) fun hp => ?_
  obtain ⟨hun, hload, hstoring⟩ := hp.writers
  have hfp : ∀ m, fpOf s m = .writing → fpOf (setFp (clearDir s e.1) e.1 .absent) m = .writing := fun m hm => by
    rw [fpOf_setFp, if_neg]
    · exact hm
    · rintro rfl
      rw [hpresent] at hm
      cases hm
  have hinv : StoreInv (setFp (clearDir s e.1) e.1 .absent) := by
    have hdir : Table.wf (setFp (clearDir s e.1) e.1 .absent).store.dir := Table.wf_filter _ hp.dir
    have hwf := wf_setFp (s := clearDir s e.1) e.1 .absent hp.fp
    exact ⟨hdir, hwf, storeFits_clear hp.store hp.dir hn (by decide), hun, fun l hl =>
      ⟨hfp _ (hload l hl).1, (hload l hl).2.2⟩⟩
  exact ⟨hinv, hinv.writersFit (fun l hl => (hload l hl).2.1) fun c hc hs => hfp _ (hstoring c hc hs)⟩

theorem loseSpan_cfg (s : State) (e : Nat × SpanRecord) : (loseSpan s e).cfg = s.cfg := by
  unfold loseSpan
  split <;> simp

theorem kept_foldl_loseSpan : ∀ (l : Table SpanRecord) (s : State), (∀ e ∈ l, isEnabled s e.1 = true) →
    Kept s (l.foldl loseSpan s)
  | [], s, _ => .refl s
  | e :: l, s, h => by
    obtain ⟨he, hl⟩ := List.forall_mem_cons.1 h
    refine (kept_loseSpan he).trans (kept_foldl_loseSpan l _ fun x hx => ?_)
    rw [isEnabled_congr (loseSpan_cfg s e)]
    exact hl x hx

theorem kept_loseLoad (s : State) : Kept s (loseLoad s) := by
  unfold loseLoad
  split
  · next l hl =>
    split
    · refine .ite (fun _ => .refl s) fun _ => ?_
      have hpost := Quiet.post (emptyLoad (setFp s l.span .absent)) (.fpLost l.span .loadCancelled)
      refine (kept_cutLoad hl).trans (Quiet.kept ?_)
      have heq : ∀ (t : State) (b : NoticeBody),
          post (emptyLoad t) b = { post t b with store := { (post t b).store with load := none } } := by
        intro t b
        unfold post emptyLoad
        split <;> rfl
      rw [heq] at hpost
      exact hpost
    · exact .refl s
  · exact .refl s

theorem mem_enabledSpans_isEnabled {s : State} (hwf : Table.wf s.cfg.spans) {e : Nat × SpanRecord} (h : e ∈ enabledSpans s) :
    isEnabled s e.1 = true := by
  rw [isEnabled, (mem_enabledSpans hwf).1 h]
  rfl

theorem kept_fallAsleep {s : State} (hidle : s.engine.state = .idle) : Kept s (fallAsleep s) := by
  refine .of_engine fun he => ?_
  have hlose : Kept (enterDoze s) ((enabledSpans s).foldl loseSpan (enterDoze s)) :=
    kept_foldl_loseSpan _ _ fun e h => mem_enabledSpans_isEnabled (s := enterDoze s) he.spans h
  have hpages : ∀ t, Quiet t (losePages t) := fun t => { Quiet.of_eq (s := t) (t := t) with }
  exact (((kept_enterDoze hidle).trans hlose).trans (kept_loseLoad _)).trans ((hpages _).trans (.offerPresence _)).kept

/-- Requests that are not selected are cancelled (R63). -/
theorem quiet_cancel : ∀ (l : List Nat) (s : State),
    (∀ n ∈ l, ∀ r, s.sched.slots.find n = some r → r.selected = false) → Quiet s (l.foldl cancelRoutine s)
  | [], s, _ => .refl s
  | n :: l, s, h => by
    obtain ⟨hn, hl⟩ := List.forall_mem_cons.1 h
    have hstep : Quiet s (cancelRoutine s n) :=
      { Quiet.of_eq (s := s) (t := s) with
        slots := fun m r _ hr hs => by
          have hmn : m ≠ n := fun he => by rw [hn r (he ▸ hr)] at hs; cases hs
          exact ⟨r, by rw [cancelRoutine, adjustResult, emptySlotOf, Table.find_erase, if_neg hmn, hr], hs⟩ }
    refine hstep.trans (quiet_cancel l _ fun m hm r hr => ?_)
    rw [cancelRoutine, adjustResult, emptySlotOf, Table.find_erase] at hr
    split at hr
    · cases hr
    · exact hl m hm r hr

theorem quiet_closeWindow {s : State} (ht : s.tablesSound) : Quiet s (closeWindow s) := by
  obtain ⟨_, _, _, _, hslots, _⟩ := ht
  have hphase : Quiet s (setPhase s .outside) := quiet_clock rfl
  have hcancel : Quiet (setPhase s .outside) ((cancelled s).foldl cancelRoutine (setPhase s .outside)) := by
    refine quiet_cancel _ _ fun n hn r hr => ?_
    obtain ⟨e, he, rfl⟩ := List.mem_map.1 hn
    obtain ⟨hmem, hsel⟩ := List.mem_filter.1 he
    have : s.sched.slots.find e.1 = some e.2 := Table.find_of_mem hslots hmem
    rw [show s.sched.slots.find e.1 = some r from hr] at this
    rw [Option.some.inj this]
    simp only [Bool.and_eq_true, Bool.not_eq_true'] at hsel
    exact hsel.2
  exact ((hphase.trans hcancel).trans (.post _ _)).trans (.foldl (fun t n => .levelTest t n) _ _)

theorem quiet_openWindow (s : State) : Quiet s (openWindow s) := by
  have hclock : Quiet s { setPhase s .inside with
      clock := { (setPhase s .inside).clock with countdowns := s.clock.countdowns.map (nextCountdown s) } } := .of_eq
  have hraise : ∀ t n, Quiet t (raiseRoutine t n) := fun t n => .raise t n _
  exact ((hclock.trans (.foldl hraise _ _)).trans (.wake _)).trans (.stopDoze _)

namespace RowKept
variable (s : State)

theorem spanOff (n) : RowKept s (exec (.spanOff n) s) := by
  refine next ?_
  split
  · exact (Quiet.refuse s _).kept
  · exact .ite (fun _ => (Quiet.accept s).kept) fun _ =>
      ((kept_spanOff s n).trans (kept_settleSelect _)).trans (Quiet.accept _).kept

theorem spanOn (n) : RowKept s (exec (.spanOn n) s) := by
  refine next ?_
  split
  · exact (Quiet.refuse s _).kept
  · exact .ite (fun _ => ((((quiet_off s _).trans (.levelTest _ n)).kept).trans (kept_settleSelect _)).trans (Quiet.accept _).kept)
      fun _ => (Quiet.accept s).kept

theorem fpBegin (n) : RowKept s (exec (.fpBegin n) s) := by
  refine next (.ite (fun _ => (Quiet.refuse s _).kept) fun hlocked => .ite (fun _ => (Quiet.refuse s _).kept) fun _ => ?_)
  split
  · exact (Quiet.refuse s _).kept
  · next r hr =>
    refine .ite (fun _ => (Quiet.refuse s _).kept) fun _ => .ite (fun _ => (Quiet.refuse s _).kept) fun hbusy => ?_
    simp only [inSweep, Bool.or_eq_true, decide_eq_true_eq, not_or, Bool.not_eq_true] at hbusy
    obtain ⟨_, hspan, hsave⟩ := hbusy
    exact (kept_openLoad (by rw [isEnabled, hr]; rfl) hlocked hspan hsave).trans ((Quiet.settle _).trans (.accept _)).kept

theorem fpData (n vs) : RowKept s (exec (.fpData n vs) s) := by
  refine next ?_
  split
  · exact (Quiet.refuse s _).kept
  · next l r h =>
    obtain ⟨hl, _, _⟩ := loadFor_eq_some.1 h
    exact .ite (fun _ => (Quiet.refuse s _).kept) fun _ => (kept_appendBlock hl r vs).trans (Quiet.accept _).kept

theorem fpEnd (n) : RowKept s (exec (.fpEnd n) s) := by
  refine next ?_
  split
  · exact (Quiet.refuse s _).kept
  · next l r h =>
    obtain ⟨hl, hr, rfl⟩ := loadFor_eq_some.1 h
    exact .ite (fun _ => ((kept_endLoad hl hr).trans (kept_settleSelect _)).trans (Quiet.accept _).kept) fun _ =>
      ((kept_cutLoad hl).trans (kept_settleSelect _)).trans (Quiet.refuse _ _).kept

theorem endOfLocking : RowKept s (exec .endOfLocking s) :=
  next (.ite (fun h => (kept_enterAwake h).trans (kept_settleSelect _)) fun _ => .refl s)

theorem windowStart : RowKept s (exec .windowStart s) :=
  next (.ite (fun _ => (quiet_openWindow s).kept.trans (kept_settleSelect _)) fun _ => .refl s)

theorem windowEnd (ht : s.tablesSound) : RowKept s (exec .windowEnd s) :=
  next (.ite (fun _ => (quiet_closeWindow ht).kept.trans (kept_settleSelect _)) fun _ => .refl s)

theorem dozeEntry : RowKept s (exec .dozeEntry s) := by
  refine next (.ite (fun h => ?_) fun _ => .refl s)
  simp only [dozeDue, Bool.and_eq_true] at h
  obtain ⟨_, _, _, _, _, hidle, _⟩ := (dozeConditions_iff s).1 h.2
  exact (kept_fallAsleep hidle).trans (Quiet.settle _).kept

theorem quiet_alerts (a : Alerts) : Quiet s { s with alerts := a } := .of_eq

theorem alertLineAsserted (n) : RowKept s (exec (.alertLineAsserted n) s) := by
  have hline : Quiet s (assertLine s n) := .of_eq
  have hedge : Quiet (assertLine s n) (edgeAssert (assertLine s n) n) :=
    .ite (fun _ => (quiet_alerts _ _).trans (.raiseAlert _ _)) fun _ => .refl _
  refine next (.ite (fun _ => .refl s) fun _ => ?_)
  split
  · exact hline.kept
  · exact (hline.trans hedge).kept.trans (kept_settleSelect _)
  · exact (hline.trans (.levelTest _ n)).kept.trans (kept_settleSelect _)

theorem alertLineReleased (n) : RowKept s (exec (.alertLineReleased n) s) := quiet (quiet_alerts s _)

theorem reRaiseTimerExpiry (n) : RowKept s (exec (.reRaiseTimerExpiry n) s) :=
  next (.ite (fun _ => ((quiet_alerts s _).trans (.levelTest _ n)).kept.trans (kept_settleSelect _)) fun _ => .refl s)

end RowKept

end Sys2Proof.Machine

/-! ## Every row keeps the engine's invariants: switch, engine, comparator and store -/

namespace Sys2Proof.Machine

-- The kernel checks the lemmas one after another: many at once take a thread each.
set_option Elab.async false

theorem sweepIn_some {s : State} {st : EngineState} {c : Ctx} {r : SpanRecord} (h : sweepIn s [st] = some (c, r)) :
    s.engine.ctx = some c ∧ s.engine.state = st ∧ enabledRec s c.span = some r := by
  obtain ⟨hc, hst, hr⟩ := sweepIn_eq_some.1 h
  exact ⟨hc, by simpa using hst, hr⟩

/-! ### The switch -/

/-- A travelling switch settles: a sweep that may fire then is still in PREPARING (R68, R70). -/
theorem kept_switchSettled {s : State} {p e : Nat} (h : s.switch = .travelling p e) :
    Kept s { s with switch := .settled p } := by
  have hengine : EngineInv s → EngineInv { s with switch := .settled p } := fun he => by
    have hs : State.engineSound { s with switch := .settled p } := he.sound
    obtain ⟨hclock, hsave, hstand⟩ := (engineSound_iff _).1 hs
    exact ⟨he.spans, he.wf, hclock, hsave, hstand⟩
  refine ⟨hengine, fun hf => ⟨hengine hf.toEngineInv, hf.firing.1, fun c hc hsel hm => ?_⟩, fun hp => ?_⟩
  · obtain ⟨hfault, hgroup, hswitch⟩ := hf.firing.2 c hc hsel hm
    refine ⟨hfault, hgroup, fun hne => ?_⟩
    rw [hswitch hne] at h
    cases h
  · exact ⟨hengine hp.toEngineInv, hp.dir, hp.fp, hp.store, hp.writers⟩

/-! ### Dark and lit shots -/

/-- The 16 initial dark shots have given D (R74). -/
def darkKnown (s : State) (d : Nat) : State :=
  let s1 := adjustCtx s fun x => { x with darkLevel := some d }
  { s1 with engine := { s1.engine with darkShots := 0, darkTotal := 0 } }

theorem darkDone_eq (s : State) (c : Ctx) (d : Nat) :
    darkDone s c d =
      if s.cfg.block.foreignLight < d then
        settleSelect (endSweep (releaseClaim (darkKnown s d) (lightGroupOf s c.span)) .foreignLight [])
      else if c.quickOnly then enter (darkKnown s d) .quick
      else enter (darkKnown s d) .full := rfl

theorem quiet_darkKnown (s : State) (d : Nat) : Quiet s (darkKnown s d) :=
  { Quiet.adjustCtx s (f := fun x => { x with darkLevel := some d }) fun _ => rfl with }

theorem kept_darkDone {s : State} {c : Ctx} {d : Nat} (hc : s.engine.ctx = some c) (hst : s.engine.state = .dark) :
    Kept s (darkDone s c d) := by
  have hc' : (darkKnown s d).engine.ctx = some { c with darkLevel := some d } := by simp [darkKnown, adjustCtx, hc]
  have hst' : (darkKnown s d).engine.state = .dark := hst
  have hne : (darkKnown s d).engine.state ≠ .preparing := by rw [hst']; decide
  rw [darkDone_eq]
  refine (quiet_darkKnown s d).kept.trans (.ite (fun _ => ?_) fun _ => .ite (fun hq => ?_) fun hq => ?_)
  · exact (kept_endReleased hc' hne _ _).trans (kept_settleSelect _)
  · exact kept_enter hc' hne rfl (fun h => ⟨h.1, fun _ => hq, nofun⟩) (by rw [hst']; rfl) fun _ h => by cases h
  · exact kept_enter hc' hne rfl (fun h => ⟨h.1, nofun, fun _ => by simpa using hq⟩) (by rw [hst']; rfl) fun _ h => by cases h

/-- The engine enters REDUCING; the claim of a quick look stays (R75, R83). -/
theorem kept_quickReducing {s : State} {c : Ctx} (r : SpanRecord) {d : Ctx} (hc : s.engine.ctx = some c)
    (hst : s.engine.state = .quick) : Kept s (enterReducing s d r) := by
  refine .of_engine fun he => ?_
  have hne : s.engine.state ≠ .preparing := by rw [hst]; decide
  obtain ⟨_, _, ⟨_, hquick, _⟩, _⟩ := he.taken hc hne
  have hhold : mayHoldClaim c .reducing = mayHoldClaim c s.engine.state := by
    rw [hst, mayHoldClaim, mayHoldClaim, hquick hst]
  exact (kept_enter (st := .reducing) hc hne rfl (fun h => ⟨h.1, nofun, nofun⟩) hhold fun _ h => by cases h).trans
    (Quiet.kept .of_eq)

/-- The claim of a full acquisition is released as it ends (R81, R83). -/
theorem kept_fullReducing {s : State} {c : Ctx} (r : SpanRecord) {d : Ctx} (hc : s.engine.ctx = some c)
    (hst : s.engine.state = .full) : Kept s (enterReducing (releaseClaim s (lightGroupOf s c.span)) d r) := by
  refine .of_engine fun he => ?_
  have hne : s.engine.state ≠ .preparing := by rw [hst]; decide
  obtain ⟨_, _, ⟨_, _, hfull⟩, _⟩ := he.taken hc hne
  exact (kept_enterReleased (st := .reducing) hc hne rfl (fun h => ⟨h.1, nofun, nofun⟩) (hfull hst) (by decide)).trans
    (Quiet.kept .of_eq)

theorem addLit_ctx {s : State} {c : Ctx} (xs : List Adc) (hc : s.engine.ctx = some c) :
    (addLit s xs).engine.ctx = some { c with litDone := c.litDone + 1 } := by simp [addLit, adjustCtx, hc]

theorem kept_afterQuickShot {s : State} {c : Ctx} (r : SpanRecord) (xs : List Adc) (hc : s.engine.ctx = some c)
    (hst : s.engine.state = .quick) : Kept s (afterQuickShot (addLit s xs) c r) :=
  (Quiet.addLit s xs).kept.trans (.ite (fun _ => kept_quickReducing r (addLit_ctx xs hc) hst) fun _ => .refl _)

theorem kept_afterFullShot {s : State} {c : Ctx} (r : SpanRecord) (xs : List Adc) (hc : s.engine.ctx = some c)
    (hst : s.engine.state = .full) : Kept s (afterFullShot (addLit s xs) c r) :=
  (Quiet.addLit s xs).kept.trans (.ite
    (fun _ => kept_fullReducing (c := { c with litDone := c.litDone + 1 }) r (addLit_ctx xs hc) hst) fun _ =>
    .ite (fun _ => (Quiet.adjustCtx _ (f := fun x => { x with interleavedDue := true }) fun _ => rfl).kept) fun _ => .refl _)

/-! ### Interleaved dark shots -/

theorem kept_checkDark {s : State} (c : Ctx) (mean : Nat) (hst : s.engine.state = .full) : Kept s (checkDark s c mean) := by
  have hq : Quiet s (adjustCtx s fun x => { x with interleavedDue := false, disturbed := disturbedAfter s c mean }) :=
    .adjustCtx s fun _ => rfl
  refine hq.kept.trans (.ite (fun _ => kept_abort _ _ _) fun _ => .ite (fun _ => kept_suspend hst) fun _ => .refl _)

/-! ### Reduction, comparison and the baseline write -/

theorem kept_reduce {s : State} {c : Ctx} (d : TraceDesc) (r : SpanRecord) (hc : s.engine.ctx = some c)
    (hst : s.engine.state = .reducing) : Kept s (reduce s d c r) := by
  have hq : Quiet s { s with trace := reducedTrace s d c r } := .of_eq
  refine hq.kept.trans (.ite (fun _ => ?_) fun _ => .refl _)
  exact (kept_endReleased (s := { s with trace := reducedTrace s d c r }) hc (by show s.engine.state ≠ _; rw [hst]; decide) _ _).trans
    (kept_settleSelect _)

/-- The sweep leaves the quick look (R76). -/
theorem kept_escalate {s : State} {c : Ctx} (hc : s.engine.ctx = some c) (hst : s.engine.state = .reducing)
    (hquick : c.quickOnly = true) : Kept s (escalate s) := by
  refine .of_engine fun he => ?_
  have hne : s.engine.state ≠ .preparing := by rw [hst]; decide
  obtain ⟨hrest, hsel, ⟨hslow, _⟩, hclaims, _⟩ := he.taken hc hne
  refine Frame.kept_taken (t := escalate s) ⟨id, id, .rfl, rfl, rfl⟩ (.of_eq rfl)
    (c := { c with litDone := 0, quickOnly := false, interleavedDue := false, phase := .full })
    (ne_off_of_not_atRest hrest) rfl (by simp [escalate, enter, adjustCtx, hc]) hsel (fun _ => id)
    (fun _ => ⟨nofun, nofun, fun _ => rfl⟩) hclaims (fun hm => by cases hm) (fun hf _ => ?_)
    (fun hp => PagesInv.load_ne (c := c) hp hc) fun _ h => by cases h
  obtain ⟨hfault, hgroup, hswitch⟩ := hf.firing.2 c hc hsel (by rw [hst, mayHoldClaim, hquick])
  exact ⟨hfault, hgroup, fun _ => hswitch hne⟩

theorem PagesInv.storeInv_quiet {s t : State} (hp : PagesInv s) (q : Quiet s t) : StoreInv t := q.storeInv hp.storeInv

theorem kept_afterComparison {s : State} {c : Ctx} (w : Option Comparison) (hc : s.engine.ctx = some c)
    (hst : s.engine.state = .reducing) (hquick : c.quickOnly = false) (hn : isEnabled s c.span = true) :
    Kept s (afterComparison s c w) := by
  have hq : Quiet s { s with comp := { s.comp with working := w } } := .of_eq
  refine .ite (fun _ => hq.kept.trans (kept_enterStoring hc hst hquick hn)) fun _ => Kept.trans ?_ (kept_settleSelect _)
  exact kept_endUnclaimed hq.frame hc (by rw [hst]; decide) (by rw [hst, mayHoldClaim, hquick]) hc rfl rfl
    (fun hp => hp.storeInv_quiet hq) _ _

theorem kept_finishComparison {s : State} {c : Ctx} {r : SpanRecord} (hc : s.engine.ctx = some c)
    (hst : s.engine.state = .reducing) (hr : enabledRec s c.span = some r) : Kept s (finishComparison s c r) := by
  refine .of_engine fun he => ?_
  have hne : s.engine.state ≠ .preparing := by rw [hst]; decide
  have hn : isEnabled s c.span = true := by rw [isEnabled, hr]; rfl
  obtain ⟨_, _, ⟨hpath, _⟩, _⟩ := he.taken hc hne
  refine .ite (fun _ => .ite (fun hquick => .ite (fun _ => ?_) fun _ => kept_escalate hc hst hquick) fun hquick => ?_) fun hnone => ?_
  · have hq : Quiet s (keepWorking s (compared s c r)) := .of_eq
    exact hq.kept.trans ((kept_endReleased (s := keepWorking s (compared s c r)) hc hne _ _).trans (kept_settleSelect _))
  · exact kept_afterComparison _ hc hst (by simpa using hquick) hn
  · refine kept_afterComparison _ hc hst ?_ hn
    rw [← Bool.not_eq_true]
    exact fun h => hnone (hpath h).1

/-- Copying the trace changes the cells only (R10). -/
theorem copyTrace_dir (s : State) (n k : Nat) : (copyTrace s n k).store.dir = s.store.dir ∧
    (copyTrace s n k).store.fp = s.store.fp ∧ (copyTrace s n k).store.load = s.store.load := by
  unfold copyTrace
  split <;> exact ⟨rfl, rfl, rfl⟩

/-- The directory entries of a span that was WRITING are set, and it is PRESENT (R11). -/
theorem storeInv_setDir {s : State} {n : Nat} {r : SpanRecord} (h : StoreInv s) (hspans : Table.wf s.cfg.spans)
    (hr : enabledRec s n = some r) (hn : fpOf s n = .writing) (hload : ∀ l ∈ s.store.load, l.span ≠ n) :
    StoreInv (setFp (setDir s n r) n .present) := by
  refine ⟨Table.wf_putRun _ _ h.dir, wf_setFp (s := setDir s n r) n .present h.fp,
    storeFits_setDir h.fits hspans hr (by rw [hn]; decide), h.load.1, fun l hl => ?_⟩
  obtain ⟨hw, hsave⟩ := h.load.2 l hl
  exact ⟨by rw [fpOf_setFp, if_neg (hload l hl)]; exact hw, hsave⟩

/-- Copying the trace changes the cells only (R10). -/
theorem Quiet.copyTrace (s : State) (n k : Nat) : Quiet s (copyTrace s n k) :=
  { of_keeps (s := s) (t := { Machine.copyTrace s n k with store := s.store }) with
    dir := (copyTrace_dir s n k).1, fp := (copyTrace_dir s n k).2.1, load := (copyTrace_dir s n k).2.2 }

theorem kept_writeComplete {s : State} {c : Ctx} {r : SpanRecord} (hc : s.engine.ctx = some c)
    (hst : s.engine.state = .storing) (hr : enabledRec s c.span = some r) :
    Kept s (settleSelect (endSweep (writeComplete s c.span r) .baselined [])) := by
  have hq := Quiet.copyTrace s c.span s.trace.entries.length
  have hclaims : (copyTrace s c.span s.trace.entries.length).claims = s.claims := by simp
  have hsched : (copyTrace s c.span s.trace.entries.length).sched = s.sched := by simp
  have hengine : (copyTrace s c.span s.trace.entries.length).engine = s.engine := by simp
  refine Kept.trans ?_ (kept_settleSelect _)
  unfold writeComplete
  generalize copyTrace s c.span s.trace.entries.length = u at hq hclaims hsched hengine
  have hf := hq.frame
  refine kept_endUnclaimed (u := setFp (setDir u c.span r) c.span .present) ⟨hf.station, hf.stopped, hf.awake, hf.cfg, hf.keys⟩
    hc (by rw [hst]; decide) (by rw [hst]; rfl) (hengine ▸ hc) hclaims hsched (fun hp => ?_) _ _
  refine storeInv_setDir (hp.storeInv_quiet hq) (hf.cfg ▸ hp.spans) ((enabledRec_congr hf.cfg _).trans hr) ?_ ?_
  · rw [fpOf, hq.fp]
    exact hp.writers.2.2 c hc hst
  · rw [hq.load]
    exact hp.load_ne hc

/-! ### The laser driver -/

theorem faultEnds_eq {s : State} {c : Ctx} (hc : s.engine.ctx = some c) : faultEnds s = mayHoldClaim c s.engine.state := by
  unfold faultEnds
  rw [hc]
  cases s.engine.state <;> rfl

/-- The laser driver has reported: the fault condition is present, and the flag as given (R89). -/
def faultTaken (s : State) (flag : Option LaserCode) : State :=
  { s with engine := { s.engine with condition := true, laserFault := flag } }

/-- The flag alone changes while nothing that may fire is in the engine. -/
theorem kept_faultTaken {s : State} (flag : Option LaserCode) (hu : isUntaken s = false) (hends : faultEnds s = false) :
    Kept s (faultTaken s flag) := by
  have hengine : EngineInv s → EngineInv (faultTaken s flag) := fun he => by
    have hs : (faultTaken s flag).engineSound := he.sound
    obtain ⟨hclock, hsave, hstand⟩ := (engineSound_iff _).1 hs
    exact ⟨he.spans, he.wf, hclock, hsave, hstand⟩
  have hsel : s.sched.selection = none := by simpa [isUntaken] using hu
  refine ⟨hengine, fun hf => ⟨hengine hf.toEngineInv, fun h => absurd hsel h, fun c hc _ hm => ?_⟩, fun hp => ?_⟩
  · have hc' : s.engine.ctx = some c := hc
    have hm' : mayHoldClaim c s.engine.state = true := hm
    rw [← faultEnds_eq hc', hends] at hm'
    cases hm'
  · exact ⟨hengine hp.toEngineInv, hp.dir, hp.fp, hp.store, hp.writers⟩

theorem EngineInv.engineSpan_of_untaken {s : State} (h : EngineInv s) (hu : isUntaken s = true) :
    (engineSpan s).isSome = true := by
  cases h.stand with
  | rest _ _ selection => rw [isUntaken, selection] at hu; cases hu
  | taken _ _ _ selection => rw [isUntaken, selection] at hu; cases hu
  | slot n _ _ ctx selection => simp [engineSpan, ctx, selectedSlot, selection]
  | save c _ ctx => simp [engineSpan, ctx]

/-- A fault stops what may fire (R71, R86). -/
theorem kept_faultOnSweep (s : State) (flag : Option LaserCode) (pre : List NoticeBody) :
    Kept s (faultOnSweep (faultTaken s flag) pre) := by
  have f : Frame s (faultTaken s flag) := ⟨id, id, .rfl, rfl, rfl⟩
  refine .ite (fun hu => ?_) fun hu => .ite (fun hends => ?_) fun hno => ?_
  · have hu' : isUntaken s = true := hu
    unfold stopSweep
    refine .ite (fun _ => ?_) fun hn => absurd (by simpa [isUntaken] using hu) hn
    split
    · next n hn =>
      refine kept_giveUp (f.trans (Quiet.postAll _ pre).frame) (.of_eq (by simp [faultTaken])) (by simp [faultTaken])
        (by simp [faultTaken]) (by simp [faultTaken]) hu' ?_
      rw [← hn]
      simp [engineSpan, selectedSlot, faultTaken]
    · next hn =>
      refine .of_engine fun he => ?_
      have hspan := he.engineSpan_of_untaken hu'
      rw [show engineSpan (postAll (faultTaken s flag) pre) = engineSpan s by simp [engineSpan, selectedSlot, faultTaken]] at hn
      rw [hn] at hspan
      cases hspan
  · cases hc : s.engine.ctx with
    | none => simp [faultEnds, faultTaken, hc] at hends
    | some c => exact kept_abort_of f (.of_eq rfl) rfl hc hc rfl rfl (fun he => he.claimsOnly hc) _ _
  · have hkept := kept_faultTaken (s := s) flag (by simpa [isUntaken, faultTaken] using hu)
      (by rw [Bool.not_eq_true] at hno; exact hno)
    exact hkept.trans (Quiet.postAll _ pre).kept

theorem takeFault_eq (s : State) (code : LaserCode) :
    takeFault s code = match s.engine.laserFault with
      | some c => faultOnSweep (faultTaken s (some c)) []
      | none => unableBegins (faultOnSweep (faultTaken s (some code)) [.laserFault ((engineSpan s).getD 0) code]) := by
  unfold takeFault
  cases h : s.engine.laserFault with
  | none => rfl
  | some c =>
    show faultOnSweep (faultTaken s s.engine.laserFault) [] = _
    rw [h]

theorem kept_takeFault (s : State) (code : LaserCode) : Kept s (takeFault s code) := by
  rw [takeFault_eq]
  split
  · exact kept_faultOnSweep s _ _
  · exact (kept_faultOnSweep s _ _).trans (Quiet.unableBegins _).kept

namespace RowKept
variable (s : State)

theorem switchSettleExpiry : RowKept s (exec .switchSettleExpiry s) := by
  refine next ?_
  split
  · next p e h => exact .ite (fun _ => (kept_switchSettled h).trans (kept_checkPrepared _)) fun _ => .refl s
  · exact .refl s
  · exact .refl s

theorem darkShotComplete (xs) : RowKept s (exec (.darkShotComplete xs) s) := by
  refine next ?_
  split
  · next c r h =>
    obtain ⟨hc, hst, _⟩ := sweepIn_some h
    refine .ite (fun _ => (Quiet.countDark s _).kept.trans (.ite (fun _ => .refl _) fun _ => ?_)) fun _ => .refl s
    exact kept_darkDone hc hst
  · exact .refl s

theorem litShotComplete (xs) : RowKept s (exec (.litShotComplete xs) s) := by
  refine next ?_
  split
  · next c r h =>
    obtain ⟨hc, hst, _⟩ := sweepIn_eq_some.1 h
    refine .ite (fun _ => .ite (fun hquick => kept_afterQuickShot r xs hc hquick) fun hquick => ?_) fun _ => .refl s
    exact kept_afterFullShot r xs hc (by simpa [hquick] using hst)
  · exact .refl s

theorem interleavedDarkShotCheck (xs) : RowKept s (exec (.interleavedDarkShotCheck xs) s) := by
  refine next ?_
  split
  · next c r h =>
    obtain ⟨_, hst, _⟩ := sweepIn_some h
    exact .ite (fun _ => (kept_checkDark c _ hst).trans (kept_settleSelect _)) fun _ => .refl s
  · exact .refl s

theorem reductionComplete : RowKept s (exec .reductionComplete s) := by
  refine next ?_
  split
  · next c r d h _ _ =>
    obtain ⟨hc, hst, _⟩ := sweepIn_some h
    exact kept_reduce d r hc hst
  · exact .refl s

theorem comparisonComplete : RowKept s (exec .comparisonComplete s) := by
  refine next ?_
  split
  · next c r h =>
    obtain ⟨hc, hst, hr⟩ := sweepIn_some h
    exact .ite (fun _ => kept_finishComparison hc hst hr) fun _ => .refl s
  · exact .refl s

theorem baselineWriteComplete : RowKept s (exec .baselineWriteComplete s) := by
  refine next ?_
  split
  · next c r h =>
    obtain ⟨hc, hst, hr⟩ := sweepIn_some h
    exact kept_writeComplete hc hst hr
  · exact .refl s

theorem resumeTimerExpiry : RowKept s (exec .resumeTimerExpiry s) :=
  next (.ite (fun _ => (Quiet.endSuspended s _).kept.trans (kept_settleSelect _)) fun _ => .refl s)

theorem laserFaultReport (code) : RowKept s (exec (.laserFaultReport code) s) :=
  next (.ite (fun _ => (kept_takeFault s code).trans (kept_settleSelect _)) fun _ => .refl s)

theorem laserFaultConditionClears : RowKept s (exec .laserFaultConditionClears s) :=
  quiet (.ite (fun _ => { Quiet.of_eq (s := s) (t := s) with }) fun _ => .refl s)

end RowKept

end Sys2Proof.Machine

/-! ## Every row keeps the engine's invariants: line, deliveries, timers; and every step -/

namespace Sys2Proof.Machine

-- The kernel checks the lemmas one after another: many at once take a thread each.
set_option Elab.async false

/-! ### What an own entry says of the engine -/

namespace EngineInv
variable {s : State} {g : Nat} {e : ClaimEntry}

/-- A CLAIMING entry is that of the untaken sweep (R158). -/
theorem of_claiming (h : EngineInv s) (hf : s.claims.find g = some e) (hk : ownKind e.state = some false) :
    isUntaken s = true ∧ engineSpan s ≠ none ∧ (∀ n, engineSpan s = some n → lightGroupOf s n = g) ∧
      Machine.claimsOnly s false g := by
  have hmem : (g, e) ∈ s.claims := Table.mem_of_find hf
  cases h.stand with
  | rest _ _ _ claims =>
    rw [claims _ hmem] at hk
    cases hk
  | taken c _ _ _ _ claims => cases (claims _ hmem _ hk).1
  | slot n r _ ctx selection _ _ _ claims =>
    obtain ⟨_, hg⟩ := claims _ hmem _ hk
    obtain rfl : g = lightGroupOf s n := hg
    exact ⟨by simp [isUntaken, selection], by simp [engineSpan, ctx, selectedSlot, selection],
      by simp [engineSpan, ctx, selectedSlot, selection], claims⟩
  | save c _ ctx selection _ _ claims =>
    obtain ⟨_, hg⟩ := claims _ hmem _ hk
    obtain rfl : g = lightGroupOf s c.span := hg
    exact ⟨by simp [isUntaken, selection], by simp [engineSpan, ctx], by simp [engineSpan, ctx], claims⟩

/-- An OPEN entry is that of the taken sweep (R160). -/
theorem of_opened (h : EngineInv s) (hf : s.claims.find g = some e) (hk : ownKind e.state = some true) :
    ∃ c, s.engine.ctx = some c ∧ s.sched.selection = none ∧ lightGroupOf s c.span = g ∧ Machine.claimsOnly s true g := by
  have hmem : (g, e) ∈ s.claims := Table.mem_of_find hf
  cases h.stand with
  | rest _ _ _ claims =>
    rw [claims _ hmem] at hk
    cases hk
  | taken c _ ctx selection _ claims =>
    obtain ⟨_, hg⟩ := claims _ hmem _ hk
    obtain rfl : g = lightGroupOf s c.span := hg
    exact ⟨c, ctx, selection, rfl, claims⟩
  | slot n r _ _ _ _ _ _ claims => cases (claims _ hmem _ hk).1
  | save c _ _ _ _ _ claims => cases (claims _ hmem _ hk).1

end EngineInv

/-! ### Contention -/

/-- A CLAIMING claim is lost: the preparation is given up (R162, R57, R60). -/
theorem kept_withdraw {s : State} {g y : Nat} {t : Option Nat} {m : Option (StaleMark × Nat)} (x l a : Nat)
    (h : s.claims.find g = some ⟨.claiming y t, m⟩) : Kept s (withdraw s g x l a) := by
  refine Kept.trans (.of_engine fun he => ?_) (kept_settleSelect _)
  obtain ⟨hu, _, _, honly⟩ := he.of_claiming h rfl
  exact kept_giveBack (Frame.withdrawClaim s g x l a) (.of_eq (by simp)) (by simp) (by simp) hu
    (noClaim_withdrawClaim x l a he.wf honly)

theorem Quiet.endLastShot (s : State) : Quiet s (endLastShot s) := by
  rcases endLastShot_cases s with h | ⟨_, _, _, _, _, _, _, h | ⟨xs, h⟩⟩
  · rw [h]; exact refl s
  · rw [h]; exact bumpFree s
  · rw [h]; exact (addLit s xs).trans (bumpFree _)

/-- An OPEN claim is lost: the sweep ends DISTURBED (R164, R86). -/
theorem kept_loseConflict {s : State} {g y t : Nat} {m : Option (StaleMark × Nat)} (x l a : Nat)
    (h : s.claims.find g = some ⟨.opened y t, m⟩) : Kept s (loseConflict s g x l a) := by
  refine Kept.trans ((Quiet.endLastShot s).kept.trans (.of_engine fun he => ?_)) (kept_settleSelect _)
  have hclaims : (endLastShot s).claims = s.claims := by
    rcases endLastShot_cases s with h | ⟨_, _, _, _, _, _, _, h | ⟨xs, h⟩⟩ <;> rw [h] <;> rfl
  generalize endLastShot s = u at he hclaims
  obtain ⟨c, hc, _, hg, honly⟩ := he.of_opened (hclaims ▸ h) rfl
  exact kept_abort_of (Frame.loseOpen u g x l a) (.of_eq rfl) rfl hc hc rfl rfl
    (fun _ => (noClaim_loseOpen x l a honly).only _ _) _ _

theorem kept_answerHold (s : State) (g own : Nat) : Kept s (answerHold s g own) := (Quiet.offer s _ _).kept

theorem kept_takeClaim (s : State) (g x l a : Nat) : Kept s (takeClaim s g x l a) := by
  unfold takeClaim
  split
  · next e h =>
    obtain ⟨st, m⟩ := e
    split
    · next hs =>
      exact ((Quiet.recordHolder s x l a h (by rw [show st = _ from hs]; rfl)).trans (.settle _)).kept
    · next hs =>
      exact ((Quiet.recordHolder s x l a h (by rw [show st = _ from hs]; rfl)).trans (.settle _)).kept
    · next own t hs =>
      obtain rfl : st = .claiming own t := hs
      exact .ite (fun _ => kept_withdraw x l a h) fun _ => kept_answerHold s g _
    · exact kept_answerHold s g _
  · exact .refl s

theorem kept_takeHold (s : State) (g x l a : Nat) : Kept s (takeHold s g x l a) := by
  unfold takeHold
  split
  · next e h =>
    obtain ⟨st, m⟩ := e
    split
    · next hs =>
      exact ((Quiet.recordHolder s x l a h (by rw [show st = _ from hs]; rfl)).trans (.settle _)).kept
    · next hs =>
      exact ((Quiet.recordHolder s x l a h (by rw [show st = _ from hs]; rfl)).trans (.settle _)).kept
    · next own t hs =>
      obtain rfl : st = .claiming own t := hs
      exact kept_withdraw x l a h
    · next own t hs =>
      obtain rfl : st = .opened own t := hs
      exact .ite (fun _ => kept_loseConflict x l a h) fun _ => kept_answerHold s g _
  · exact .refl s

theorem kept_takeRelease (s : State) (g x : Nat) : Kept s (takeRelease s g x) := by
  unfold takeRelease
  split
  · next e h =>
    split
    · next hs =>
      exact .ite (fun _ => (Quiet.setClaim_unclaimed s h (by rw [hs]; rfl) rfl).kept.trans (kept_settleSelect _)) fun _ => .refl s
    all_goals exact .refl s
  · exact .refl s

/-- The hold-off is over: the claim is OPEN and the sweep taken (R160, R56). -/
theorem kept_claimOpened {s : State} {g l t k : Nat} {m : Option (StaleMark × Nat)}
    (h : s.claims.find g = some ⟨.claiming l (some t), m⟩) : Kept s (claimOpened (setClaim s g (.opened l k)) g) := by
  refine .of_engine fun he => ?_
  obtain ⟨hu, _, hspan, honly⟩ := he.of_claiming h rfl
  have honly' : claimsOnly (setClaim s g (.opened l k)) true g := claimsOnly_setClaim honly rfl
  have hopen : isOpen (setClaim s g (.opened l k)) g = true :=
    (isOpen_iff _ _).2 ⟨⟨.opened l k, m⟩, by rw [setClaim, Table.find_adjust, if_pos rfl, h]; rfl, rfl⟩
  unfold claimOpened
  cases he.stand with
  | rest _ _ selection => rw [isUntaken, selection] at hu; cases hu
  | taken _ _ _ selection => rw [isUntaken, selection] at hu; cases hu
  | slot n r _ ctx selection =>
    have hg : lightGroupOf s n = g := hspan n (by simp [engineSpan, ctx, selectedSlot, selection])
    rw [show (setClaim s g (.opened l k)).sched.selection = some (.slot n) from selection]
    refine .ite (fun _ => Kept.trans ?_ (kept_checkPrepared _)) fun hn => absurd hg hn
    exact kept_takeSlot (Frame.setClaim s g _) (.of_eq rfl) rfl rfl selection (hg ▸ honly') (.inr (hg ▸ hopen))
  | save c _ ctx selection =>
    have hg : lightGroupOf s c.span = g := hspan c.span (by simp [engineSpan, ctx])
    rw [show (setClaim s g (.opened l k)).sched.selection = some .save from selection,
      show (setClaim s g (.opened l k)).engine.ctx = some c from ctx]
    refine .ite (fun _ => Kept.trans ?_ (kept_checkPrepared _)) fun hn => absurd hg hn
    exact kept_takeResume (Frame.setClaim s g _) (.of_eq rfl) rfl rfl selection ctx (hg ▸ honly') (.inr (hg ▸ hopen))

/-! ### Duplicate ids -/

theorem quiet_isolate (s : State) : Quiet s (isolate s) := by
  have hq : Quiet s (clearStale (endAttempt s (stopDriving s.line.state))) := (Quiet.endAttempt s _).trans (.clearStale _)
  exact { hq with station := nofun }

theorem kept_detectDup (s : State) (cause : DupCause) : Kept s (detectDup s cause) := by
  have hpost : Quiet s (post (isolate s) (.dupId s.line.id cause)) := (quiet_isolate s).trans (.post _ _)
  exact (hpost.kept.trans (kept_stopSweep _ _ _)).trans (((Quiet.wake _).trans (.unableBegins _)).trans (.settle _)).kept

theorem kept_takeFrame (s : State) (f : Sys2Proof.Frame) : Kept s (takeFrame s f) :=
  .ite (fun _ => .ite (fun _ => kept_detectDup s _) fun _ => .refl s) fun _ =>
    Kept.ite (fun _ => Quiet.kept .of_eq) fun _ => Quiet.kept .of_eq

/-! ### Deliveries -/

theorem quiet_deliver (s : State) (f : RxFrame) : Quiet s (deliver s f) := .of_eq

theorem quiet_takePresence (s : State) (x : Nat) (p : Peer) : Quiet s (takePresence s x p) := by
  have hput : Quiet s (putPeer s x p) := .of_eq
  unfold takePresence
  split
  · exact (hput.trans (.post _ _)).trans (.peerTableChange _ _)
  · exact .ite (fun _ => hput.trans (.postAll _ _)) fun _ => (hput.trans (.postAll _ _)).trans (.peerTableChange _ _)

theorem kept_takeFindingFrame (s : State) (x h k d : Nat) : Kept s (takeFindingFrame s x h k d) := by
  unfold takeFindingFrame
  split
  · exact (Quiet.takeFinding s _ _ _).kept.trans (kept_settleSelect _)
  · exact .refl s

/-! ### The rows -/

theorem claimOf_eq_some {s : State} {g : Nat} {st : ClaimState} (h : claimOf s g = some st) :
    ∃ m, s.claims.find g = some ⟨st, m⟩ := by
  obtain ⟨e, he, rfl⟩ := Option.map_eq_some_iff.1 h
  exact ⟨e.stale, he⟩

namespace RowKept
variable (s : State)

theorem idleGap : RowKept s (exec .idleGap s) :=
  quiet (.ite (fun _ => (Quiet.setLine s _).trans (.startAttempt _)) fun _ => .refl s)

theorem quiet_loseArbitration (f : TxFrame) : Quiet s (loseArbitration s f) := by
  have hend := Quiet.endAttempt s .busy
  refine .ite (fun _ => hend.trans ?_) fun _ => hend.trans .of_eq
  unfold clearStaleOf
  split
  · exact .setStale _ _ _
  all_goals exact .refl _

theorem arbitrationLost : RowKept s (exec .arbitrationLost s) := by
  refine quiet ?_
  split
  · exact quiet_loseArbitration s _
  · exact .refl s

theorem frameTransmitted : RowKept s (exec .frameTransmitted s) := by
  refine next ?_
  split
  · next f _ _ =>
    refine .of_engine fun he => ((Quiet.endAttempt s .gap).trans ?_).kept
    unfold reportTransmitted
    split
    · exact .claimTransmitted _ _ he.wf
    all_goals exact .refl _
  · exact .refl s

theorem readbackError : RowKept s (exec .readbackError s) :=
  next (.ite (fun _ => kept_detectDup s _) fun _ => .refl s)

theorem frameReceived (bits) : RowKept s (exec (.frameReceived bits) s) := by
  refine next (.ite (fun _ => ?_) fun _ => .refl s)
  split
  · exact (Quiet.setLine s .gap).kept.trans (kept_takeFrame _ _)
  · exact (Quiet.setLine s .gap).kept

theorem presenceDelivered : RowKept s (exec .presenceDelivered s) := by
  have hpop : Quiet s (popInbox s) := .of_eq
  refine quiet ?_
  split
  · split
    · exact (hpop.trans (quiet_takePresence _ _ _)).trans (.settle _)
    · exact .refl s
  · exact .refl s

theorem claimDelivered : RowKept s (exec .claimDelivered s) := by
  refine next ?_
  split
  · split
    · exact (quiet_deliver s _).kept.trans (kept_takeClaim _ _ _ _ _)
    · exact .refl s
  · exact .refl s

theorem holdDelivered : RowKept s (exec .holdDelivered s) := by
  refine next ?_
  split
  · split
    · exact (quiet_deliver s _).kept.trans (kept_takeHold _ _ _ _ _)
    · exact .refl s
  · exact .refl s

theorem releaseDelivered : RowKept s (exec .releaseDelivered s) := by
  refine next ?_
  split
  · split
    · exact (quiet_deliver s _).kept.trans (kept_takeRelease _ _ _)
    · exact .refl s
  · exact .refl s

theorem findingDelivered : RowKept s (exec .findingDelivered s) := by
  refine next ?_
  split
  · split
    · exact (quiet_deliver s _).kept.trans (kept_takeFindingFrame _ _ _ _ _)
    · exact .refl s
  · exact .refl s

theorem presenceTimerExpiry : RowKept s (exec .presenceTimerExpiry s) :=
  quiet (.ite (fun _ => .offerPresence s) fun _ => .refl s)

theorem learningTimerExpiry : RowKept s (exec .learningTimerExpiry s) := by
  have hstop : Quiet s (stopLearning s) := .of_eq
  refine next (.ite (fun _ => .ite (fun _ => ?_) fun _ => hstop.kept) fun _ => .refl s)
  exact ((hstop.trans (quiet_station _ (by decide))).trans (.offerPresence _)).kept.trans (kept_settleSelect _)

theorem ageTimerExpiry (x) : RowKept s (exec (.ageTimerExpiry x) s) := by
  have herase : Quiet s { s with peers := { s.peers with table := s.peers.table.erase x } } := .of_eq
  exact quiet (.ite (fun _ => ((herase.trans (.post _ _)).trans (.peerTableChange _ _)).trans (.settle _)) fun _ => .refl s)

theorem holdOffExpiry (g) : RowKept s (exec (.holdOffExpiry g) s) := by
  refine next ?_
  split
  · next h =>
    obtain ⟨_, hf⟩ := claimOf_eq_some h
    exact .ite (fun _ => kept_claimOpened hf) fun _ => .refl s
  · exact .refl s

theorem holdRepetition (g) : RowKept s (exec (.holdRepetition g) s) := by
  refine next ?_
  split
  · next l t h =>
    obtain ⟨_, hf⟩ := claimOf_eq_some h
    exact .of_engine fun he => .ite
      (fun _ => ((Quiet.setClaim_same s (st := .opened l (t + quarterLife s)) he.wf hf rfl).trans (.offer _ _ _)).kept)
      fun _ => .refl s
  · exact .refl s

theorem heldExpiry (g) : RowKept s (exec (.heldExpiry g) s) := by
  refine next ?_
  split
  · next h =>
    obtain ⟨_, hf⟩ := claimOf_eq_some h
    exact .ite (fun _ => (Quiet.setClaim_unclaimed s hf rfl rfl).kept.trans (kept_settleSelect _)) fun _ => .refl s
  · exact .refl s

theorem roundTimerExpiry (g) : RowKept s (exec (.roundTimerExpiry g) s) := by
  refine quiet ?_
  split
  · exact .ite (fun _ => (Quiet.issueVerdict s _ _ _).trans (.settle _)) fun _ => .refl s
  · exact .refl s

theorem holdDownExpiry (g) : RowKept s (exec (.holdDownExpiry g) s) := by
  refine quiet ?_
  split
  · exact .ite (fun _ => .putRound s _ _) fun _ => .refl s
  · exact .refl s

theorem frameStartHeard : RowKept s (exec .frameStartHeard s) := by
  refine quiet ?_
  split
  · exact .setLine s _
  · exact .ite (fun _ => .startAttempt s) fun _ => .setLine s _
  all_goals exact .refl s

theorem arbitrationWon : RowKept s (exec .arbitrationWon s) := quiet (.ite (fun _ => .setLine s _) fun _ => .refl s)

end RowKept

theorem exec_kept {c : Instr} {s t : State} (ht : s.tablesSound) (h : exec c s = .next t) : Kept s t := by
  revert t
  show RowKept s (exec c s)
  cases c
  case coldReset => exact .coldReset s _
  case warmReset => exact .warmReset s _
  case configWriteSpan => exact .configWriteSpan s _ _
  case configWriteStation => exact .configWriteStation s _
  case start => exact .start s ht _
  case run => exact .run s
  case halt => exact .halt s
  case readStatus => exact .readStatus s
  case readNotice => exact .readNotice s
  case readResult => exact .readResult s _
  case readTrace => exact .readTrace s _
  case sweep => exact .sweep s _ _ _
  case spanOff => exact .spanOff s _
  case spanOn => exact .spanOn s _
  case clearFault => exact .clearFault s
  case fpBegin => exact .fpBegin s _
  case fpData => exact .fpData s _ _
  case fpEnd => exact .fpEnd s _
  case unknownCommand => exact .unknownCommand s _
  case partialCommandDiscarded => exact .partialCommandDiscarded s _
  case endOfLocking => exact .endOfLocking s
  case windowStart => exact .windowStart s
  case windowEnd => exact .windowEnd s ht
  case dozeEntry => exact .dozeEntry s
  case alertLineAsserted => exact .alertLineAsserted s _
  case alertLineReleased => exact .alertLineReleased s _
  case reRaiseTimerExpiry => exact .reRaiseTimerExpiry s _
  case switchSettleExpiry => exact .switchSettleExpiry s
  case darkShotComplete => exact .darkShotComplete s _
  case litShotComplete => exact .litShotComplete s _
  case interleavedDarkShotCheck => exact .interleavedDarkShotCheck s _
  case reductionComplete => exact .reductionComplete s
  case comparisonComplete => exact .comparisonComplete s
  case baselineWriteComplete => exact .baselineWriteComplete s
  case resumeTimerExpiry => exact .resumeTimerExpiry s
  case laserFaultReport => exact .laserFaultReport s _
  case laserFaultConditionClears => exact .laserFaultConditionClears s
  case idleGap => exact .idleGap s
  case arbitrationLost => exact .arbitrationLost s
  case frameTransmitted => exact .frameTransmitted s
  case readbackError => exact .readbackError s
  case frameReceived => exact .frameReceived s _
  case presenceDelivered => exact .presenceDelivered s
  case claimDelivered => exact .claimDelivered s
  case holdDelivered => exact .holdDelivered s
  case releaseDelivered => exact .releaseDelivered s
  case findingDelivered => exact .findingDelivered s
  case presenceTimerExpiry => exact .presenceTimerExpiry s
  case learningTimerExpiry => exact .learningTimerExpiry s
  case ageTimerExpiry => exact .ageTimerExpiry s _
  case holdOffExpiry => exact .holdOffExpiry s _
  case holdRepetition => exact .holdRepetition s _
  case heldExpiry => exact .heldExpiry s _
  case roundTimerExpiry => exact .roundTimerExpiry s _
  case holdDownExpiry => exact .holdDownExpiry s _
  case frameStartHeard => exact .frameStartHeard s
  case arbitrationWon => exact .arbitrationWon s

theorem quiet_tick (s : State) : Quiet s (tick s) :=
  .ite (fun _ => .refl s) fun _ => .ite (fun _ => .of_eq) fun _ => .of_eq

theorem step_kept {s t : State} (ht : s.tablesSound) (h : step s = .next t) : Kept s t := by
  unfold step at h
  split at h
  · next i rest _ =>
    exact (Quiet.of_eq (t := { s with pending := rest })).kept.trans (exec_kept (s := { s with pending := rest }) ht h)
  · unfold idleStep at h
    split at h
    · cases h
      exact (quiet_tick s).kept
    · exact exec_kept ht h
    · split at h
      · exact (Quiet.bumpFree s).kept.trans (exec_kept (s := bumpFree s) ht h)
      · cases h
        exact .refl s

/-- No two entries are the station's own (R158). -/
theorem EngineInv.own_unique {s : State} (h : EngineInv s) {e f : Nat × ClaimEntry} (he : e ∈ s.claims) (hf : f ∈ s.claims)
    (hoe : ownClaim e.2.state = true) (hof : ownClaim f.2.state = true) : e = f := by
  rw [ownClaim_eq, Option.isSome_iff_exists] at hoe hof
  obtain ⟨k, hk⟩ := hoe
  obtain ⟨j, hj⟩ := hof
  have hgroup : ∃ g, e.1 = g ∧ f.1 = g := by
    cases h.stand with
    | rest _ _ _ claims => rw [claims e he] at hk; cases hk
    | slot n _ _ _ _ _ _ _ claims => exact ⟨_, (claims e he k hk).2, (claims f hf j hj).2⟩
    | save c _ _ _ _ _ claims => exact ⟨_, (claims e he k hk).2, (claims f hf j hj).2⟩
    | taken c _ _ _ _ claims => exact ⟨_, (claims e he k hk).2, (claims f hf j hj).2⟩
  obtain ⟨g, heg, hfg⟩ := hgroup
  have hfind : s.claims.find g = some e.2 := Table.find_of_mem h.wf (by rw [← heg]; exact he)
  have hfind' : s.claims.find g = some f.2 := Table.find_of_mem h.wf (by rw [← hfg]; exact hf)
  rw [hfind] at hfind'
  exact Prod.ext (heg.trans hfg.symm) (Option.some.inj hfind')

end Sys2Proof.Machine

namespace Sys2Proof
open Machine

/-- Settles O25: every row keeps the engine in one of its four ways to stand. -/
theorem engineStaysSound : Obligations.EngineStaysSound :=
  ⟨fun _ _ ht hs h => ((step_kept ht h).engine (.of_sound ht hs)).sound,
    fun _ ht hs _ he _ hf hoe hof => (EngineInv.of_sound ht hs).own_unique he hf hoe hof⟩

/-- Settles O26: every row keeps what the interlock asks for, and no shot counts without it. -/
theorem firingStaysSafe : Obligations.FiringStaysSafe := by
  refine ⟨fun _ _ ht hs hf h => ((step_kept ht h).firing ⟨.of_sound ht hs, hf⟩).firing, fun s t xs h hne => ?_⟩
  change Host.Outcome.next _ = Host.Outcome.next t at h
  have ht : _ = t := Host.Outcome.next.inj h
  split at ht
  · next c r hsweep =>
    obtain ⟨hc, hst, _⟩ := sweepIn_eq_some.1 hsweep
    split at ht
    · next hcond =>
      obtain ⟨_, hfire, _⟩ := hcond
      simp only [mayFire, Bool.and_eq_true, Bool.or_eq_true, decide_eq_true_eq, Option.isNone_iff_eq_none] at hfire
      obtain ⟨⟨⟨_, hswitch⟩, hgroup⟩, hfault⟩ := hfire
      exact ⟨c, hc, by simpa using hst, hswitch, hgroup, hfault⟩
    · exact absurd ht.symm hne
  · exact absurd ht.symm hne

/-- Settles O27: every row keeps fingerprint states and directory together. -/
theorem presentMatchesTheDirectory : Obligations.PresentMatchesTheDirectory := by
  intro s t ht hstore hs hp h
  obtain ⟨hfits, hwriters⟩ := (pagesSound_iff s).1 hp
  obtain ⟨_, hdir, hfp⟩ := hstore
  have hinv := (step_kept ht h).pages ⟨.of_sound ht hs, hdir, hfp, hfits, hwriters⟩
  exact (pagesSound_iff t).2 ⟨hinv.store, hinv.writers⟩

end Sys2Proof

/-! ## The step, resets, CONFIG-WRITE, CLEAR-FAULT and the port -/

namespace Sys2Proof.Machine

-- The kernel checks the lemmas one after another: many at once take a thread each.
set_option Elab.async false

variable (s : State)

/-! ### A step with no command waiting -/

theorem idleStep_none (h : dueEvents s = []) : idleStep s = .next (tick s) := by rw [idleStep, h]

theorem idleStep_one {c : Instr} (h : dueEvents s = [c]) : idleStep s = exec c s := by rw [idleStep, h]

/-- Of several due events one is taken (log 2). -/
theorem idleStep_many (h : 2 ≤ (dueEvents s).length) : ∃ c ∈ dueEvents s, idleStep s = exec c (bumpFree s) := by
  have hlt : Config.dueChoice s.free % (dueEvents s).length < (dueEvents s).length := Nat.mod_lt _ (by omega)
  refine ⟨(dueEvents s)[Config.dueChoice s.free % (dueEvents s).length], List.getElem_mem hlt, ?_⟩
  have hchosen : chosenEvent s = some ((dueEvents s)[Config.dueChoice s.free % (dueEvents s).length]) := by
    rw [chosenEvent, List.getElem?_eq_getElem hlt]
  generalize (dueEvents s)[Config.dueChoice s.free % (dueEvents s).length] = c at hchosen
  unfold idleStep
  split
  · next hd => rw [hd] at h; simp at h
  · next hd => rw [hd] at h; simp at h
  · rw [hchosen]

theorem step_idle (h : s.pending = []) : step s = idleStep s := by rw [step, h]

/-- The time of day after one millisecond (R28). -/
theorem tod_succ {t : Nat} (h : t < 86400000) :
    (if t + 1 < Config.msPerDay then t + 1 else 0) = (t + 1) % 86400000 := by
  have hd : Config.msPerDay = 86400000 := rfl
  rw [hd]
  split
  · next hlt => rw [Nat.mod_eq_of_lt hlt]
  · next hge => rw [show t + 1 = 86400000 by omega]

theorem tick_running {rest : List Bool} (hclock : s.clock.state ≠ .stopped)
    (href : s.reference = true :: rest ∨ (s.reference = [] ∧ rest = [])) (htod : s.clock.tod < 86400000) :
    tick s = { s with
      reference := rest
      clock := { s.clock with now := s.clock.now + 1, tod := (s.clock.tod + 1) % 86400000 } } := by
  have hruns : referenceRuns s = true ∧ s.reference.drop 1 = rest := by
    rcases href with h | ⟨h, h'⟩
    · simp [referenceRuns, h]
    · simp [referenceRuns, h, h']
  obtain ⟨hr, hdrop⟩ := hruns
  simp only [tick, clockStands, hclock, decide_false, hr, if_true, hdrop, advance, tod_succ htod]
  rfl

theorem tick_inputStopped {rest : List Bool} (hclock : s.clock.state ≠ .stopped) (href : s.reference = false :: rest) :
    tick s = { s with reference := rest } := by
  simp [tick, clockStands, hclock, referenceRuns, href]

theorem tick_stands (hclock : s.clock.state = .stopped) : tick s = s := by simp [tick, clockStands, hclock]

/-! ### Warm reset -/

theorem stoppedStore_mem_of_not_storing (h : s.engine.state ≠ .storing) : (stoppedStore s).mem = s.store.mem := by
  rw [stoppedStore, if_neg h]

theorem stoppedStore_dir : (stoppedStore s).dir = s.store.dir := by
  unfold stoppedStore
  repeat' split
  · exact (copyTrace_dir s _ _).1
  · rfl
  · rfl

/-- A stopped baseline write changes the cells of the trace's bins only (R12). -/
theorem find_copyTrace_outside {n k a : Nat} {r : SpanRecord} (hr : enabledRec s n = some r)
    (ha : a < r.cell 0 ∨ r.cell 0 + s.trace.entries.length ≤ a) :
    (copyTrace s n k).store.mem.find a = s.store.mem.find a := by
  simp only [copyTrace, hr, find_writeLevels, List.length_map, List.length_take]
  rw [if_neg (by omega)]

theorem find_stoppedStore_outside {c : Ctx} {r : SpanRecord} {a : Nat} (hc : s.engine.ctx = some c)
    (hr : enabledRec s c.span = some r) (ha : a < r.cell 0 ∨ r.cell 0 + s.trace.entries.length ≤ a) :
    (stoppedStore s).mem.find a = s.store.mem.find a := by
  unfold stoppedStore
  rw [hc]
  split
  · exact find_copyTrace_outside s hr ha
  · rfl

/-! ### LASER_FAULT through a selection -/

@[simp] theorem checkPrepared_laserFault : (checkPrepared s).engine.laserFault = s.engine.laserFault := by
  unfold checkPrepared
  repeat' split
  all_goals rfl

@[simp] theorem takeSlot_laserFault (n : Nat) : (takeSlot s n).engine.laserFault = s.engine.laserFault := by
  unfold takeSlot
  split <;> rfl

@[simp] theorem giveBack_laserFault : (giveBack s).engine.laserFault = s.engine.laserFault := by
  unfold giveBack
  split <;> rfl

@[simp] theorem seekClaim_laserFault (g l : Nat) : (seekClaim s g l).engine.laserFault = s.engine.laserFault := by
  unfold seekClaim
  dsimp only
  split <;> simp

@[simp] theorem beginSlot_laserFault (n l : Nat) : (beginSlot s n l).engine.laserFault = s.engine.laserFault := by
  unfold beginSlot
  dsimp only
  split <;> simp

@[simp] theorem beginResume_laserFault (c : Ctx) : (beginResume s c).engine.laserFault = s.engine.laserFault := by
  unfold beginResume
  dsimp only
  split <;> simp

@[simp] theorem settleSelect_laserFault : (settleSelect s).engine.laserFault = s.engine.laserFault := by
  simp only [settleSelect, settle_keeps]
  unfold select
  repeat' split
  all_goals simp

/-! ### CONFIG-WRITE and the port -/

theorem within_iff (a b n : Nat) : within a b n = true ↔ a ≤ n ∧ n ≤ b := by simp [within]

/-- A code that 12.2 does not list spells no command. -/
theorem parseCommand_of_code {code : Byte} {ps : List Byte} (h : code.toNat ∉ [0x10, 0x11, 0x12, 0x13, 0x14, 0x15, 0x16,
    0x17, 0x18, 0x20, 0x21, 0x22, 0x23, 0x30, 0x31, 0x32]) : parseCommand (code :: ps) = none := by
  unfold parseCommand
  dsimp only
  split
  case h_17 => rfl
  all_goals
    rename_i hcode
    rw [hcode] at h
    exact absurd (by decide) h

end Sys2Proof.Machine

namespace Sys2Proof
open Machine

/-- Settles O1: a step with a command waiting is by definition the command's row. -/
theorem stepRunsTheFrontCommand : Obligations.StepRunsTheFrontCommand := fun _ _ _ => rfl

/-- Settles O2, by the number of due events. -/
theorem emptyQueueTakesADueEventOrAMillisecond : Obligations.EmptyQueueTakesADueEventOrAMillisecond := by
  intro s hp
  rw [step_idle s hp]
  refine ⟨fun rest hd hclock => ?_, fun hd hclock => ?_, fun c hd => idleStep_one s hd, fun hd => ?_⟩
  · rw [idleStep_none s hd]
    exact ⟨fun href htod => congrArg _ (tick_running s hclock href htod), fun href => congrArg _ (tick_inputStopped s hclock href)⟩
  · rw [idleStep_none s hd, tick_stands s hclock]
  · obtain ⟨c, hc, hstep⟩ := idleStep_many s hd
    exact ⟨c, hc, _, hstep⟩

/-- Settles O4: the reset values are those of the reset tables, written out in `resetValues`. -/
theorem coldResetLeavesTheResetValues : Obligations.ColdResetLeavesTheResetValues := by
  intro straps s
  refine ⟨resetValues straps s, rfl, ?_⟩
  repeat' constructor

/-- Settles O5: a warm reset is a cold one but for directory, pages and LASER_FAULT. -/
theorem warmResetKeepsDirectoryPagesAndFault : Obligations.WarmResetKeepsDirectoryPagesAndFault := by
  intro straps s
  have hdir := stoppedStore_dir s
  refine ⟨warmValues straps s, rfl, ?_, fun u hu => ?_, fun h => stoppedStore_mem_of_not_storing s h,
    fun c r a hc hr ha => find_stoppedStore_outside s hc hr ha⟩
  · simp only [warmValues, hdir]
    rfl
  · obtain rfl : resetValues straps s = u := Host.Outcome.next.inj hu
    simp only [warmValues, hdir]

/-- Settles O6, by the branches of CONFIG-WRITE. -/
theorem configWriteReplacesStagedValues : Obligations.ConfigWriteReplacesStagedValues := by
  intro s
  refine ⟨fun hun n r h1 h48 => ?_, fun hun n r hn => ?_, fun hun b => ?_, fun hun n r b => ⟨?_, ?_⟩⟩
  · have hin : within 1 Config.spans n = true := (within_iff 1 Config.spans n).2 ⟨h1, h48⟩
    refine ⟨accept { s with port := { s.port with stagedSpans := s.port.stagedSpans.put n r } }, ?_, rfl,
      Table.find_put_same .., fun m hm => Table.find_put_other _ _ _ _ hm⟩
    show Host.Outcome.next _ = _
    rw [if_neg (not_not.2 hun), hin]
    rfl
  · have hout : within 1 Config.spans n = false := by
      rw [← Bool.not_eq_true, within_iff, show Config.spans = 48 from rfl]
      omega
    show Host.Outcome.next _ = _
    rw [if_neg (not_not.2 hun), hout]
    rfl
  · exact congrArg Host.Outcome.next (if_neg (not_not.2 hun))
  · exact congrArg Host.Outcome.next (if_pos hun)
  · exact congrArg Host.Outcome.next (if_pos hun)

/-- Settles O18, by the branches of CLEAR-FAULT; the selection that follows keeps the flag. -/
theorem clearFaultClearsTheFlag : Obligations.ClearFaultClearsTheFlag := by
  intro s
  refine ⟨fun hun => congrArg Host.Outcome.next (if_pos hun), fun hun hcond => ?_, fun hun hcond hnone => ?_,
    fun code hun hcond hsome => ?_⟩
  · show Host.Outcome.next _ = _
    rw [if_neg hun, if_pos hcond]
    rfl
  · show Host.Outcome.next _ = _
    rw [if_neg hun, if_neg (by simp [hcond]), hnone]
    rfl
  · have hexec : exec .clearFault s = .next (answer
        (settleSelect { s with engine := { s.engine with laserFault := none } }) .accepted []) := by
      show Host.Outcome.next _ = _
      rw [if_neg hun, if_neg (by simp [hcond]), hsome]
      rfl
    refine ⟨hexec, fun t ht => ?_⟩
    rw [hexec] at ht
    obtain rfl := Host.Outcome.next.inj ht
    simp

/-- Settles O20: the port's own rows, and the codes of 12.2. -/
theorem portRefusesWhatItDoesNotKnow : Obligations.PortRefusesWhatItDoesNotKnow := by
  refine ⟨fun s bs h => ?_, fun _ _ => rfl, fun code ps h => parseCommand_of_code h⟩
  show Host.Outcome.next _ = _
  rw [h]
  rfl

end Sys2Proof

/-! ## Selection, wake and the doze timer (R34, R36, R54, R55) -/

namespace Sys2Proof.Machine

-- The kernel checks the lemmas one after another: many at once take a thread each.
set_option Elab.async false

variable (s : State)

/-! ### PRESENCE, wake and the end of a row's step -/

/-- Outside ISOLATED a PRESENCE is offered, and its timer restarts (R147). -/
theorem offerPresence_eq (h : s.port.station ≠ .isolated) : offerPresence s =
    { s with peers := { s.peers with presence := some (s.clock.now + 1000) }, line := (offerPresence s).line } := by
  rw [offerPresence, if_neg h, offer_eq]
  rfl

theorem offerPresence_isolated (h : s.port.station = .isolated) : offerPresence s = s := by rw [offerPresence, if_pos h]

theorem offerPresence_hasFrame (h : s.port.station ≠ .isolated) (hl : s.line.state ≠ .passive) :
    (offerPresence s).hasFrame 0 (.presence (presenceState s) s.cfg.sheathGroups) := by
  rw [offerPresence, if_neg h]
  exact offer_hasFrame { s with peers := { s.peers with presence := some (after s Config.presencePeriod) } } _ _ ⟨hl, h⟩ (.inr rfl)

theorem offerPresence_peers_isolated (h : s.port.station = .isolated) : (offerPresence s).peers = s.peers := by
  rw [offerPresence_isolated s h]

/-- A dozing clock unit that wakes, before its PRESENCE (R36). -/
def woken (s : State) : State :=
  { s with clock := { s.clock with state := .locking, lockExpiry := some (after s Config.lockTime) } }

theorem wake_dozing (h : s.clock.state = .dozing) : wake s = offerPresence (woken s) := by
  rw [wake, if_pos h]
  rfl

theorem wake_awake (h : s.clock.state ≠ .dozing) : wake s = s := by rw [wake, if_neg h]

/-- Only a clock unit that is AWAKE can have the doze timer run (R34). -/
theorem refreshDoze_not_awake (h : s.clock.state ≠ .awake) : refreshDoze s = stopDoze s := by
  have hd : dozeConditions s = false := by simp [dozeConditions, h]
  rw [refreshDoze, hd]
  rfl

theorem refreshDoze_not_mayDoze (h : ¬ s.mayDoze) : refreshDoze s = stopDoze s := by
  rw [refreshDoze, if_neg (fun hd => h ((dozeConditions_iff s).1 hd))]

theorem refreshDoze_starts (h : s.mayDoze) (hn : s.clock.dozeExpiry = none) :
    refreshDoze s = { s with clock := { s.clock with dozeExpiry := some (s.clock.now + 10000) } } := by
  rw [refreshDoze, if_pos ((dozeConditions_iff s).2 h), hn]
  rfl

theorem refreshDoze_runs (h : s.mayDoze) (hn : s.clock.dozeExpiry ≠ none) : refreshDoze s = s := by
  rw [refreshDoze, if_pos ((dozeConditions_iff s).2 h), if_pos (Option.isSome_iff_ne_none.2 hn)]

/-- With no candidate, or no dozing clock unit, nothing wakes (R36). -/
theorem settle_quiet (h : s.clock.state ≠ .dozing ∨ pendingCandidate s = false) : settle s = refreshDoze s := by
  rw [settle, wakeForCandidate]
  split
  · next hc =>
    rcases h with h | h
    · rw [wake_awake s h]
    · rw [hc] at h; cases h
  · rfl

theorem pendingCandidate_iff : pendingCandidate s = true ↔ ∃ e ∈ s.sched.slots, slotCandidate s e.1 e.2 = true := by
  simp [pendingCandidate]

/-- A candidate takes a dozing clock unit to LOCKING (R36). -/
theorem settle_wakes (h : s.clock.state = .dozing) (hc : pendingCandidate s = true) :
    settle s = stopDoze (offerPresence (woken s)) := by
  rw [settle, wakeForCandidate, if_pos hc, wake_dozing s h, refreshDoze_not_awake]
  simp [woken]

/-! ### The best candidate -/

theorem slotCandidate_conditions (n : Nat) (r : Request) : slotCandidate s n r = true ↔
    r.selected = false ∧ s.clock.mask ≤ r.level ∧ isEnabled s n = true ∧ n ∉ s.sched.off ∧ fpOf s n ≠ .writing ∧
    (lightGroupOf s n = 0 ∨ isHeld s (lightGroupOf s n) = false) ∧ s.engine.laserFault = none ∧
    s.port.station = .running ∧ ctxIs s.sched.save n = false := by
  rw [slotCandidate_iff, selectable_iff, isOff, decide_eq_false_iff_not]
  simp only [and_assoc]

theorem saveCandidate_conditions {c : Ctx} (h : s.sched.save = some c) : saveCandidate s = true ↔
    s.clock.mask ≤ c.level ∧ isEnabled s c.span = true ∧ c.span ∉ s.sched.off ∧ fpOf s c.span ≠ .writing ∧
    (lightGroupOf s c.span = 0 ∨ isHeld s (lightGroupOf s c.span) = false) ∧ s.engine.laserFault = none ∧
    s.port.station = .running := by
  rw [saveCandidate, h, ← decide_eq_false_iff_not (p := c.span ∈ s.sched.off)]
  exact selectable_iff s c.level c.span

theorem select_busy (h : s.engine.state ≠ .idle) : select s = s := by rw [select, if_pos h]

/-- The better of the best candidate so far and the next one, of a higher span number (R55). -/
def betterSlot (best : Option (Nat × Nat)) (e : Nat × Request) : Option (Nat × Nat) :=
  match best with
  | none => some (e.1, e.2.level)
  | some (n, l) => if l < e.2.level then some (e.1, e.2.level) else some (n, l)

theorem bestSlot_eq : bestSlot s = (s.sched.slots.filter fun e => slotCandidate s e.1 e.2).foldl betterSlot none := rfl

/-- No later candidate of at most the same level replaces the best one. -/
theorem foldl_betterSlot_stays {n l : Nat} : ∀ {t : Table Request}, (∀ e ∈ t, e.2.level ≤ l) →
    t.foldl betterSlot (some (n, l)) = some (n, l)
  | [], _ => rfl
  | e :: t, h => by
    rw [List.foldl_cons, betterSlot, if_neg (Nat.not_lt.2 (h e (List.mem_cons_self ..)))]
    exact foldl_betterSlot_stays fun x hx => h x (List.mem_cons_of_mem _ hx)

/-- Candidates of lower levels leave none of a level l as the best one. -/
theorem foldl_betterSlot_below {l : Nat} (t : Table Request) (best : Option (Nat × Nat)) (ht : ∀ e ∈ t, e.2.level < l)
    (hb : ∀ b, best = some b → b.2 < l) : ∀ b, t.foldl betterSlot best = some b → b.2 < l := by
  induction t generalizing best with
  | nil => exact hb
  | cons e t ih =>
    have he := ht e (List.mem_cons_self ..)
    refine ih _ (fun x hx => ht x (List.mem_cons_of_mem _ hx)) fun b hbest => ?_
    unfold betterSlot at hbest
    split at hbest
    · cases hbest; exact he
    · split at hbest
      · cases hbest; exact he
      · cases hbest; exact hb _ rfl

theorem bestSlot_of_best {n : Nat} {r : Request} (hwf : Table.wf s.sched.slots) (hmem : (n, r) ∈ s.sched.slots)
    (hcand : slotCandidate s n r = true)
    (hbest : ∀ e ∈ s.sched.slots, slotCandidate s e.1 e.2 = true → e.1 ≠ n →
      e.2.level < r.level ∨ (e.2.level = r.level ∧ n < e.1)) : bestSlot s = some (n, r.level) := by
  obtain ⟨pre, post, hsplit⟩ := List.append_of_mem (List.mem_filter.2 ⟨hmem, hcand⟩ :
    (n, r) ∈ s.sched.slots.filter fun e => slotCandidate s e.1 e.2)
  have hkeys : Table.wf (pre ++ (n, r) :: post) := by
    rw [← hsplit]
    exact Table.wf_filter _ hwf
  have hin : ∀ e ∈ pre ++ (n, r) :: post, e ∈ s.sched.slots ∧ slotCandidate s e.1 e.2 = true := fun e he => by
    rw [← hsplit] at he
    exact List.mem_filter.1 he
  have hpair : (pre ++ (n, r) :: post).Pairwise fun a b => a.1 < b.1 := by
    rwa [Table.wf, Table.keys, List.pairwise_map] at hkeys
  obtain ⟨_, hpost, hcross⟩ := List.pairwise_append.1 hpair
  rw [bestSlot_eq, hsplit, List.foldl_append, List.foldl_cons]
  have hpre : ∀ b, pre.foldl betterSlot none = some b → b.2 < r.level := by
    refine foldl_betterSlot_below pre none (fun e he => ?_) nofun
    obtain ⟨hs, hc⟩ := hin e (List.mem_append_left _ he)
    have hlt : e.1 < n := hcross e he _ (List.mem_cons_self ..)
    have := hbest e hs hc (Nat.ne_of_lt hlt)
    omega
  have hstep : betterSlot (pre.foldl betterSlot none) (n, r) = some (n, r.level) := by
    unfold betterSlot
    split
    · rfl
    · next m l h => rw [if_pos (hpre (m, l) h)]
  rw [hstep]
  refine foldl_betterSlot_stays fun e he => ?_
  obtain ⟨hs, hc⟩ := hin e (List.mem_append_right _ (List.mem_cons_of_mem _ he))
  have hlt : n < e.1 := (List.pairwise_cons.1 hpost).1 e he
  have := hbest e hs hc (Nat.ne_of_gt hlt)
  omega

theorem bestSlot_none (h : ∀ e ∈ s.sched.slots, slotCandidate s e.1 e.2 = false) : bestSlot s = none := by
  rw [bestSlot_eq, List.filter_eq_nil_iff.2 fun e he => by simp [h e he]]
  rfl

theorem select_none (h : ∀ e ∈ s.sched.slots, slotCandidate s e.1 e.2 = false) (hsave : saveCandidate s = false) :
    select s = s := by
  rw [select, bestSlot_none s h, hsave]
  split
  · rfl
  · split <;> simp_all

theorem select_resume {c : Ctx} (hidle : s.engine.state = .idle) (hc : s.sched.save = some c)
    (hsave : saveCandidate s = true)
    (h : ∀ e ∈ s.sched.slots, slotCandidate s e.1 e.2 = true → e.2.level ≤ c.level) : select s = beginResume s c := by
  rw [select, if_neg (not_not.2 hidle), hc, hsave]
  cases hb : bestSlot s with
  | none => rfl
  | some b =>
    obtain ⟨r, hr, hcand, hl⟩ := bestSlot_mem (n := b.1) (l := b.2) hb
    exact if_pos (hl ▸ h _ hr hcand)

theorem select_slot {n l : Nat} (hidle : s.engine.state = .idle) (hb : bestSlot s = some (n, l))
    (h : ∀ c, s.sched.save = some c → saveCandidate s = true → c.level < l) : select s = beginSlot s n l := by
  rw [select, if_neg (not_not.2 hidle), hb]
  split
  · next c n' l' hc hs hn =>
    obtain ⟨rfl, rfl⟩ := Prod.mk.inj (Option.some.inj hn)
    exact if_neg (Nat.not_le.2 (h c hc hs))
  · next hn => cases hn
  · next n' l' hn _ =>
    obtain ⟨rfl, rfl⟩ := Prod.mk.inj (Option.some.inj hn)
    rfl
  · next hn _ => cases hn

end Sys2Proof.Machine

namespace Sys2Proof
open Machine

/-- Settles O34: what a candidate is, which one `select` takes, and what `settle` makes of clock unit and doze timer. -/
theorem selectionTakesTheBestCandidate : Obligations.SelectionTakesTheBestCandidate := by
  intro s
  refine ⟨slotCandidate_conditions s, fun c hc => saveCandidate_conditions s hc, select_busy s, select_none s,
    fun c hidle hc hsave h => select_resume s hidle hc hsave h,
    fun n r hidle hwf hmem hcand hbest h => select_slot s hidle (bestSlot_of_best s hwf hmem hcand hbest) h, rfl,
    pendingCandidate_iff s, fun hdoze hc => ?_, fun hq => ?_⟩
  · obtain ⟨e, _, he⟩ := (pendingCandidate_iff s).1 hc
    obtain ⟨_, _, _, _, _, _, _, hrun, _⟩ := (slotCandidate_conditions s e.1 e.2).1 he
    have hne : (woken s).port.station ≠ .isolated := by
      show s.port.station ≠ _
      rw [hrun]
      decide
    have heq := offerPresence_eq (woken s) hne
    rw [settle_wakes s hdoze hc]
    refine ⟨by rw [heq]; rfl, by rw [heq]; rfl, fun hl => ?_, by rw [heq]; rfl⟩
    have hpres : presenceState (woken s) = .running := by simp [presenceState, woken, hrun]
    have := offerPresence_hasFrame (woken s) hne hl
    rwa [hpres] at this
  · rw [settle_quiet s hq]
    exact ⟨refreshDoze_starts s, refreshDoze_runs s, refreshDoze_not_mayDoze s⟩

end Sys2Proof

/-! ## What a selected request or resume leaves, and suspension (R55, R59, R60, R66, R68, R95, R97) -/

namespace Sys2Proof

-- The kernel checks the lemmas one after another: many at once take a thread each.
set_option Elab.async false

/-- What is erased may have been changed before. -/
theorem Table.erase_adjust {α : Type} (t : Table α) (k : Nat) (f : α → α) : (t.adjust k f).erase k = t.erase k := by
  induction t with
  | nil => rfl
  | cons e t ih =>
    have hcons : ∀ (e : Nat × α) (t : Table α), Table.erase (e :: t) k = if e.1 = k then t.erase k else e :: t.erase k := by
      intro e t
      by_cases h : e.1 = k <;> simp [Table.erase, h]
    have hadj : Table.adjust (e :: t) k f = (if e.1 = k then (e.1, f e.2) else e) :: Table.adjust t k f := rfl
    rw [hadj, hcons, hcons, ih]
    by_cases h : e.1 = k <;> simp [h]

/-- The later of two changes of one entry stands. -/
theorem Table.adjust_adjust {α : Type} (t : Table α) (k : Nat) (f g : α → α) :
    (t.adjust k f).adjust k g = t.adjust k (g ∘ f) := by
  unfold Table.adjust
  rw [List.map_map]
  refine List.map_congr_left fun e _ => ?_
  by_cases h : e.1 = k <;> simp [h]

namespace Machine

/-! ### The accumulator's roles (R95, R97) -/

section
variable (a : Acc)

theorem Acc.adjust_active (n : Nat) (f : AccSlot → AccSlot) : (a.adjust n f).active = a.active := by
  unfold Acc.adjust
  split <;> rfl

theorem Acc.current_adjust (f : AccSlot → AccSlot) : (a.adjust a.active f).current = f a.current := by
  by_cases h : a.active = 0 <;> simp [Acc.adjust, Acc.current, Acc.slot, h]

theorem Acc.saved_adjust (f : AccSlot → AccSlot) :
    (a.adjust a.active f).slot (a.adjust a.active f).saved = a.slot a.saved := by
  by_cases h : a.active = 0 <;> simp [Acc.adjust, Acc.saved, Acc.slot, h]

theorem Acc.claim_current (first count : Nat) :
    (a.claim first count).current = AccSlot.clear { a.current with owner := .running, first := first, count := count } :=
  a.current_adjust _

theorem Acc.claim_saved (first count : Nat) : (a.claim first count).slot (a.claim first count).saved = a.slot a.saved :=
  a.saved_adjust _

theorem Acc.setAside_saved : a.setAside.slot a.setAside.saved = { a.current with owner := .suspended } := by
  by_cases h : a.active = 0 <;> simp [Acc.setAside, Acc.adjust, Acc.saved, Acc.current, Acc.slot, h]

theorem Acc.setAside_current : a.setAside.current = a.slot a.saved := by
  by_cases h : a.active = 0 <;> simp [Acc.setAside, Acc.adjust, Acc.saved, Acc.current, Acc.slot, h]

theorem Acc.bringBack_current : a.bringBack.current = { a.slot a.saved with owner := .running } := by
  by_cases h : a.active = 0 <;> simp [Acc.bringBack, Acc.adjust, Acc.saved, Acc.current, Acc.slot, h]

theorem Acc.bringBack_saved : a.bringBack.slot a.bringBack.saved = a.current := by
  by_cases h : a.active = 0 <;> simp [Acc.bringBack, Acc.adjust, Acc.saved, Acc.current, Acc.slot, h]

end

variable (s : State)

/-! ### The switch (R68) -/

theorem sendSwitch_eq (p : Nat) : sendSwitch s p = { s with switch := (sendSwitch s p).switch } := by
  unfold sendSwitch
  repeat' split
  all_goals rfl

theorem sendSwitch_settled {p : Nat} (h : s.switch = .settled p) : (sendSwitch s p).switch = .settled p := by
  simp [sendSwitch, h]

theorem sendSwitch_travelling {p x : Nat} (h : s.switch = .travelling p x) :
    (sendSwitch s p).switch = .travelling p x := by simp [sendSwitch, h]

theorem sendSwitch_sent {p : Nat} (h : s.switch ≠ .settled p) (h' : ∀ x, s.switch ≠ .travelling p x) :
    (sendSwitch s p).switch = .travelling p (s.clock.now + 25) := by
  unfold sendSwitch
  split
  · next q hq => rw [if_neg fun he : q = p => h (he ▸ hq)]; rfl
  · next q x hq => rw [if_neg fun he : q = p => h' x (he ▸ hq)]; rfl
  · rfl

theorem sendSwitch_settled_iff {p : Nat} : (sendSwitch s p).switch = .settled p ↔ s.switch = .settled p := by
  refine ⟨fun h => ?_, sendSwitch_settled s⟩
  by_contra hn
  by_cases ht : ∃ x, s.switch = .travelling p x
  · obtain ⟨x, hx⟩ := ht
    rw [sendSwitch_travelling s hx] at h
    cases h
  · rw [sendSwitch_sent s hn (not_exists.1 ht)] at h
    cases h

/-! ### The ask for a claim (R158) -/

theorem askClaim_free {g l : Nat} {m : Option (StaleMark × Nat)} (h : s.claims.find g = some ⟨.free, m⟩) :
    askClaim s g l = offer (setClaim (askRemove s (isReleaseOf g)) g (.claiming l none)) l (.claim g l) := by
  unfold askClaim
  rw [h]

theorem askClaim_not_free {g l : Nat} {e : ClaimEntry} (h : s.claims.find g = some e) (hn : e.state ≠ .free) :
    askClaim s g l = s := by
  obtain ⟨st, m⟩ := e
  unfold askClaim
  rw [h]
  cases st with
  | free => exact absurd rfl hn
  | held => rfl
  | claiming => rfl
  | opened => rfl

/-- A FREE entry becomes CLAIMING with a CLAIM offered, and no RELEASE of the group waits (R158). -/
theorem seekClaim_free {g l : Nat} {m : Option (StaleMark × Nat)} (h : s.claims.find g = some ⟨.free, m⟩) :
    seekClaim s g l = { s with claims := (seekClaim s g l).claims, line := (seekClaim s g l).line } ∧
    (seekClaim s g l).claims.find g = some ⟨.claiming l none, m⟩ ∧
    (∀ k, k ≠ g → (seekClaim s g l).claims.find k = s.claims.find k) ∧
    (s.line.state ≠ .idle → s.onLine →
      (∃ f ∈ (seekClaim s g l).line.queue, f.urgency = l ∧ f.body = .claim g l) ∧
      ∀ f ∈ (seekClaim s g l).line.queue, isReleaseOf g f.body = false) := by
  have hclaims : (askClaim s g l).claims = s.claims.adjust g fun e => { e with state := .claiming l none } := by
    rw [askClaim_free s h, offer_eq]
    rfl
  have hfind : (askClaim s g l).claims.find g = some ⟨.claiming l none, m⟩ := by
    rw [hclaims, Table.find_adjust, if_pos rfl, h]
    rfl
  have hseek : seekClaim s g l = askClaim s g l := by
    unfold seekClaim
    refine if_neg ?_
    rw [isHeld, hfind]
    exact Bool.false_ne_true
  rw [hseek]
  refine ⟨?_, hfind, fun k hk => ?_, fun hidle hon => ?_⟩
  · rw [askClaim_free s h, offer_eq]
    rfl
  · rw [hclaims, Table.find_adjust, if_neg hk]
  · have hqueue : (askClaim s g l).line.queue =
        enterClaimFrame (s.line.queue.filter fun f => !isReleaseOf g f.body) ⟨s.line.nextAge, l, .claim g l⟩ := by
      rw [askClaim_free s h]
      exact offer_claim _ l g l hon.1 hon.2 hidle
    rw [hqueue]
    refine ⟨⟨_, mem_enterClaimFrame_self _ _, rfl, rfl⟩, fun f hf => ?_⟩
    rcases mem_enterClaimFrame _ _ _ hf with rfl | hf
    · rfl
    · simpa using (List.mem_filter.1 hf).2

/-- An ask that finds the group HELD gives the preparation back (R158). -/
theorem seekClaim_held {g l x k e : Nat} {m : Option (StaleMark × Nat)} (h : s.claims.find g = some ⟨.held x k e, m⟩) :
    seekClaim s g l = giveBack s := by
  unfold seekClaim
  rw [askClaim_not_free s h (by simp)]
  refine if_pos ?_
  rw [isHeld, h]

/-! ### A selected request -/

theorem slotSelected_eq (n : Nat) : slotSelected s n = { stopDoze s with
    sched := { s.sched with
      slots := s.sched.slots.adjust n fun r => { r with selected := true }, selection := some (.slot n) }
    engine := { s.engine with state := .preparing }
    switch := (slotSelected s n).switch } := by
  unfold slotSelected
  dsimp only
  rw [sendSwitch_eq]
  rfl

/-- The switch of a selected request is that of the station, sent to the span's port (R68). -/
theorem slotSelected_switch (n : Nat) : (slotSelected s n).switch = (sendSwitch s n).switch := by
  unfold slotSelected sendSwitch
  dsimp only [adjustSlot, stopDoze]
  repeat' split
  all_goals rfl

theorem beginSlot_switch (n l : Nat) : (beginSlot s n l).switch = (sendSwitch s n).switch := by
  rw [beginSlot_eq, ← slotSelected_switch]
  split <;> simp

/-- The request of a span without a light group is taken at once (R56, R70). -/
theorem beginSlot_private {n : Nat} {r : Request} {rec : SpanRecord} (hr : s.sched.slots.find n = some r)
    (hrec : enabledRec s n = some rec) (hg : rec.lightGroup = 0) (l : Nat) :
    beginSlot s n l = { stopDoze s with
      sched := { s.sched with slots := s.sched.slots.erase n, selection := none }
      engine :=
        if s.switch = .settled n then
          { s.engine with state := .dark, ctx := some { newCtx s n r rec with phase := .dark }, darkShots := 0, darkTotal := 0 }
        else { s.engine with state := .preparing, ctx := some (newCtx s n r rec) }
      switch := (sendSwitch s n).switch
      acc := s.acc.claim (acquiredBins rec.len (newCtx s n r rec).window).1
        (acquiredBins rec.len (newCtx s n r rec).window).2 } := by
  have heq := slotSelected_eq s n
  have hsw := slotSelected_switch s n
  have hlight : lightGroupOf s n = 0 := by simp [lightGroupOf, hrec, hg]
  have hfind : (slotSelected s n).sched.slots.find n = some { r with selected := true } := by
    rw [heq, Table.find_adjust, if_pos rfl, hr]
    rfl
  rw [beginSlot_eq, if_pos hlight, checkPrepared_takeSlot _ n _ rec hfind (by rw [heq]; exact hrec) (by rw [heq])]
  rw [hsw, if_congr (sendSwitch_settled_iff s) rfl rfl, heq, Table.erase_adjust, hsw]
  rfl

/-- The cleared slot of a taking holds no shot (R95). -/
theorem clear_sums (sl : AccSlot) : ∀ x ∈ sl.clear.sums, x = 0 := fun _ hx => (List.mem_replicate.1 hx).2

theorem clear_marks (sl : AccSlot) : ∀ x ∈ sl.clear.marks, x = false := fun _ hx => (List.mem_replicate.1 hx).2

theorem quick_iff (k : ReqKind) : k.quick = decide (k ∈ [ReqKind.routine, .host, .alert]) := by cases k <;> rfl

/-! ### A selected resume -/

theorem resumeSelected_eq (c : Ctx) : resumeSelected s c = { stopDoze s with
    sched := { s.sched with
      save := none, selection := some .save, resumeExpiry := none
      resumeLeft := (s.sched.resumeExpiry.getD s.clock.now) - s.clock.now }
    engine := { s.engine with state := .preparing, ctx := some (resumedCtx s c) }
    acc := s.acc.bringBack
    switch := (resumeSelected s c).switch } := by
  unfold resumeSelected
  dsimp only
  rw [sendSwitch_eq]
  rfl

theorem resumeSelected_switch (c : Ctx) : (resumeSelected s c).switch = (sendSwitch s c.span).switch := by
  unfold resumeSelected sendSwitch
  dsimp only [stopDoze]
  repeat' split
  all_goals rfl

theorem beginResume_switch (c : Ctx) : (beginResume s c).switch = (sendSwitch s c.span).switch := by
  rw [beginResume_eq, ← resumeSelected_switch]
  split <;> simp

/-- The sweep of a span without a light group is resumed at once (R60, R70). -/
theorem beginResume_private {c : Ctx} (hg : lightGroupOf s c.span = 0) :
    beginResume s c = { stopDoze s with
      sched := { s.sched with
        save := none, selection := none, resumeExpiry := none
        resumeLeft := (s.sched.resumeExpiry.getD s.clock.now) - s.clock.now }
      engine :=
        if s.switch = .settled c.span then { s.engine with state := .full, ctx := some { resumedCtx s c with phase := .full } }
        else { s.engine with state := .preparing, ctx := some (resumedCtx s c) }
      acc := s.acc.bringBack
      switch := (sendSwitch s c.span).switch } := by
  have heq := resumeSelected_eq s c
  have hsw := resumeSelected_switch s c
  rw [beginResume_eq, if_pos hg, checkPrepared_resumed _ (resumedCtx s c) (by rw [heq]) (by rw [heq]) rfl rfl]
  show (if (resumeSelected s c).switch = .settled c.span then _ else _) = _
  rw [hsw, if_congr (sendSwitch_settled_iff s) rfl rfl, heq, hsw]
  split <;> rfl

/-! ### Suspension -/

theorem suspend_fields {c : Ctx} (hc : s.engine.ctx = some c) :
    suspend s = { s with
      sched := { s.sched with
        save := some { c with phase := .full }
        resumeExpiry := some (s.clock.now + s.cfg.block.resumeLimit * 1000) }
      engine := { s.engine with state := .idle, ctx := none }
      acc := s.acc.setAside
      claims := (suspend s).claims, line := (suspend s).line } := by
  have h := releaseClaim_keeps (setAside s c) (lightGroupOf s c.span)
  rw [suspend_eq hc]
  cases hr : releaseClaim (setAside s c) (lightGroupOf s c.span)
  simp only [hr] at h
  simp [h, setAside, after]

theorem suspend_released {c : Ctx} (hc : s.engine.ctx = some c) : claimReleased s (suspend s) (lightGroupOf s c.span) := by
  rw [suspend_eq hc]
  exact releaseClaim_released (setAside s c) (lightGroupOf s c.span)

end Machine

open Machine

/-- Settles O35: `beginSlot` by the claim state of the span's light group. -/
theorem selectedRequestIsPrepared : Obligations.SelectedRequestIsPrepared := by
  intro s n r rec hr hrec
  have hsw := beginSlot_switch s n r.level
  have heq := slotSelected_eq s n
  have hlight : lightGroupOf s n = rec.lightGroup := by rw [lightGroupOf, hrec]
  have hseek : rec.lightGroup ≠ 0 → beginSlot s n r.level = seekClaim (slotSelected s n) rec.lightGroup r.level := fun hg => by
    rw [beginSlot_eq, hlight, if_neg hg]
  refine ⟨fun h => ?_, fun x h => ?_, fun h h' => ?_, fun hg => ?_, fun m hg hm => ?_, fun x l e m hg hm => ?_⟩
  · rw [hsw, sendSwitch_settled s h]
  · rw [hsw, sendSwitch_travelling s h]
  · rw [hsw, sendSwitch_sent s h h']
  · rw [beginSlot_private s hr hrec hg]
    have hacc := s.acc.claim_current (acquiredBins rec.len (newCtx s n r rec).window).1
      (acquiredBins rec.len (newCtx s n r rec).window).2
    refine ⟨?_, ?_, ?_, ?_, ?_, ?_, fun hw => ?_, fun x base count hw hx hwin => ?_, Acc.claim_saved _ _ _, rfl⟩
    · split <;> rfl
    · split <;> simp [newCtx, quick_iff, latchSet]
    · rw [hacc]; rfl
    · rw [hacc]; rfl
    · rw [hacc]; exact clear_sums _
    · rw [hacc]; exact clear_marks _
    · rw [hacc]
      simp [AccSlot.clear, newCtx, hw, acquiredBins]
    · rw [hacc]
      simp [AccSlot.clear, newCtx, hw, hx, hwin, acquiredBins]
  · have hfree : (slotSelected s n).claims.find rec.lightGroup = some ⟨.free, m⟩ := by rw [heq]; exact hm
    obtain ⟨hframe, hfind, hother, hline⟩ := seekClaim_free (slotSelected s n) (l := r.level) hfree
    rw [hseek hg]
    generalize seekClaim (slotSelected s n) rec.lightGroup r.level = t at *
    rw [heq] at hother hline
    refine ⟨by rw [hframe, heq], by rw [hframe, heq], hfind, hother, fun h1 h2 h3 => hline h1 ⟨h2, h3⟩, ?_⟩
    rw [hframe, heq]
  · have hheld : (slotSelected s n).claims.find rec.lightGroup = some ⟨.held x l e, m⟩ := by rw [heq]; exact hm
    rw [hseek hg, seekClaim_held _ hheld, heq]
    have hback : (s.sched.slots.adjust n fun r => { r with selected := true }).adjust n (fun r => { r with selected := false }) =
        s.sched.slots.adjust n fun r => { r with selected := false } := Table.adjust_adjust ..
    dsimp only [giveBack, adjustSlot]
    rw [hback]
    exact ⟨rfl, rfl, rfl, rfl, rfl⟩

/-- Settles O36: `suspend`, and `beginResume` by the claim state of the span's light group. -/
theorem suspensionAndResumeMoveTheSweep : Obligations.SuspensionAndResumeMoveTheSweep := by
  refine ⟨fun s c hc => ?_, fun s c e hc he hg => ?_, fun s c e m hc he hg hm => ?_⟩
  · have h := suspend_fields s hc
    refine ⟨by rw [h], by rw [h], ?_, ?_, suspend_released s hc, by rw [h], by rw [h], ?_⟩
    · rw [h]; exact s.acc.setAside_saved
    · rw [h]; exact s.acc.setAside_current
    · rw [h]
  · rw [beginResume_private s hg]
    refine ⟨by rw [he]; rfl, ?_, s.acc.bringBack_current, s.acc.bringBack_saved, rfl⟩
    split <;> rfl
  · have heq := resumeSelected_eq s c
    have hsw := beginResume_switch s c
    have hseek : beginResume s c = seekClaim (resumeSelected s c) (lightGroupOf s c.span) c.level := by
      rw [beginResume_eq, if_neg hg]
    have hfree : (resumeSelected s c).claims.find (lightGroupOf s c.span) = some ⟨.free, m⟩ := by rw [heq]; exact hm
    obtain ⟨hframe, hfind, hother, hline⟩ := seekClaim_free (resumeSelected s c) (l := c.level) hfree
    rw [← hseek] at hframe hfind hother hline
    generalize beginResume s c = t at *
    rw [heq] at hother hline
    refine ⟨by rw [hframe, heq, he]; rfl, by rw [hframe, heq]; rfl, hfind, hother,
      by rw [hframe, heq]; exact s.acc.bringBack_current, by rw [hframe, heq]; exact s.acc.bringBack_saved, hline,
      fun h => by rw [hsw, sendSwitch_settled s h], fun h h' => by rw [hsw, sendSwitch_sent s h h'], ?_⟩
    rw [hframe, heq]

end Sys2Proof

/-! ## END_OF_LOCKING, SWITCH_SETTLE_EXPIRY and the claim unit's timers -/

namespace Sys2Proof.Machine

-- The kernel checks the lemmas one after another: many at once take a thread each.
set_option Elab.async false

variable (s : State)

/-! ### A row's end in which nothing can be selected -/

theorem slotCandidate_not_running (h : s.port.station ≠ .running) (n : Nat) (r : Request) : slotCandidate s n r = false := by
  rw [← Bool.not_eq_true, slotCandidate_conditions]
  rintro ⟨_, _, _, _, _, _, _, hrun, _⟩
  exact h hrun

theorem saveCandidate_not_running (h : s.port.station ≠ .running) : saveCandidate s = false := by
  rw [← Bool.not_eq_true]
  intro hc
  cases hs : s.sched.save with
  | none => rw [saveCandidate, hs] at hc; cases hc
  | some c =>
    obtain ⟨_, _, _, _, _, _, hrun⟩ := (saveCandidate_conditions s hs).1 hc
    exact h hrun

theorem pendingCandidate_not_running (h : s.port.station ≠ .running) : pendingCandidate s = false := by
  rw [← Bool.not_eq_true, pendingCandidate_iff]
  rintro ⟨e, _, he⟩
  rw [slotCandidate_not_running s h] at he
  cases he

theorem select_not_running (h : s.port.station ≠ .running) : select s = s :=
  select_none s (fun _ _ => slotCandidate_not_running s h _ _) (saveCandidate_not_running s h)

theorem settle_not_running (h : s.port.station ≠ .running) : settle s = stopDoze s := by
  rw [settle_quiet s (.inr (pendingCandidate_not_running s h)), refreshDoze_not_mayDoze]
  exact fun ⟨_, _, hrun, _⟩ => h hrun

theorem settleSelect_not_running (h : s.port.station ≠ .running) : settleSelect s = stopDoze s := by
  rw [settleSelect, select_not_running s h, settle_not_running s h]

/-! ### Timers -/

theorem isDue_some (e : Nat) : isDue s (some e) = decide (e ≤ s.clock.now) := rfl

theorem lockingOver_true {e : Nat} (hstate : s.clock.state = .locking) (he : s.clock.lockExpiry = some e)
    (hdue : e ≤ s.clock.now) : lockingOver s = true := by simp [lockingOver, hstate, he, isDue_some, hdue]

/-! ### The end of PREPARING -/

/-- Nothing is ready to leave PREPARING (R70). -/
theorem checkPrepared_waits {p : Nat} (hsw : s.switch = .settled p)
    (h : s.engine.state ≠ .preparing ∨ s.sched.selection ≠ none ∨ ctxIs s.engine.ctx p = false) : checkPrepared s = s := by
  unfold checkPrepared
  split
  · next c hc =>
    refine if_neg ?_
    rintro ⟨hst, hsel, hset⟩
    rw [hsw] at hset
    cases hset
    rcases h with h | h | h
    · exact h hst
    · exact h hsel
    · simp [hc, ctxIs] at h
  · rfl

/-! ### Claim entries -/

theorem claimOf_some {g : Nat} {st : ClaimState} {m : Option (StaleMark × Nat)} (h : s.claims.find g = some ⟨st, m⟩) :
    claimOf s g = some st := by rw [claimOf, h]; rfl

theorem find_setClaim_same {g : Nat} {st st' : ClaimState} {m : Option (StaleMark × Nat)}
    (h : s.claims.find g = some ⟨st, m⟩) : (setClaim s g st').claims.find g = some ⟨st', m⟩ := by
  rw [setClaim, Table.find_adjust, if_pos rfl, h]
  rfl

theorem find_setClaim_other {g k : Nat} (st : ClaimState) (h : k ≠ g) :
    (setClaim s g st).claims.find k = s.claims.find k := by rw [setClaim, Table.find_adjust, if_neg h]

/-- HOLD_OFF_EXPIRY without a CLAIM whose hold-off runs (R160). -/
theorem exec_holdOffExpiry_none {g : Nat} (h : ∀ y e m, s.claims.find g ≠ some ⟨.claiming y (some e), m⟩) :
    exec (.holdOffExpiry g) s = .next s := by
  show Host.Outcome.next _ = _
  split
  · next hc =>
    obtain ⟨m, hm⟩ := claimOf_eq_some hc
    exact absurd hm (h _ _ m)
  · rfl

theorem exec_holdOffExpiry {g y e : Nat} {m : Option (StaleMark × Nat)}
    (h : s.claims.find g = some ⟨.claiming y (some e), m⟩) :
    exec (.holdOffExpiry g) s = .next
      (if e ≤ s.clock.now then claimOpened (setClaim s g (.opened y (e + quarterLife s))) g else s) := by
  show Host.Outcome.next _ = _
  rw [claimOf_some s h]

theorem exec_holdRepetition_none {g : Nat} (h : ∀ y e m, s.claims.find g ≠ some ⟨.opened y e, m⟩) :
    exec (.holdRepetition g) s = .next s := by
  show Host.Outcome.next _ = _
  split
  · next hc =>
    obtain ⟨m, hm⟩ := claimOf_eq_some hc
    exact absurd hm (h _ _ m)
  · rfl

theorem exec_holdRepetition {g y e : Nat} {m : Option (StaleMark × Nat)} (h : s.claims.find g = some ⟨.opened y e, m⟩) :
    exec (.holdRepetition g) s = .next
      (if e ≤ s.clock.now then offer (setClaim s g (.opened y (e + quarterLife s))) y (.hold g y) else s) := by
  show Host.Outcome.next _ = _
  rw [claimOf_some s h]

theorem exec_heldExpiry_none {g : Nat} (h : ∀ x l e m, s.claims.find g ≠ some ⟨.held x l e, m⟩) :
    exec (.heldExpiry g) s = .next s := by
  show Host.Outcome.next _ = _
  split
  · next hc =>
    obtain ⟨m, hm⟩ := claimOf_eq_some hc
    exact absurd hm (h _ _ _ m)
  · rfl

theorem exec_heldExpiry {g x l e : Nat} {m : Option (StaleMark × Nat)} (h : s.claims.find g = some ⟨.held x l e, m⟩) :
    exec (.heldExpiry g) s = .next (if e ≤ s.clock.now then settleSelect (setClaim s g .free) else s) := by
  show Host.Outcome.next _ = _
  rw [claimOf_some s h]

/-! ### Deliveries -/

/-- The oldest frame leaves the inbox, and refreshes its sender's entry (R142, R150). -/
theorem deliver_eq {f : RxFrame} {rest : List RxFrame} (h : s.line.inbox = f :: rest) : deliver s f = { s with
    line := { s.line with inbox := rest }
    peers := { s.peers with table := s.peers.table.adjust f.sender fun p =>
      { p with lastHeard := f.arrivalTod, ageExpiry := f.arrival + 3500 } } } := by
  unfold deliver popInbox
  rw [h]
  rfl

theorem exec_releaseDelivered {f : RxFrame} {rest : List RxFrame} {g l : Nat} (h : s.line.inbox = f :: rest)
    (hb : f.body = .release g l) : exec .releaseDelivered s = .next (takeRelease (deliver s f) g f.sender) := by
  show Host.Outcome.next _ = _
  rw [h]
  dsimp only
  rw [hb]

/-- A RELEASE by anyone but the holder frees nothing (R161). -/
theorem takeRelease_other {g x : Nat} (h : ∀ l e m, s.claims.find g ≠ some ⟨.held x l e, m⟩) : takeRelease s g x = s := by
  unfold takeRelease
  split
  · next e he =>
    obtain ⟨st, m⟩ := e
    split
    · next y l t hst =>
      refine if_neg fun hx => ?_
      subst hx
      obtain rfl : st = .held x l t := hst
      exact h _ _ _ he
    all_goals rfl
  · rfl

theorem takeRelease_holder {g x l e : Nat} {m : Option (StaleMark × Nat)}
    (h : s.claims.find g = some ⟨.held x l e, m⟩) : takeRelease s g x = settleSelect (setClaim s g .free) := by
  unfold takeRelease
  rw [h]
  exact if_pos rfl

end Sys2Proof.Machine

namespace Sys2Proof
open Machine

/-- Settles O37: the row is `settleSelect (enterAwake s)`, which selects nothing outside RUNNING. -/
theorem endOfLockingWakesTheEngine : Obligations.EndOfLockingWakesTheEngine := by
  intro s
  refine ⟨fun e hstate he hdue => ?_, fun hstate => ?_⟩
  · have hexec : exec .endOfLocking s = .next (settleSelect (enterAwake s)) :=
      congrArg Host.Outcome.next (if_pos (lockingOver_true s hstate he hdue))
    refine ⟨hexec, fun hrun => ?_⟩
    rw [hexec, settleSelect_not_running (enterAwake s) hrun]
    rfl
  · refine congrArg Host.Outcome.next (if_neg ?_)
    simp [lockingOver, hstate]

/-- Settles O42, by the switch state and what is in PREPARING. -/
theorem switchSettlesAndPreparingEnds : Obligations.SwitchSettlesAndPreparingEnds := by
  intro s
  have hexec : ∀ p e, s.switch = .travelling p e →
      exec .switchSettleExpiry s = .next (if e ≤ s.clock.now then checkPrepared { s with switch := .settled p } else s) := by
    intro p e h
    show Host.Outcome.next _ = _
    rw [h]
  refine ⟨fun h => ?_, fun p e h hlt => ?_, fun p e h hle => ⟨fun c hc hst hsel hspan => ⟨fun hr => ?_, fun hr => ?_⟩, fun hw => ?_⟩⟩
  · show Host.Outcome.next _ = _
    split
    · next p e hp => exact absurd hp (h p e)
    all_goals rfl
  · rw [hexec p e h, if_neg (Nat.not_le.2 hlt)]
  · rw [hexec p e h, if_pos hle, checkPrepared_new { s with switch := .settled p } c hc hst hsel hr, if_pos (by rw [hspan])]
  · rw [hexec p e h, if_pos hle, checkPrepared_resumed { s with switch := .settled p } c hc hst hsel hr, if_pos (by rw [hspan])]
  · rw [hexec p e h, if_pos hle, checkPrepared_waits { s with switch := .settled p } rfl hw]

/-- Settles O56: RELEASE_DELIVERED and HELD_EXPIRY by the entry's state. -/
theorem heldEntriesAreFreed : Obligations.HeldEntriesAreFreed := by
  intro s g
  refine ⟨fun f rest l hin hb => ⟨fun hn => ?_, fun lv e m hf hocc => ?_, fun lv e m hf => ?_⟩,
    fun x lv e m hf => ⟨fun hlt => ?_, fun hle => ?_, fun hle hocc => ?_⟩, fun hn => exec_heldExpiry_none s hn⟩
  · rw [exec_releaseDelivered s hin hb, takeRelease_other (deliver s f) hn, deliver_eq s hin]
  · rw [exec_releaseDelivered s hin hb, takeRelease_holder (deliver s f) hf, settleSelect_occupied (setClaim (deliver s f) g .free) hocc, deliver_eq s hin]
    rfl
  · rw [exec_releaseDelivered s hin hb, takeRelease_holder (deliver s f) hf, deliver_eq s hin]
    rfl
  · rw [exec_heldExpiry s hf, if_neg (Nat.not_le.2 hlt)]
  · rw [exec_heldExpiry s hf, if_pos hle]
    rfl
  · rw [exec_heldExpiry s hf, if_pos hle, settleSelect_occupied (setClaim s g .free) hocc]
    rfl

/-- Settles O57: HOLD_OFF_EXPIRY takes the sweep that sought the claim; HOLD_REPETITION offers the next HOLD. -/
theorem claimsOpenAndRepeatHolds : Obligations.ClaimsOpenAndRepeatHolds := by
  intro s g
  refine ⟨fun hn => exec_holdOffExpiry_none s hn, fun hn => exec_holdRepetition_none s hn,
    fun y e m hf => ⟨fun hlt => ?_, fun n r rec hle hsel hr hrec hg hst => ?_, fun c hle hsel hc hres hg hst => ?_⟩,
    fun y e m hf => ⟨fun hlt => ?_, fun hle => ?_⟩⟩
  · rw [exec_holdOffExpiry s hf, if_neg (Nat.not_le.2 hlt)]
  · have hfind : (setClaim s g (.opened y (e + quarterLife s))).claims.find g = some ⟨.opened y (e + quarterLife s), m⟩ :=
      find_setClaim_same s hf
    refine ⟨_, by rw [exec_holdOffExpiry s hf, if_pos hle], ?_⟩
    rw [claimOpened_slot (setClaim s g _) g n rec hsel hrec hg, checkPrepared_takeSlot (setClaim s g _) n r rec hr hrec hst]
    have hquick := quick_iff r.kind
    refine ⟨hfind, fun h hh => find_setClaim_other s _ hh, rfl, ?_, ?_, rfl⟩
    · by_cases hset : s.switch = .settled n
      · exact (congrArg Engine.state (if_pos hset)).trans (if_pos hset).symm
      · rw [if_neg hset, if_neg (show (setClaim s g (.opened y (e + quarterLife s))).switch ≠ .settled n from hset)]
        exact hst
    · by_cases hset : s.switch = .settled n
      · exact ⟨_, congrArg Engine.ctx (if_pos hset), rfl, rfl, rfl, rfl, rfl, rfl, rfl, rfl, by rw [← hquick]; rfl⟩
      · exact ⟨_, congrArg Engine.ctx (if_neg hset), rfl, rfl, rfl, rfl, rfl, rfl, rfl, rfl, by rw [← hquick]; rfl⟩
  · have hfind : (setClaim s g (.opened y (e + quarterLife s))).claims.find g = some ⟨.opened y (e + quarterLife s), m⟩ :=
      find_setClaim_same s hf
    refine ⟨_, by rw [exec_holdOffExpiry s hf, if_pos hle], ?_⟩
    have hprepared := checkPrepared_resumed { setClaim s g (.opened y (e + quarterLife s)) with
        sched := { (setClaim s g (.opened y (e + quarterLife s))).sched with selection := none } } c hc hst rfl hres
    rw [claimOpened_save (setClaim s g _) g c hsel hc hg]
    by_cases hset : s.switch = .settled c.span
    · rw [hprepared.trans (if_pos hset), if_pos hset, if_pos hset]
      exact ⟨hfind, rfl, rfl, rfl⟩
    · rw [hprepared.trans (if_neg hset), if_neg hset, if_neg hset]
      refine ⟨hfind, rfl, ?_, rfl⟩
      rw [← hst, ← hc]
      rfl
  · rw [exec_holdRepetition s hf, if_neg (Nat.not_le.2 hlt)]
  · have hclaims : (offer (setClaim s g (.opened y (e + quarterLife s))) y (.hold g y)).claims =
        (setClaim s g (.opened y (e + quarterLife s))).claims := by simp
    refine ⟨_, by rw [exec_holdRepetition s hf, if_pos hle], ?_, fun h hh => ?_, fun h1 h2 h3 => ?_, ?_⟩
    · rw [hclaims]
      exact find_setClaim_same s hf
    · rw [hclaims]
      exact find_setClaim_other s _ hh
    · exact offer_hold (setClaim s g _) y g y h2 h3 h1
    · rw [offer_eq]
      rfl

end Sys2Proof

/-! ## READ-STATUS, READ-RESULT and the layouts of 12.4 and 12.5 -/

namespace Sys2Proof

theorem beBytes_eq_map (n v : Nat) : beBytes n v = (List.range n).map fun i => BitVec.ofNat 8 (v / 256 ^ (n - 1 - i)) := by
  induction n with
  | zero => rfl
  | succ n ih =>
    rw [List.range_succ_eq_map, List.map_cons, List.map_map, beBytes, ih]
    refine congrArg _ (List.map_congr_left fun i hi => ?_)
    have hlt := List.mem_range.1 hi
    rw [Function.comp_apply, show n + 1 - 1 - (i + 1) = n - 1 - i by omega]

end Sys2Proof

namespace Sys2Proof.Machine

-- The kernel checks the lemmas one after another: many at once take a thread each.
set_option Elab.async false

theorem joinFields_eq_flatMap (fs : List (Nat × Nat)) : joinFields fs = fs.flatMap fun f =>
    (List.range f.1).map fun i => BitVec.ofNat 8 (f.2 / 256 ^ (f.1 - 1 - i)) := by
  induction fs with
  | nil => rfl
  | cons f fs ih => rw [joinFields_cons, ih, List.flatMap_cons, beBytes_eq_map]

/-! ### The codes of 12.4 and 12.5 are places in their lists -/

theorem ReplyKind.code_eq (k : ReplyKind) :
    k.code = [ReplyKind.accepted, .refusedState, .refusedParam, .refusedBusy, .refusedEmpty].idxOf k := by cases k <;> rfl

theorem ReqKind.code_eq (k : ReqKind) : k.code = requestNo k := by cases k <;> rfl

theorem EventKind.code_eq (k : EventKind) : k.code = [EventKind.brk, .bend, .reflection, .gain].idxOf k + 1 := by
  cases k <;> rfl

theorem StationState.code_eq (x : StationState) :
    x.code = [StationState.unconfigured, .learning, .running, .halted, .isolated].idxOf x := by cases x <;> rfl

theorem ClockState.code_eq (x : ClockState) : x.code = [ClockState.stopped, .locking, .awake, .dozing].idxOf x := by
  cases x <;> rfl

theorem Phase.code_eq (x : Phase) : x.code = [Phase.outside, .inside].idxOf x := by cases x <;> rfl

theorem EngineState.code_eq (x : EngineState) : x.code = engineNo x := by cases x <;> rfl

theorem LineState.code_eq (x : LineState) :
    x.code = [LineState.passive, .busy, .gap, .idle, .arbitrating, .sending].idxOf x := by cases x <;> rfl

theorem FpState.code_eq (x : FpState) : x.code = [FpState.absent, .writing, .present].idxOf x := by cases x <;> rfl

theorem PresenceState.code_eq (x : PresenceState) :
    x.code = [PresenceState.learning, .running, .dozing, .halted].idxOf x := by cases x <;> rfl

theorem ReportKind.code_eq (k : ReportKind) : k.code = reportNo k := by cases k <;> rfl

/-! ### Flags and signed numbers -/

/-- The flags from bit k on. -/
theorem sum_flags_from (fs : List Bool) (k : Nat) :
    ((fs.zipIdx k).map fun e => if e.1 then 2 ^ e.2 else 0).sum = 2 ^ k * flagsByte fs := by
  induction fs generalizing k with
  | nil => rfl
  | cons b fs ih =>
    have hcons : flagsByte (b :: fs) = b.toNat + 2 * flagsByte fs := rfl
    rw [List.zipIdx_cons, List.map_cons, List.sum_cons, ih, hcons, Nat.mul_add, Nat.pow_succ, Nat.mul_assoc]
    cases b <;> simp

theorem flagsByte_eq (fs : List Bool) : flagsByte fs = flagBits fs := by
  rw [flagBits, sum_flags_from, Nat.pow_zero, Nat.one_mul]

theorem signedBytes_two (v : Int) : signedBytes 2 v = beBytes 2 (twosComplement v) := rfl

/-! ### READ-RESULT -/

theorem Event.bytes_eq (e : Event) : e.bytes = joinFields (eventFields e) := by
  simp [Event.bytes, eventFields, EventKind.code_eq, flagsByte_eq, signedBytes_two]

theorem slotBytes_eq (r : Option Request) : slotBytes r = joinFields (slotFields r) := by
  cases r with
  | none => rfl
  | some r => simp [slotBytes, slotFields, ReqKind.code_eq, flagsByte_eq]

theorem latestBytes_eq (l : Option Latest) : latestBytes l = joinFields (latestFields l) := by
  cases l with
  | none => rfl
  | some l => simp [latestBytes, latestFields, ReqKind.code_eq, SweepOutcome.code_eq]

theorem comparisonBytes_eq (c : Option Comparison) : comparisonBytes c = joinFields (comparisonFields c) := by
  cases c with
  | none => exact (joinFields_zeros 97).symm
  | some c =>
    have hevents : c.events.flatMap Event.bytes = joinFields (c.events.flatMap eventFields) := by
      rw [joinFields_flatMap]
      exact congrArg (c.events.flatMap ·) (funext Event.bytes_eq)
    rw [comparisonBytes, comparisonFields, joinFields_append, joinFields_append, joinFields_zeros, ← hevents]
    simp [SweepOutcome.code_eq, flagsByte_eq, signedBytes_two]

theorem alertBit_eq (s : State) (n : Nat) :
    alertBit s n = decide (n ∈ s.alerts.latches ∨ s.alerts.timers.find n ≠ none) := by
  cases h : s.alerts.timers.find n <;> simp [alertBit, Table.has, h]

theorem resultBody_eq (s : State) (n : Nat) (r : ResultRecord) : resultBody s n r = joinFields (resultFields s n r) := by
  have hslot : s.sched.slots.has n = decide (s.sched.slots.find n ≠ none) := by
    cases h : s.sched.slots.find n <;> simp [Table.has, h]
  simp [resultBody, resultFields, slotBytes_eq, latestBytes_eq, comparisonBytes_eq, flagsByte_eq, signedBytes_two, alertBit_eq,
    hslot, FpState.code_eq, isOff]

theorem length_slotBytes (r : Option Request) : (slotBytes r).length = 9 := by
  rw [slotBytes_eq, length_joinFields]
  cases r <;> rfl

theorem length_latestBytes (l : Option Latest) : (latestBytes l).length = 13 := by
  rw [latestBytes_eq, length_joinFields]
  cases l <;> rfl

theorem Event.length_bytes (e : Event) : e.bytes.length = 11 := by
  rw [Event.bytes_eq, length_joinFields]
  rfl

/-- Eight event places of 11 bytes, whatever the number of events in them. -/
theorem length_comparisonBytes {c : Option Comparison} (h : ∀ w, c = some w → w.events.length ≤ 8) :
    (comparisonBytes c).length = 97 := by
  cases c with
  | none => rfl
  | some c =>
    have hle := h c rfl
    have hevents : (c.events.flatMap Event.bytes).length = 11 * c.events.length := by
      rw [List.length_flatMap, List.map_congr_left fun e _ => e.length_bytes, List.map_const', List.sum_replicate,
        Nat.nsmul_eq_mul, Nat.mul_comm]
    simp only [comparisonBytes, signedBytes_two, List.length_append, length_beBytes, List.length_replicate, hevents]
    omega

theorem length_resultBody (s : State) (n : Nat) {r : ResultRecord}
    (h : ∀ w, r.comparison = some w → w.events.length ≤ 8) : (resultBody s n r).length = 125 := by
  simp [resultBody, signedBytes_two, length_slotBytes, length_latestBytes, length_comparisonBytes h]

theorem exec_readResult {s : State} {n : Nat} {c : SpanRecord} {r : ResultRecord} (hlocked : s.port.station ≠ .unconfigured)
    (hc : enabledRec s n = some c) (hr : s.comp.results.find n = some r) :
    exec (.readResult n) s = .next (answer s .accepted (resultBody s n r)) := by
  show Host.Outcome.next _ = _
  rw [if_neg hlocked, hc, hr]

/-! ### READ-STATUS, section by section -/

theorem remaining_eq (s : State) (t : Option Nat) : remaining s t = timeLeft s t := by cases t <;> rfl

theorem stationClock_eq (s : State) : stationBytes s ++ clockBytes s = joinFields (stationClockFields s) := by
  have hlocked : (isLocked s).toNat = if s.port.station = .unconfigured then 0 else 1 := by
    by_cases h : s.port.station = .unconfigured <;> simp [isLocked, h]
  have hdoze : s.clock.dozeExpiry.isSome.toNat = if s.clock.dozeExpiry = none then 0 else 1 := by
    cases s.clock.dozeExpiry <;> rfl
  have hlaser : (s.engine.laserFault.map laserCodeNo).getD 0 = s.engine.laserFault.elim 0 laserNo := by
    cases s.engine.laserFault with
    | none => rfl
    | some c => exact laserCodeNo_eq c
  simp [stationBytes, clockBytes, stationClockFields, StationState.code_eq, ClockState.code_eq, Phase.code_eq, flagsByte_eq,
    remaining_eq, hlocked, hdoze, hlaser]

theorem sweepBytes_eq (c : Option Ctx) : sweepBytes c =
    joinFields [(1, c.elim 0 Ctx.span), (1, c.elim 0 fun c => requestNo c.kind), (1, c.elim 0 Ctx.level)] := by
  cases c with
  | none => rfl
  | some c => simp [sweepBytes, ReqKind.code_eq]

theorem litBytes_eq (c : Option Ctx) : litBytes c = joinFields [(4, c.elim 0 Ctx.litDone)] := by cases c <;> rfl

theorem schedulerEngine_eq (s : State) : schedBytes s ++ engineBytes s = joinFields (schedulerEngineFields s) := by
  have hphase : (s.engine.ctx.map fun c => engineNo c.phase).getD 0 = s.engine.ctx.elim 0 fun c => engineNo c.phase := by
    cases s.engine.ctx <;> rfl
  have hspan : (s.engine.ctx.map (·.span)).getD 0 = s.engine.ctx.elim 0 Ctx.span := by cases s.engine.ctx <;> rfl
  have hwhole : schedBytes s ++ engineBytes s = joinFields
      [(1, s.sched.slots.length), (1, selectionSpan s), (1, s.sched.save.elim 0 Ctx.span),
        (1, s.sched.save.elim 0 fun c => requestNo c.kind), (1, s.sched.save.elim 0 Ctx.level),
        (4, s.sched.save.elim 0 Ctx.litDone), (4, timeLeft s s.sched.resumeExpiry), (1, engineNo s.engine.state),
        (1, s.engine.ctx.elim 0 Ctx.span), (1, s.engine.ctx.elim 0 fun c => requestNo c.kind),
        (1, s.engine.ctx.elim 0 Ctx.level), (1, s.engine.ctx.elim 0 fun c => engineNo c.phase),
        (4, s.engine.ctx.elim 0 Ctx.litDone)] ++ switchBytes s.switch := by
    simp [schedBytes, engineBytes, sweepBytes_eq, litBytes_eq, remaining_eq, EngineState.code_eq, hphase]
  rw [hwhole, schedulerEngineFields, joinFields_append, selectionSpan, hspan]
  refine congr (congrArg _ ?_) ?_
  · cases s.sched.selection with
    | none => rfl
    | some x => cases x <;> rfl
  · cases s.switch <;> rfl

theorem joinFields_bytes (gs : List Nat) : joinFields (gs.map fun g => (1, g)) = gs.flatMap (beBytes 1) := by
  induction gs with
  | nil => rfl
  | cons g gs ih => rw [List.map_cons, joinFields_cons, ih, List.flatMap_cons]

theorem peerBytes_eq (e : Nat × Peer) : peerBytes e = joinFields (peerFields e) := by
  simp [peerBytes, peerFields, joinFields_zeros, joinFields_bytes, PresenceState.code_eq]

theorem line_eq (s : State) : lineBytes s = joinFields (lineFields s) := by
  rw [lineFields, joinFields_append, joinFields_flatMap, ← funext peerBytes_eq]
  simp [lineBytes, queueCount, LineState.code_eq]

theorem claimBytes_eq (s : State) (e : Nat × ClaimEntry) : claimBytes s e = joinFields (claimFields s e) := by
  obtain ⟨g, st, m⟩ := e
  have hmark : m.isSome.toNat = if m = none then 0 else 1 := by cases m <;> rfl
  rw [claimFields, joinFields_append, joinFields_cons, joinFields_cons, joinFields_nil, List.append_nil, ← hmark, claimBytes]
  refine congrArg (· ++ _) (congrArg (beBytes 1 g ++ ·) ?_)
  cases st with
  | claiming l t => cases t <;> rfl
  | _ => rfl

theorem joinedListBytes_eq (j : Table Report) : joinedListBytes j = joinFields (joinedFields j) := by
  have hentry : joinedBytes = fun e : Nat × Report => joinFields [(1, e.1), (1, reportNo e.2.kind), (3, e.2.dist.getD 0)] := by
    funext e
    simp [joinedBytes, ReportKind.code_eq]
  rw [joinedListBytes, joinedFields, joinFields_cons, joinFields_flatMap, hentry]

theorem corrBytes_eq (s : State) (e : Nat × CorrRecord) : corrBytes s e = joinFields (recordFields s e) := by
  obtain ⟨h, c⟩ := e
  rw [recordFields, joinFields_cons, corrBytes]
  refine congrArg (beBytes 1 h ++ ·) ?_
  cases c with
  | idle => rfl
  | opened r =>
    have hreported : r.reported.toNat = if r.reported then 1 else 0 := by cases r.reported <;> rfl
    rw [joinFields_append, ← joinedListBytes_eq]
    simp [ReportKind.code_eq, hreported, idMask_eq, remaining]
    rfl
  | settled r =>
    rw [joinFields_append, ← joinedListBytes_eq]
    simp [ReportKind.code_eq, remaining]
    rfl

theorem statusBody_eq (s : State) : statusBody s = joinFields (statusFields s) := by
  have hclaims : claimsBytes s = joinFields ((1, s.claims.length) :: s.claims.flatMap (claimFields s)) := by
    rw [claimsBytes, joinFields_cons, joinFields_flatMap, ← funext (claimBytes_eq s)]
  have hrounds : roundsBytes s = joinFields ((1, s.corr.length) :: s.corr.flatMap (recordFields s)) := by
    rw [roundsBytes, joinFields_cons, joinFields_flatMap, ← funext (corrBytes_eq s)]
  rw [statusBody, statusFields]
  simp only [joinFields_append, ← hclaims, ← hrounds, ← line_eq, ← schedulerEngine_eq, ← stationClock_eq, List.append_assoc]

end Sys2Proof.Machine

namespace Sys2Proof
open Machine

/-- Settles O12: the two rows, and the bytes of each section against its fields. -/
theorem statusAndResultReads : Obligations.StatusAndResultReads := by
  intro s
  refine ⟨rfl, fun n => ⟨fun h => ?_, fun h hn => ?_, fun c r h hc hr => ⟨exec_readResult h hc hr, length_resultBody s n⟩, ?_,
    fun c r h hc hr => ?_, fun k body => ?_, joinFields_eq_flatMap⟩⟩
  · exact congrArg Host.Outcome.next (if_pos h)
  · show Host.Outcome.next _ = _
    rw [if_neg h, hn]
    rfl
  · rw [← statusBody_eq]
    rfl
  · rw [← resultBody_eq]
    exact exec_readResult h hc hr
  · rw [Reply.bytes, ReplyKind.code_eq, joinFields_cons, joinFields_nil, List.append_nil]

end Sys2Proof

/-! ## READ-TRACE (12.4, R201, R202) -/

namespace Sys2Proof.Machine

-- The kernel checks the lemmas one after another: many at once take a thread each.
set_option Elab.async false

/-! ### The parameters and the bins of a burst -/

/-- The burst kind and group size that check 1 of R201 lets through. -/
abbrev burstKindOk (q : TraceRequest) : Prop := q.burst = 0 ∨ (q.burst = 1 ∧ q.group ∈ [16, 64, 256, 1024])

theorem traceParamsOk_iff (q : TraceRequest) : traceParamsOk q = true ↔
    (q.source = 0 ∨ (q.source = 1 ∧ 1 ≤ q.span ∧ q.span ≤ 48)) ∧ (1 ≤ q.count ∧ q.count ≤ 1024) ∧ burstKindOk q := by
  simp [traceParamsOk, burstKindOk, within_iff, Config.spans, and_assoc]

theorem group_pos {q : TraceRequest} (h : q.group ∈ [16, 64, 256, 1024]) : 0 < q.group := by
  simp only [List.mem_cons, List.not_mem_nil, or_false] at h
  omega

/-- The first bin of a WRAPPED burst's group. -/
theorem groupStart_eq (first group : Nat) : first - first % group = first / group * group := by
  have h := Nat.div_add_mod first group
  rw [Nat.mul_comm] at h
  omega

theorem burstOk_linear {q : TraceRequest} {len : Nat} (hb : q.burst = 0) (h : q.first < len) : burstOk q len = true := by
  simp [burstOk, hb, h]

theorem burstOk_wrapped {q : TraceRequest} {len : Nat} (h : q.first < len) (hc : q.count ≤ q.group)
    (hg : q.first / q.group * q.group + q.group ≤ len) : burstOk q len = true := by
  simp [burstOk, h, hc, groupStart_eq, hg]

theorem burstOk_beyond {q : TraceRequest} {len : Nat} (h : len ≤ q.first) : burstOk q len = false := by
  simp [burstOk, Nat.not_lt.2 h]

theorem burstOk_outOfGroup {q : TraceRequest} {len : Nat} (hb : q.burst = 1)
    (h : q.group < q.count ∨ len < q.first / q.group * q.group + q.group) : burstOk q len = false := by
  rw [← Bool.not_eq_true]
  simp only [burstOk, hb, groupStart_eq, Bool.and_eq_true, Bool.or_eq_true, decide_eq_true_eq]
  omega

theorem burstBins_linear {q : TraceRequest} (len : Nat) (hb : q.burst = 0) :
    burstBins q len = (List.range q.count).map fun i => (q.first + i) % len := if_pos hb

theorem burstBins_wrapped {q : TraceRequest} (len : Nat) (hb : q.burst = 1) : burstBins q len =
    (List.range q.count).map fun i => q.first / q.group * q.group + (q.first % q.group + i) % q.group := by
  have hmod : q.first - q.first / q.group * q.group = q.first % q.group := by
    rw [← groupStart_eq]
    have := Nat.mod_le q.first q.group
    omega
  rw [burstBins, if_neg (by rw [hb]; decide)]
  simp only [groupStart_eq, hmod]

theorem bin_lt_of_linear {q : TraceRequest} {len p : Nat} (hb : q.burst = 0) (h : q.first < len) (hp : p ∈ burstBins q len) :
    p < len := by
  rw [burstBins_linear len hb] at hp
  obtain ⟨i, _, rfl⟩ := List.mem_map.1 hp
  exact Nat.mod_lt _ (by omega)

theorem bin_lt_of_wrapped {q : TraceRequest} {len p : Nat} (hb : q.burst = 1) (hpos : 0 < q.group)
    (hg : q.first / q.group * q.group + q.group ≤ len) (hp : p ∈ burstBins q len) : p < len := by
  rw [burstBins_wrapped len hb] at hp
  obtain ⟨i, _, rfl⟩ := List.mem_map.1 hp
  have := Nat.mod_lt (q.first % q.group + i) hpos
  omega

/-! ### The row, source by source -/

variable (s : State) (q : TraceRequest)

theorem exec_readTrace_refused (h : traceParamsOk q = false) :
    exec (.readTrace q) s = .next (answer s .refusedParam []) := by
  show Host.Outcome.next _ = _
  rw [h]
  rfl

theorem exec_readTrace_result (hsource : q.source = 0) (hcount : 1 ≤ q.count ∧ q.count ≤ 1024) (hkind : burstKindOk q) :
    exec (.readTrace q) s = .next (readResultTrace s q) := by
  show Host.Outcome.next _ = _
  rw [(traceParamsOk_iff q).2 ⟨.inl hsource, hcount, hkind⟩, if_neg (by decide), if_pos hsource]

theorem exec_readTrace_fingerprint (hsource : q.source = 1) (hspan : 1 ≤ q.span ∧ q.span ≤ 48)
    (hcount : 1 ≤ q.count ∧ q.count ≤ 1024) (hkind : burstKindOk q) :
    exec (.readTrace q) s = .next (readFingerprint s q) := by
  show Host.Outcome.next _ = _
  rw [(traceParamsOk_iff q).2 ⟨.inr ⟨hsource, hspan⟩, hcount, hkind⟩, if_neg (by decide), if_neg (by rw [hsource]; decide)]

theorem readResultTrace_busy (h : s.engine.state = .reducing) : readResultTrace s q = answer s .refusedBusy [] := if_pos h

theorem readResultTrace_empty (h : s.engine.state ≠ .reducing) (he : s.trace.state = .empty) :
    readResultTrace s q = answer s .refusedEmpty [] := by
  rw [readResultTrace, if_neg h, he]
  rfl

theorem readResultTrace_valid {d : TraceDesc} (h : s.engine.state ≠ .reducing) (hv : s.trace.state = .valid)
    (hd : s.trace.desc = some d) : readResultTrace s q = if burstOk q d.len then
      answer s .accepted (d.bytes ++ (burstBins q d.len).flatMap fun i => entryBytes (s.trace.entries.getD i noDataEntry))
    else answer s .refusedParam [] := by
  rw [readResultTrace, if_neg h, hv, hd]
  rfl

theorem readFingerprint_writing (h : fpOf s q.span = .writing) : readFingerprint s q = answer s .refusedBusy [] := by
  rw [readFingerprint, h]
  rfl

theorem readFingerprint_absent (h : fpOf s q.span = .absent) : readFingerprint s q = answer s .refusedEmpty [] := by
  rw [readFingerprint, h]
  rfl

theorem readFingerprint_disabled (hn : enabledRec s q.span = none) (h : fpOf s q.span ≠ .writing) :
    readFingerprint s q = answer s .refusedEmpty [] := by
  rw [readFingerprint, hn]
  cases hfp : fpOf s q.span with
  | writing => exact absurd hfp h
  | absent => rfl
  | present => rfl

theorem readFingerprint_present {r : SpanRecord} (hr : enabledRec s q.span = some r) (h : fpOf s q.span = .present) :
    readFingerprint s q = if burstOk q r.len then
      answer s .accepted (beBytes 1 q.span ++ beBytes 2 r.len ++
        (burstBins q r.len).flatMap fun i => entryBytes (readLevel s r i, false))
    else answer s .refusedParam [] := by
  rw [readFingerprint, h, hr]
  rfl

/-- A burst over cells whose contents are known. -/
theorem readFingerprint_known {r : SpanRecord} {v : Nat → Nat} (hr : enabledRec s q.span = some r)
    (h : fpOf s q.span = .present) (hok : burstOk q r.len = true) (hbins : ∀ p ∈ burstBins q r.len, p < r.len)
    (hv : ∀ p, p < r.len → s.store.mem.find (4096 * (r.firstPage + p / 4096) + p % 4096) = some (v p)) :
    readFingerprint s q = answer s .accepted (beBytes 1 q.span ++ beBytes 2 r.len ++
      (burstBins q r.len).flatMap fun i => entryBytes (v i, false)) := by
  have hcell : ∀ p, r.cell p = 4096 * (r.firstPage + p / 4096) + p % 4096 := fun _ => rfl
  have hlevel : ∀ p ∈ burstBins q r.len, entryBytes (readLevel s r p, false) = entryBytes (v p, false) := fun p hp => by
    rw [readLevel, hcell, hv p (hbins p hp)]
    rfl
  rw [readFingerprint_present s q hr h, if_pos hok, List.flatMap_congr hlevel]

/-! ### The layouts -/

theorem TraceDesc.bytes_eq (d : TraceDesc) : d.bytes = joinFields (traceFields d) := by
  have hflag : flagsByte [d.window.isSome] = if d.window = none then 0 else 1 := by cases d.window <;> rfl
  have hfirst : (d.window.getD (0, 0)).1 = d.window.elim 0 Prod.fst := by cases d.window <;> rfl
  have hcount : (d.window.getD (0, 0)).2 = d.window.elim 0 Prod.snd := by cases d.window <;> rfl
  simp [TraceDesc.bytes, traceFields, hflag, hfirst, hcount]

theorem entryBytes_eq {level : Nat} (h : level ≤ 2047) (mark : Bool) :
    entryBytes (level, mark) = joinFields [(2, level + if mark then 32768 else 0)] := by
  rw [joinFields_cons, joinFields_nil, List.append_nil, entryBytes, Nat.mod_eq_of_lt (Nat.lt_succ_of_le h)]

end Sys2Proof.Machine

namespace Sys2Proof
open Machine

/-- Settles O14: the parameters, then the source's state, then the burst. -/
theorem readTraceReturnsTheBurst : Obligations.ReadTraceReturnsTheBurst := by
  intro s q
  refine ⟨fun hbad => ?_, fun hsource h1 h2 hkind => ?_, fun hsource hs1 hs2 h1 h2 hkind => ?_, TraceDesc.bytes_eq,
    fun level mark h => entryBytes_eq h mark⟩
  · refine exec_readTrace_refused s q ?_
    rw [← Bool.not_eq_true, traceParamsOk_iff]
    rintro ⟨hsource, hcount, hkind⟩
    rcases hbad with h | h | h | h | h | ⟨hb, hg⟩
    · omega
    · omega
    · omega
    · omega
    · rcases hkind with hk | hk <;> omega
    · rcases hkind with hk | hk
      · omega
      · exact hg hk.2
  · rw [exec_readTrace_result s q hsource ⟨h1, h2⟩ hkind]
    refine ⟨fun h => by rw [readResultTrace_busy s q h], fun h he => by rw [readResultTrace_empty s q h he],
      fun d h hv hd => ?_⟩
    rw [readResultTrace_valid s q h hv hd]
    refine ⟨fun hf => ?_, fun hf hb => ?_, fun hf hb hc hg => ?_, fun hb hbad => ?_⟩
    · rw [burstOk_beyond hf]
      rfl
    · rw [burstOk_linear hb hf, if_pos rfl, burstBins_linear d.len hb, List.flatMap_map]
      rfl
    · rw [burstOk_wrapped hf hc hg, if_pos rfl, burstBins_wrapped d.len hb, List.flatMap_map]
      rfl
    · rw [burstOk_outOfGroup hb hbad]
      rfl
  · rw [exec_readTrace_fingerprint s q hsource ⟨hs1, hs2⟩ ⟨h1, h2⟩ hkind]
    refine ⟨fun h => by rw [readFingerprint_writing s q h], fun h => by rw [readFingerprint_absent s q h],
      fun hn h => by rw [readFingerprint_disabled s q hn h], fun r hr hp => ⟨fun hf => ?_, fun hb hbad => ?_,
      fun v hf hv => ⟨fun hb => ?_, fun hb hc hg => ?_⟩⟩⟩
    · rw [readFingerprint_present s q hr hp, burstOk_beyond hf]
      rfl
    · rw [readFingerprint_present s q hr hp, burstOk_outOfGroup hb hbad]
      rfl
    · rw [readFingerprint_known s q hr hp (burstOk_linear hb hf) (fun p => bin_lt_of_linear hb hf) hv,
        burstBins_linear r.len hb, List.flatMap_map]
    · have hpos : 0 < q.group := group_pos (hkind.resolve_left (by omega)).2
      rw [readFingerprint_known s q hr hp (burstOk_wrapped hf hc hg) (fun p => bin_lt_of_wrapped hb hpos hg) hv,
        burstBins_wrapped r.len hb, List.flatMap_map]

end Sys2Proof

/-! ## SWEEP, requests and the host's fingerprint loads -/

namespace Sys2Proof.Machine

-- The kernel checks the lemmas one after another: many at once take a thread each.
set_option Elab.async false

variable (s : State)

/-! ### Requests (R41, R48, R49) -/

/-- An enabled span in service: its requests are raised. -/
abbrev State.inService (n : Nat) : Prop := isEnabled s n = true ∧ n ∉ s.sched.off

theorem raise_empty {n : Nat} (h : s.inService n) (hslot : s.sched.slots.find n = none) (new : Raised) :
    raise s n new = putSlot s n (new.fill s.clock.tod) := by
  obtain ⟨hen, hoff⟩ := h
  rw [raise, if_neg (by simp [hen, isOff, hoff]), hslot]

theorem raise_pending {n : Nat} {old : Request} (h : s.inService n) (hslot : s.sched.slots.find n = some old) (new : Raised) :
    raise s n new = meet s n old new := by
  obtain ⟨hen, hoff⟩ := h
  rw [raise, if_neg (by simp [hen, isOff, hoff]), hslot]

theorem meet_merges {old : Request} {new : Raised} (ho : old.kind ≠ .baseline) (hn : new.kind ≠ .baseline) (n : Nat) :
    meet s n old new = putSlot s n (mergeRequest old new) := by
  unfold meet
  split
  · next h => exact absurd h hn
  · exact absurd ‹old.kind = .baseline› ho
  · exact absurd ‹old.kind = .baseline› ho
  · exact absurd ‹old.kind = .baseline› ho
  · rfl

theorem meet_raisesLevel {old : Request} {new : Raised} (ho : old.kind = .baseline) (hn : new.kind = .routine ∨ new.kind = .host)
    (n : Nat) : meet s n old new = putSlot s n { old with level := max old.level new.level } := by
  unfold meet
  rw [ho]
  rcases hn with h | h <;> rw [h]

theorem meet_replaces {old : Request} {new : Raised} (ho : old.kind = .baseline) (hn : new.kind = .confirm ∨ new.kind = .alert)
    (n : Nat) : meet s n old new =
      post (putSlot s n (replaceBaseline old new s.clock.tod)) (.baselineCancelled n (replacedBy new.kind)) := by
  unfold meet
  rw [ho]
  rcases hn with h | h <;> rw [h]

/-- The kind of a merged request is the higher of the two (R48). -/
theorem mergeRequest_kind (old : Request) (new : Raised) :
    (mergeRequest old new).kind = if old.kind.rank < new.kind.rank then new.kind else old.kind := rfl

/-! ### SWEEP (R43) -/

theorem isWorking_iff : isWorking s = true ↔ s.port.station ≠ .unconfigured ∧ s.port.station ≠ .isolated := by simp [isWorking]

theorem isWorking_false (h : s.port.station = .unconfigured ∨ s.port.station = .isolated) : isWorking s = false := by
  rw [← Bool.not_eq_true, isWorking_iff]
  rintro ⟨h1, h2⟩
  exact h.elim h1 h2

/-- The span of a SWEEP passes check 2 of R43. -/
abbrev State.sweepable (n : Nat) : Prop := (1 ≤ n ∧ n ≤ 48) ∧ s.inService n

theorem exec_sweep_badSpan {n k l : Nat} (hw : isWorking s = true) (h : ¬ s.sweepable n) :
    exec (.sweep n k l) s = .next (answer s .refusedParam []) := by
  show Host.Outcome.next _ = _
  rw [hw, if_neg (by decide), if_pos]
  · rfl
  · have hcheck : (within 1 Config.spans n && isEnabled s n && !isOff s n) = true ↔ s.sweepable n := by
      simp [within_iff, isOff, Config.spans, and_assoc]
    rw [← hcheck] at h
    rw [Bool.not_eq_true] at h
    have hnot := congrArg (! ·) h
    simpa using hnot

theorem exec_sweep {n k l : Nat} (hw : isWorking s = true) (h : s.sweepable n) : exec (.sweep n k l) s = .next
    (match sweepKindOf k with
     | none => answer s .refusedParam []
     | some kind =>
       if !within 0 3 l then answer s .refusedParam []
       else if decide (kind = .baseline) && s.sched.slots.has n then answer s .refusedBusy []
       else answer (settleSelect (raise s n ⟨kind, l, none, none⟩)) .accepted []) := by
  obtain ⟨hin, hen, hoff⟩ := h
  show Host.Outcome.next _ = _
  rw [hw, if_neg (by decide), if_neg]
  · rfl
  · simp [(within_iff _ _ _).2 hin, Config.spans, hen, isOff, hoff]

theorem sweepKindOf_none {k : Nat} (h2 : k ≠ 2) (h5 : k ≠ 5) : sweepKindOf k = none := by
  unfold sweepKindOf
  split
  · exact absurd rfl h2
  · exact absurd rfl h5
  · rfl

/-- A SWEEP that passes every check of R43. -/
theorem exec_sweep_accepted {n k l : Nat} {kind : ReqKind} (hw : isWorking s = true) (h : s.sweepable n)
    (hk : sweepKindOf k = some kind) (hl : l ≤ 3) (hslot : kind = .baseline → s.sched.slots.find n = none) :
    exec (.sweep n k l) s = .next (answer (settleSelect (raise s n ⟨kind, l, none, none⟩)) .accepted []) := by
  rw [exec_sweep s hw h, hk]
  have hlevel : within 0 3 l = true := (within_iff _ _ _).2 ⟨Nat.zero_le l, hl⟩
  have hfree : (decide (kind = .baseline) && s.sched.slots.has n) = false := by
    by_cases hb : kind = .baseline
    · simp [hb, Table.has, hslot hb]
    · simp [hb]
  simp only [hlevel, hfree]
  rfl

/-! ### Host loads (R14 to R16) -/

theorem fpOf_setFp_load (n m : Nat) (st : FpState) (t : State) (h : t.store.fp = (setFp s n st).store.fp) :
    fpOf t m = if m = n then st else fpOf s m := by
  rw [← fpOf_setFp, fpOf, fpOf, h]

theorem retainsSpan_iff (r : SpanRecord) : s.cfg.block.retainsSpan r = true ↔
    ∀ p ∈ r.pages, s.cfg.block.retention.getLsbD (p / 16) = true := by
  simp [StationBlock.retainsSpan, StationBlock.retains, bankOf, Config.bankPages]

theorem anyWriting_iff : anyWriting s = true ↔ ∃ m, (m, FpState.writing) ∈ s.store.fp := by
  simp only [anyWriting, List.any_eq_true, decide_eq_true_eq]
  exact ⟨fun ⟨⟨m, st⟩, hm, (hst : st = .writing)⟩ => ⟨m, hst ▸ hm⟩, fun ⟨m, hm⟩ => ⟨(m, .writing), hm, rfl⟩⟩

theorem inSweep_iff (n : Nat) : inSweep s n = true ↔ engineSpan s = some n ∨ ctxIs s.sched.save n = true := by
  simp [inSweep]

/-- FP-BEGIN of an enabled span: the checks 3 and 4 of R14, then the load opens. -/
theorem exec_fpBegin {n : Nat} {r : SpanRecord} (hlocked : s.port.station ≠ .unconfigured) (hn : 1 ≤ n ∧ n ≤ 48)
    (hr : enabledRec s n = some r) : exec (.fpBegin n) s = .next
      (if decide (s.clock.state = .dozing) && !s.cfg.block.retainsSpan r then answer s .refusedState []
       else if anyWriting s || inSweep s n then answer s .refusedBusy []
       else answer (settle (openLoad s n)) .accepted []) := by
  show Host.Outcome.next _ = _
  rw [if_neg hlocked, (within_iff 1 Config.spans n).2 hn, if_neg (by decide), hr]
  rfl

theorem openLoad_store (n : Nat) : (openLoad s n).store = { s.store with
    dir := s.store.dir.filter fun e => decide (e.2.owner ≠ n), fp := s.store.fp.put n .writing, load := some ⟨n, 0⟩ } := rfl

theorem openLoad_eq (n : Nat) : openLoad s n = { s with
    store := (openLoad s n).store, comp := { s.comp with results := (openLoad s n).comp.results } } := rfl

theorem openLoad_results (n m : Nat) : (openLoad s n).comp.results.find m =
    if m = n then (s.comp.results.find n).map fun x => { x with held := none } else s.comp.results.find m := by
  have hfind := Table.find_adjust (fun x : ResultRecord => { x with held := none }) s.comp.results n m
  by_cases h : m = n
  · subst h
    rwa [if_pos rfl] at hfind ⊢
  · rwa [if_neg h] at hfind ⊢

theorem loadFor_some {n k : Nat} {r : SpanRecord} (hl : s.store.load = some ⟨n, k⟩) (hr : enabledRec s n = some r) :
    loadFor s n = some (⟨n, k⟩, r) := by
  rw [loadFor, hl, hr]
  exact if_pos rfl

theorem loadFor_none {n : Nat} (h : ∀ k, s.store.load ≠ some ⟨n, k⟩) : loadFor s n = none := by
  rw [← Option.not_isSome_iff_eq_none]
  intro hsome
  obtain ⟨⟨⟨m, k⟩, r⟩, hl⟩ := Option.isSome_iff_exists.1 hsome
  obtain ⟨hload, _, hm⟩ := loadFor_eq_some.1 hl
  cases hm
  exact h k hload

theorem badBlock_iff (l : Load) (r : SpanRecord) (vs : List Nat) : badBlock l r vs = true ↔
    vs = [] ∨ 1024 < vs.length ∨ (∃ v ∈ vs, 1806 < v) ∨ r.len < l.count + vs.length := by
  have hsize : (!within 1 1024 vs.length) = true ↔ vs = [] ∨ 1024 < vs.length := by
    rw [Bool.not_eq_true', ← Bool.not_eq_true, within_iff, ← List.length_eq_zero_iff]
    omega
  have hlevel : (vs.any fun v => decide (Config.maxLevel < v)) = true ↔ ∃ v ∈ vs, 1806 < v :=
    List.any_eq_true.trans (exists_congr fun _ => and_congr_right fun _ => decide_eq_true_iff)
  simp only [badBlock, Bool.or_eq_true, hsize, hlevel, decide_eq_true_iff, or_assoc]

/-- The cells of an accepted block, one by one (R2, R15). -/
theorem find_appendBlock_in (l : Load) (r : SpanRecord) {vs : List Nat} {i : Nat} (h : i < vs.length) :
    (appendBlock s l r vs).store.mem.find (r.cell (l.count + i)) = vs[i]? := by
  have hfind := find_writeLevels s r l.count vs (r.cell (l.count + i))
  rw [cell_add] at hfind ⊢
  rw [if_pos (by omega), Nat.add_sub_cancel_left] at hfind
  exact hfind

theorem find_appendBlock_out (l : Load) (r : SpanRecord) {vs : List Nat} {a : Nat}
    (h : ∀ i, i < vs.length → a ≠ r.cell (l.count + i)) : (appendBlock s l r vs).store.mem.find a = s.store.mem.find a := by
  have hfind := find_writeLevels s r l.count vs a
  rw [if_neg] at hfind
  · exact hfind
  · intro ⟨h1, h2⟩
    refine h (a - r.cell l.count) (by omega) ?_
    rw [cell_add]
    omega

/-- The directory entries of a completed load (R16). -/
theorem find_setDir_in (n : Nat) (r : SpanRecord) {o : Nat} (h : o < pageCount r.len) :
    (setDir s n r).store.dir.find (r.firstPage + o) = some ⟨n, o, r.len⟩ := by
  have hfind := Table.find_putRun s.store.dir r.firstPage (r.firstPage + o)
    ((List.range (pageCount r.len)).map fun o => (⟨n, o, r.len⟩ : DirEntry))
  rw [List.length_map, List.length_range, if_pos (by omega), Nat.add_sub_cancel_left, List.getElem?_map,
    List.getElem?_range h] at hfind
  exact hfind

theorem find_setDir_out (n : Nat) (r : SpanRecord) {p : Nat} (h : p < r.firstPage ∨ r.firstPage + pageCount r.len ≤ p) :
    (setDir s n r).store.dir.find p = s.store.dir.find p := by
  have hfind := Table.find_putRun s.store.dir r.firstPage p
    ((List.range (pageCount r.len)).map fun o => (⟨n, o, r.len⟩ : DirEntry))
  rw [List.length_map, List.length_range, if_neg (by omega)] at hfind
  exact hfind

end Sys2Proof.Machine

namespace Sys2Proof
open Machine

/-- Settles O16: the empty slot, the merge, and the two fates of a pending BASELINE. -/
theorem requestsFillOrMerge : Obligations.RequestsFillOrMerge := by
  intro s n new hen hoff
  have hserv : s.inService n := ⟨hen, hoff⟩
  refine ⟨fun hslot => raise_empty s hserv hslot new, fun old hslot ho hn => ?_, fun old hslot ho => ⟨fun hn => ?_, fun hn => ?_⟩⟩
  · refine ⟨mergeRequest old new, ?_, rfl, ?_, ?_, ?_, ?_, fun h => ⟨if_pos h, if_pos h⟩, fun h => ⟨if_neg h, if_neg h⟩, ?_, rfl,
      rfl⟩
    · rw [raise_pending s hserv hslot, meet_merges s ho hn]
      rfl
    · rw [mergeRequest_kind]
      revert ho hn
      cases old.kind <;> cases new.kind <;> decide
    · rw [mergeRequest_kind]
      revert ho hn
      cases old.kind <;> cases new.kind <;> decide
    · rw [mergeRequest_kind]
      revert ho hn
      cases old.kind <;> cases new.kind <;> decide
    · rw [mergeRequest_kind]
      revert ho hn
      cases old.kind <;> cases new.kind <;> decide
    · simp [mergeRequest, and_assoc]
  · rw [raise_pending s hserv hslot, meet_raisesLevel s ho hn]
    rfl
  · rw [raise_pending s hserv hslot, meet_replaces s ho hn]
    rcases hn with h | h <;> simp only [h] <;> simp [putSlot, replaceBaseline, Raised.fill, replacedBy, h]

/-- Settles O15: the checks of R43 one by one, then the raised request. -/
theorem sweepRaisesARequest : Obligations.SweepRaisesARequest := by
  intro s n k l
  refine ⟨fun h => ?_, fun h1 h2 => ⟨fun hbad => ?_, fun hn1 hn2 hen hoff hl => ?_⟩⟩
  · show Host.Outcome.next _ = _
    rw [isWorking_false s h]
    rfl
  · have hw := (isWorking_iff s).2 ⟨h1, h2⟩
    by_cases hspan : s.sweepable n
    · rw [exec_sweep s hw hspan]
      obtain ⟨hin, hen, hoff⟩ := hspan
      rcases hbad with h | h | h | h | ⟨hk2, hk5⟩ | h
      · omega
      · omega
      · rw [hen] at h; cases h
      · exact absurd h hoff
      · rw [sweepKindOf_none hk2 hk5]
      · have hlevel : within 0 3 l = false := by
          rw [← Bool.not_eq_true, within_iff]
          omega
        cases sweepKindOf k with
        | none => rfl
        | some kind =>
          rw [hlevel]
          rfl
    · exact exec_sweep_badSpan s hw hspan
  · have hw := (isWorking_iff s).2 ⟨h1, h2⟩
    have hspan : s.sweepable n := ⟨⟨hn1, hn2⟩, hen, hoff⟩
    have hhost : k = 2 → exec (.sweep n k l) s =
        .next (answer (settleSelect (raise s n ⟨.host, l, none, none⟩)) .accepted []) := fun hk =>
      exec_sweep_accepted s hw hspan (by rw [hk]; rfl) hl nofun
    have hbase : k = 5 → s.sched.slots.find n = none → exec (.sweep n k l) s =
        .next (answer (settleSelect (raise s n ⟨.baseline, l, none, none⟩)) .accepted []) := fun hk hslot =>
      exec_sweep_accepted s hw hspan (by rw [hk]; rfl) hl fun _ => hslot
    refine ⟨fun r hk hr => ?_, hhost, hbase, fun hk hslot hbusy hawake => ?_⟩
    · have hlevel : within 0 3 l = true := (within_iff _ _ _).2 ⟨Nat.zero_le l, hl⟩
      have htaken : (decide (ReqKind.baseline = .baseline) && s.sched.slots.has n) = true := by simp [Table.has, hr]
      rw [exec_sweep s hw hspan, hk]
      show Host.Outcome.next (if !within 0 3 l then _ else if _ then _ else _) = _
      rw [hlevel, htaken]
      rfl
    · have hexec : exec (.sweep n k l) s = .next (answer (settleSelect
          (raise s n ⟨if k = 2 then .host else .baseline, l, none, none⟩)) .accepted []) := by
        by_cases hk2 : k = 2
        · rw [hhost hk2, if_pos hk2]
        · rw [hbase (hk.resolve_left hk2) hslot, if_neg hk2]
      rw [raise_empty s ⟨hen, hoff⟩ hslot, settleSelect_occupied (putSlot s n _) ⟨hbusy, hawake⟩] at hexec
      refine ⟨_, hexec, rfl, ?_, fun m hm => Table.find_put_other _ _ _ _ hm⟩
      refine (Table.find_put_same _ _ _).trans ?_
      by_cases hk2 : k = 2
      · simp [hk2, Raised.fill]
      · simp [hk2, Raised.fill]

/-- Settles O19: FP-BEGIN, FP-DATA and FP-END, each with its checks in order. -/
theorem hostLoadsReplaceTheFingerprint : Obligations.HostLoadsReplaceTheFingerprint := by
  refine ⟨fun s n => ⟨fun h => congrArg Host.Outcome.next (if_pos h), fun h hbad => ?_, fun r hlocked h1 h2 hr => ?_⟩,
    fun s n vs => ⟨fun h => ?_, fun c r hl hr => ⟨fun hbad => ?_, fun hne hle hlevels hfits => ?_⟩⟩,
    fun s n => ⟨fun h => ?_, fun c r hl hr => ⟨fun hc => ?_, fun hc => ?_⟩⟩⟩
  · show Host.Outcome.next _ = _
    rw [if_neg h]
    by_cases hin : within 1 Config.spans n = true
    · have hnone : enabledRec s n = none := by
        rcases hbad with h | h | h
        · exact absurd ((within_iff _ _ _).1 hin).1 (by omega)
        · exact absurd ((within_iff _ _ _).1 hin).2 (by unfold Config.spans; omega)
        · exact Option.isNone_iff_eq_none.1 (by simpa [isEnabled] using h)
      rw [hin, hnone]
      rfl
    · rw [Bool.not_eq_true] at hin
      rw [hin]
      rfl
  · rw [exec_fpBegin s hlocked ⟨h1, h2⟩ hr]
    refine ⟨fun hdoze ⟨p, hp, hbank⟩ => ?_, fun hstay => ?_⟩
    · have hlost : s.cfg.block.retainsSpan r = false := by
        rw [← Bool.not_eq_true, retainsSpan_iff]
        intro h
        rw [h p hp] at hbank
        cases hbank
      rw [if_pos (by simp [hdoze, hlost])]
    · have hcheck : ¬ (decide (s.clock.state = .dozing) && !s.cfg.block.retainsSpan r) = true := by
        rcases hstay with h | h
        · simp [h]
        · simp [(retainsSpan_iff s r).2 h]
      have hbusy : (anyWriting s || inSweep s n) = true ↔
          (∃ m, (m, FpState.writing) ∈ s.store.fp) ∨ engineSpan s = some n ∨ ctxIs s.sched.save n = true := by
        rw [Bool.or_eq_true, anyWriting_iff, inSweep_iff]
      rw [if_neg hcheck]
      refine ⟨fun h => by rw [if_pos (hbusy.2 h)], fun hw hs hsave => ?_⟩
      have hfree : ¬ (anyWriting s || inSweep s n) = true := by
        rw [hbusy]
        rintro (⟨m, hm⟩ | h | h)
        · exact hw m hm
        · exact hs h
        · rw [hsave] at h; cases h
      refine ⟨_, by rw [if_neg hfree], ?_, ?_, fun m => ?_, ?_⟩
      · simp [answer, openLoad, removeHeld, adjustResult, setFp, clearDir]
      · simp [answer, openLoad_store]
      · simp [answer, openLoad_results]
      · have hkeeps := settle_keeps (openLoad s n)
        rw [openLoad_eq] at hkeeps ⊢
        generalize settle _ = u at *
        cases u
        simp at hkeeps
        simp [answer, hkeeps]
  · show Host.Outcome.next _ = _
    rw [loadFor_none s h]
    rfl
  · show Host.Outcome.next _ = _
    rw [loadFor_some s hl hr]
    exact congrArg Host.Outcome.next (if_pos ((badBlock_iff ⟨n, c⟩ r vs).2 hbad))
  · have hgood : ¬ badBlock ⟨n, c⟩ r vs = true := by
      rw [badBlock_iff]
      rintro (h | h | ⟨v, hv, h⟩ | h)
      · exact hne h
      · exact Nat.not_lt.2 hle h
      · exact Nat.not_lt.2 (hlevels v hv) h
      · exact Nat.not_lt.2 hfits h
    have hexec : exec (.fpData n vs) s = .next (answer (appendBlock s ⟨n, c⟩ r vs) .accepted []) := by
      show Host.Outcome.next _ = _
      rw [loadFor_some s hl hr]
      exact congrArg Host.Outcome.next (if_neg hgood)
    exact ⟨_, hexec, rfl, fun i hi => find_appendBlock_in s ⟨n, c⟩ r hi, fun a ha => find_appendBlock_out s ⟨n, c⟩ r ha⟩
  · show Host.Outcome.next _ = _
    rw [loadFor_none s h]
    rfl
  · have hexec : exec (.fpEnd n) s =
        .next (answer (settleSelect (emptyLoad (setFp (setDir s n r) n .present))) .accepted []) := by
      show Host.Outcome.next _ = _
      rw [loadFor_some s hl hr]
      exact congrArg Host.Outcome.next (if_pos hc)
    refine ⟨_, hexec, ?_, ?_, fun m => ?_, fun o ho => ?_, fun p hp => ?_⟩
    · simp [answer, emptyLoad, setFp, setDir]
    · simp [answer, emptyLoad, setFp, setDir]
    · exact fpOf_setFp_load (setDir s n r) n m .present _ (by simp [answer, emptyLoad])
    · simpa [answer, emptyLoad, setFp] using find_setDir_in s n r ho
    · simpa [answer, emptyLoad, setFp] using find_setDir_out s n r hp
  · have hexec : exec (.fpEnd n) s = .next (answer (settleSelect (emptyLoad (setFp s n .absent))) .refusedParam []) := by
      show Host.Outcome.next _ = _
      rw [loadFor_some s hl hr]
      exact congrArg Host.Outcome.next (if_neg hc)
    refine ⟨_, hexec, ?_, ?_, fun m => ?_⟩
    · simp [answer, emptyLoad, setFp]
    · simp [answer, emptyLoad, setFp]
    · exact fpOf_setFp_load s n m .absent _ (by simp [answer, emptyLoad])

end Sys2Proof

/-! ## Alert inputs (R44 to R46) -/

namespace Sys2Proof.Machine

-- The kernel checks the lemmas one after another: many at once take a thread each.
set_option Elab.async false

variable (s : State)

/-! ### What an assertion does to an EDGE input -/

theorem edgeAssert_none {n : Nat} (h : n ∈ s.alerts.latches ∨ n ∈ s.sched.off) : edgeAssert s n = s := by
  refine if_neg ?_
  rintro ⟨_, hoff, hlatch⟩
  rcases h with h | h
  · exact hlatch h
  · simp [isOff, h] at hoff

/-- The latch is set (R44). -/
def latched (s : State) (n : Nat) : State := { s with alerts := { s.alerts with latches := insertAsc n s.alerts.latches } }

theorem edgeAssert_eq {n : Nat} (hmode : alertModeOfSpan s n = .edge) (hlatch : n ∉ s.alerts.latches) (hoff : n ∉ s.sched.off) :
    edgeAssert s n = raiseAlert (latched s n) n := if_pos ⟨hmode, by simp [isOff, hoff], hlatch⟩

theorem latched_inService {n : Nat} (hmode : alertModeOfSpan s n = .edge) (hoff : n ∉ s.sched.off) : (latched s n).inService n :=
  ⟨isEnabled_of_alertMode (s := s) (by rw [hmode]; decide), hoff⟩

/-- An ALERT merged into a pending request (R48). -/
theorem mergeRequest_alert {old : Request} (h : old.kind ≠ .baseline) (l : Nat) :
    mergeRequest old ⟨.alert, l, none, none⟩ = { old with
      kind := if old.kind = .confirm then .confirm else .alert, level := max old.level l, windowed := false } := by
  obtain ⟨kind, level, windowed, target, round, raised, selected⟩ := old
  cases kind with
  | baseline => exact absurd rfl h
  | _ => rfl

theorem edgeAssert_fills {n : Nat} (hmode : alertModeOfSpan s n = .edge) (hlatch : n ∉ s.alerts.latches) (hoff : n ∉ s.sched.off)
    (hslot : s.sched.slots.find n = none) : edgeAssert s n = putSlot (latched s n) n (alertRequest s n) := by
  rw [edgeAssert_eq s hmode hlatch hoff]
  exact raise_empty (latched s n) (latched_inService s hmode hoff) hslot _

theorem edgeAssert_merges {n : Nat} {old : Request} (hmode : alertModeOfSpan s n = .edge) (hlatch : n ∉ s.alerts.latches)
    (hoff : n ∉ s.sched.off) (hslot : s.sched.slots.find n = some old) (hold : old.kind ≠ .baseline) :
    edgeAssert s n = putSlot (latched s n) n { old with
      kind := if old.kind = .confirm then .confirm else .alert, level := max old.level (alertLevelOf s n), windowed := false } := by
  rw [edgeAssert_eq s hmode hlatch hoff, raiseAlert, raise_pending (latched s n) (latched_inService s hmode hoff) hslot,
    meet_merges _ hold (show ReqKind.alert ≠ .baseline by decide), mergeRequest_alert hold]
  rfl

theorem edgeAssert_replaces {n : Nat} {old : Request} (hmode : alertModeOfSpan s n = .edge) (hlatch : n ∉ s.alerts.latches)
    (hoff : n ∉ s.sched.off) (hslot : s.sched.slots.find n = some old) (hold : old.kind = .baseline) :
    edgeAssert s n = post (putSlot (latched s n) n ⟨.alert, max old.level (alertLevelOf s n), false, none, none, s.clock.tod,
      old.selected⟩) (.baselineCancelled n .replacedByAlert) := by
  rw [edgeAssert_eq s hmode hlatch hoff, raiseAlert, raise_pending (latched s n) (latched_inService s hmode hoff) hslot,
    meet_replaces _ hold (.inr rfl)]
  rfl

/-! ### The rows -/

theorem exec_alertLineAsserted_edge {n : Nat} (h : n ∉ s.alerts.asserted) (hmode : alertModeOfSpan s n = .edge) :
    exec (.alertLineAsserted n) s = .next (settleSelect (edgeAssert (assertLine s n) n)) := by
  show Host.Outcome.next _ = _
  rw [if_neg h, hmode]

theorem exec_alertLineAsserted_level {n : Nat} (h : n ∉ s.alerts.asserted) (hmode : alertModeOfSpan s n = .level) :
    exec (.alertLineAsserted n) s = .next (settleSelect
      (if levelHolds (assertLine s n) n then putSlot (assertLine s n) n (alertRequest s n) else assertLine s n)) := by
  show Host.Outcome.next _ = _
  rw [if_neg h, hmode]
  exact congrArg (fun t => Host.Outcome.next (settleSelect t)) (levelTest_eq (assertLine s n) n)

/-- The re-raise timer has stopped. -/
def timerStopped (s : State) (n : Nat) : State :=
  { s with alerts := { s.alerts with timers := s.alerts.timers.filter fun x => decide (x.1 ≠ n) } }

theorem timerStopped_none (n : Nat) : (timerStopped s n).alerts.timers.find n = none :=
  (Table.find_erase s.alerts.timers n n).trans (if_pos rfl)

theorem exec_reRaiseTimerExpiry {n e : Nat} (h : s.alerts.timers.find n = some e) (hle : e ≤ s.clock.now) :
    exec (.reRaiseTimerExpiry n) s = .next (settleSelect
      (if levelHolds (timerStopped s n) n then putSlot (timerStopped s n) n (alertRequest s n) else timerStopped s n)) := by
  show Host.Outcome.next _ = _
  rw [if_pos (by rw [reRaiseDue, h, isDue_some]; exact decide_eq_true hle)]
  exact congrArg (fun t => Host.Outcome.next (settleSelect t)) (levelTest_eq (timerStopped s n) n)

theorem exec_reRaiseTimerExpiry_notDue {n : Nat} (h : reRaiseDue s n = false) : exec (.reRaiseTimerExpiry n) s = .next s := by
  show Host.Outcome.next _ = _
  rw [h]
  rfl

end Sys2Proof.Machine

namespace Sys2Proof
open Machine

/-- Settles O41: each row is `settleSelect` of what the input's mode raises. -/
theorem alertInputsRaiseAlerts : Obligations.AlertInputsRaiseAlerts := by
  intro s n
  have hedgeNone : n ∉ s.alerts.asserted → alertModeOfSpan s n = .edge → n ∈ s.alerts.latches ∨ n ∈ s.sched.off →
      exec (.alertLineAsserted n) s = .next (settleSelect (assertLine s n)) := fun h hmode hno => by
    rw [exec_alertLineAsserted_edge s h hmode, edgeAssert_none (assertLine s n) hno]
  have hedgeFills : n ∉ s.alerts.asserted → alertModeOfSpan s n = .edge → n ∉ s.alerts.latches → n ∉ s.sched.off →
      s.sched.slots.find n = none → exec (.alertLineAsserted n) s =
        .next (settleSelect (putSlot (latched (assertLine s n) n) n (alertRequest s n))) := fun h hmode hl hoff hslot => by
    rw [exec_alertLineAsserted_edge s h hmode, edgeAssert_fills (assertLine s n) hmode hl hoff hslot]
    rfl
  have hlevel : alertModeOfSpan s n = .level → n ∉ s.sched.off → s.sched.slots.find n = none → ctxIs s.engine.ctx n = false →
      ctxIs s.sched.save n = false → s.alerts.timers.find n = none → levelHolds (assertLine s n) n :=
    fun hmode hoff hslot hctx hsave htimer =>
      ⟨hmode, by simp [assertLine, isOff, hoff], (mem_insertAsc n n _).2 (.inl rfl), hslot, hctx, hsave, htimer⟩
  have hlevelNot : n ∈ s.sched.off ∨ s.sched.slots.find n ≠ none ∨ ctxIs s.engine.ctx n = true ∨
      ctxIs s.sched.save n = true ∨ s.alerts.timers.find n ≠ none → ¬ levelHolds (assertLine s n) n := by
    rintro hbar ⟨_, hoff, _, hslot, hctx, hsave, htimer⟩
    rcases hbar with h | h | h | h | h
    · simp [assertLine, isOff, h] at hoff
    · exact h hslot
    · exact absurd h (by rw [show ctxIs s.engine.ctx n = false from hctx]; decide)
    · exact absurd h (by rw [show ctxIs s.sched.save n = false from hsave]; decide)
    · exact h htimer
  have htimer : alertModeOfSpan s n = .level → n ∈ s.alerts.asserted → n ∉ s.sched.off → s.sched.slots.find n = none →
      ctxIs s.engine.ctx n = false → ctxIs s.sched.save n = false → levelHolds (timerStopped s n) n :=
    fun hmode hin hoff hslot hctx hsave =>
      ⟨hmode, by simp [timerStopped, isOff, hoff], hin, hslot, hctx, hsave, timerStopped_none s n⟩
  have htimerNot : alertModeOfSpan s n ≠ .level ∨ n ∉ s.alerts.asserted ∨ n ∈ s.sched.off ∨ s.sched.slots.find n ≠ none ∨
      ctxIs s.engine.ctx n = true ∨ ctxIs s.sched.save n = true → ¬ levelHolds (timerStopped s n) n := by
    rintro hbar ⟨hmode, hoff, hin, hslot, hctx, hsave, _⟩
    rcases hbar with h | h | h | h | h | h
    · exact h hmode
    · exact h hin
    · simp [timerStopped, isOff, h] at hoff
    · exact h hslot
    · exact absurd h (by rw [show ctxIs s.engine.ctx n = false from hctx]; decide)
    · exact absurd h (by rw [show ctxIs s.sched.save n = false from hsave]; decide)
  refine ⟨fun h => congrArg Host.Outcome.next (if_pos h), fun h hmode => ?_,
    fun h hmode hocc => ⟨fun hl hoff hslot => ?_, fun hno => ?_⟩,
    fun h hmode hocc => ⟨fun hoff hslot hctx hsave ht => ?_, fun hbar => ?_⟩, rfl, fun e he hlt => ?_, fun he => ?_,
    fun e he hle hocc => ⟨fun hmode hin hoff hslot hctx hsave => ?_, fun hbar => ?_⟩,
    fun h hmode => ⟨hedgeNone h hmode, fun hl hoff => ⟨hedgeFills h hmode hl hoff, fun old hslot hold => ?_, fun old hslot hold => ?_⟩⟩,
    fun h hmode => ⟨fun hoff hslot hctx hsave ht => ?_, fun hbar => ?_⟩,
    fun e he hle => ⟨fun hmode hin hoff hslot hctx hsave => ?_, fun hbar => ?_⟩⟩
  · show Host.Outcome.next _ = _
    rw [if_neg h, hmode]
    rfl
  · rw [hedgeFills h hmode hl hoff hslot, settleSelect_occupied (putSlot (latched (assertLine s n) n) n _) hocc]
    rfl
  · rw [hedgeNone h hmode hno, settleSelect_occupied (assertLine s n) hocc]
    rfl
  · rw [exec_alertLineAsserted_level s h hmode, if_pos (hlevel hmode hoff hslot hctx hsave ht),
      settleSelect_occupied (putSlot (assertLine s n) n _) hocc]
    rfl
  · rw [exec_alertLineAsserted_level s h hmode, if_neg (hlevelNot hbar), settleSelect_occupied (assertLine s n) hocc]
    rfl
  · exact exec_reRaiseTimerExpiry_notDue s (by rw [reRaiseDue, he, isDue_some]; exact decide_eq_false (Nat.not_le.2 hlt))
  · exact exec_reRaiseTimerExpiry_notDue s (by rw [reRaiseDue, he]; rfl)
  · rw [exec_reRaiseTimerExpiry s he hle, if_pos (htimer hmode hin hoff hslot hctx hsave),
      settleSelect_occupied (putSlot (timerStopped s n) n _) hocc]
    rfl
  · rw [exec_reRaiseTimerExpiry s he hle, if_neg (htimerNot hbar), settleSelect_occupied (timerStopped s n) hocc]
    rfl
  · rw [exec_alertLineAsserted_edge s h hmode, edgeAssert_merges (assertLine s n) hmode hl hoff hslot hold]
    rfl
  · rw [exec_alertLineAsserted_edge s h hmode, edgeAssert_replaces (assertLine s n) hmode hl hoff hslot hold]
    rfl
  · rw [exec_alertLineAsserted_level s h hmode, if_pos (hlevel hmode hoff hslot hctx hsave ht)]
    rfl
  · rw [exec_alertLineAsserted_level s h hmode, if_neg (hlevelNot hbar)]
    rfl
  · rw [exec_reRaiseTimerExpiry s he hle, if_pos (htimer hmode hin hoff hslot hctx hsave)]
    rfl
  · rw [exec_reRaiseTimerExpiry s he hle, if_neg (htimerNot hbar)]
    rfl

end Sys2Proof

/-! ## The quiet window (R30 to R33, R63) -/

namespace Sys2Proof.Machine

-- The kernel checks the lemmas one after another: many at once take a thread each.
set_option Elab.async false

variable (s : State)

/-! ### The clock unit at the end of a row -/

/-- What `select` can do. -/
theorem select_cases : select s = s ∨ (∃ c, s.sched.save = some c ∧ select s = beginResume s c) ∨
    ∃ n l, select s = beginSlot s n l := by
  unfold select
  split
  · exact .inl rfl
  · split
    · next hc _ _ =>
      split
      · exact .inr (.inl ⟨_, hc, rfl⟩)
      · exact .inr (.inr ⟨_, _, rfl⟩)
    · next hc _ _ => exact .inr (.inl ⟨_, hc, rfl⟩)
    · exact .inr (.inr ⟨_, _, rfl⟩)
    · exact .inl rfl

theorem beginSlot_clock (n l : Nat) : (beginSlot s n l).clock = { s.clock with dozeExpiry := none } := by
  unfold beginSlot
  split <;> simp [adjustSlot, stopDoze]

theorem beginResume_clock (c : Ctx) : (beginResume s c).clock = { s.clock with dozeExpiry := none } := by
  unfold beginResume
  split <;> simp [stopDoze]

/-- Selection stops the doze timer at most. -/
theorem select_clock : (select s).clock = { s.clock with dozeExpiry := (select s).clock.dozeExpiry } := by
  rcases select_cases s with h | ⟨c, _, h⟩ | ⟨n, l, h⟩
  · rw [h]
  · rw [h, beginResume_clock]
  · rw [h, beginSlot_clock]

theorem refreshDoze_clock : (refreshDoze s).clock = { s.clock with dozeExpiry := (refreshDoze s).clock.dozeExpiry } := by
  unfold refreshDoze
  split
  · split <;> rfl
  · rfl

/-- With the clock unit not dozing, the end of a row changes the doze timer at most in the clock, and no peer. -/
theorem settle_clock (h : s.clock.state ≠ .dozing) :
    (settle s).clock = { s.clock with dozeExpiry := (settle s).clock.dozeExpiry } ∧ (settle s).peers = s.peers ∧
    (settle s).line = s.line := by
  rw [settle_quiet s (.inl h)]
  exact ⟨refreshDoze_clock s, by simp, by simp⟩

theorem settleSelect_clock (h : s.clock.state ≠ .dozing) :
    (settleSelect s).clock = { s.clock with dozeExpiry := (settleSelect s).clock.dozeExpiry } ∧
    (settleSelect s).peers = s.peers := by
  have hsel := select_clock s
  obtain ⟨hclock, hpeers, _⟩ := settle_clock (select s) (by rw [hsel]; exact h)
  exact ⟨by rw [settleSelect, hclock, hsel], by rw [settleSelect, hpeers]; simp⟩

/-! ### Notices -/

theorem post_eq (b : NoticeBody) : post s b = { s with notices := (post s b).notices } := by
  unfold post
  split <;> rfl

/-- A notice depends on the FIFO and the time of day only. -/
theorem post_same {s t : State} (hn : t.notices = s.notices) (ht : t.clock.tod = s.clock.tod) (b : NoticeBody) :
    post t b = { t with notices := (post s b).notices } := by
  unfold post
  rw [hn, ht]
  split <;> rfl

/-! ### The phase (R29) -/

theorem phaseAt_inside (b : StationBlock) (t : Nat) : phaseAt b t = .inside ↔
    (b.quietStart < b.quietEnd ∧ b.quietStart * 60000 ≤ t ∧ t < b.quietEnd * 60000) ∨
    (b.quietEnd < b.quietStart ∧ (b.quietStart * 60000 ≤ t ∨ t < b.quietEnd * 60000)) := by
  simp only [phaseAt]
  split
  · simp only [reduceCtorEq, false_iff]
    omega
  · split
    · split
      · simp only [true_iff]
        omega
      · simp only [reduceCtorEq, false_iff]
        omega
    · split
      · simp only [true_iff]
        omega
      · simp only [reduceCtorEq, false_iff]
        omega

/-! ### ROUTINE requests raised together (R42, R48) -/

/-- What a level-0 ROUTINE leaves in a slot: it fills an empty one, takes the windowed mark from a request it is merged
into, and does nothing to a BASELINE. -/
def withRoutine (tod : Nat) : Option Request → Request
  | none => ⟨.routine, 0, false, none, none, tod, false⟩
  | some old => if old.kind = .baseline then old else { old with windowed := false }

theorem withRoutine_again (tod : Nat) (r : Option Request) : withRoutine tod (some (withRoutine tod r)) = withRoutine tod r := by
  cases r with
  | none => rfl
  | some old =>
    by_cases h : old.kind = .baseline
    · rw [show withRoutine tod (some old) = old from if_pos h]
      exact if_pos h
    · rw [show withRoutine tod (some old) = { old with windowed := false } from if_neg h]
      exact if_neg h

theorem mergeRequest_routine (old : Request) :
    mergeRequest old ⟨.routine, 0, none, none⟩ = { old with windowed := false } := by
  simp [mergeRequest, ReqKind.rank]

theorem raiseRoutine_eq (n : Nat) : raiseRoutine s n =
    if s.inService n then putSlot s n (withRoutine s.clock.tod (s.sched.slots.find n)) else s := by
  by_cases h : s.inService n
  · rw [if_pos h, raiseRoutine]
    cases hslot : s.sched.slots.find n with
    | none => rw [raise_empty s h hslot]; rfl
    | some old =>
      rw [raise_pending s h hslot]
      by_cases hold : old.kind = .baseline
      · rw [meet_raisesLevel s hold (.inl rfl), withRoutine, if_pos hold]
        simp
      · rw [meet_merges s hold (show ReqKind.routine ≠ .baseline by decide), mergeRequest_routine, withRoutine, if_neg hold]
  · have hbar : (!isEnabled s n || isOff s n) = true := by
      by_cases hen : isEnabled s n = true
      · simpa [hen, isOff] using fun hoff => h ⟨hen, hoff⟩
      · simp [hen]
    rw [if_neg h, raiseRoutine, raise, if_pos hbar, if_neg nofun]

/-- Level-0 ROUTINEs of several spans. -/
theorem foldl_raiseRoutine : ∀ (l : List Nat) (s : State), ∃ slots,
    l.foldl raiseRoutine s = { s with sched := { s.sched with slots := slots } } ∧
    ∀ n, slots.find n = if n ∈ l ∧ s.inService n then some (withRoutine s.clock.tod (s.sched.slots.find n))
      else s.sched.slots.find n
  | [], s => ⟨s.sched.slots, rfl, fun n => by simp⟩
  | m :: l, s => by
    obtain ⟨slots, hfold, hfind⟩ := foldl_raiseRoutine l (raiseRoutine s m)
    rw [List.foldl_cons, hfold]
    rw [raiseRoutine_eq] at hfind ⊢
    by_cases hm : s.inService m
    · rw [if_pos hm] at hfind ⊢
      refine ⟨slots, rfl, fun n => ?_⟩
      have hslot : (putSlot s m (withRoutine s.clock.tod (s.sched.slots.find m))).sched.slots.find n =
          if n = m then some (withRoutine s.clock.tod (s.sched.slots.find m)) else s.sched.slots.find n := Table.find_put ..
      rw [hfind, hslot]
      by_cases hn : n = m
      · subst hn
        rw [if_pos rfl, if_pos (show n ∈ n :: l ∧ s.inService n from ⟨List.mem_cons_self .., hm⟩)]
        split
        · exact congrArg some (withRoutine_again _ _)
        · rfl
      · rw [if_neg hn]
        have hmem : n ∈ m :: l ↔ n ∈ l := by simp [hn]
        simp only [hmem]
        rfl
    · rw [if_neg hm] at hfind ⊢
      refine ⟨slots, rfl, fun n => ?_⟩
      rw [hfind]
      by_cases hn : n = m
      · subst hn
        rw [if_neg fun h => hm h.2, if_neg fun h => hm h.2]
      · have hmem : n ∈ m :: l ↔ n ∈ l := by simp [hn]
        simp only [hmem]

/-! ### WINDOW_START -/

/-- The clock as the window opens (R30, R31). -/
def openClock (s : State) : Clock := { s.clock with
  phase := .inside, mask := 0, countdowns := s.clock.countdowns.map (nextCountdown s) }

theorem nextCountdown_eq : nextCountdown s = fun e =>
    (e.1, if e.2 ≤ 1 then ((enabledRec s e.1).map (·.cycle)).getD 0 else e.2 - 1) := by
  funext e
  unfold nextCountdown
  split <;> rfl

theorem mem_dueSpans (n : Nat) : n ∈ dueSpans s ↔ ∃ e ∈ s.clock.countdowns, e.2 ≤ 1 ∧ e.1 = n := by
  simp [dueSpans, Table.keys]

theorem openWindow_eq : ∃ slots, openWindow s =
      stopDoze (wake { s with clock := openClock s, sched := { s.sched with slots := slots } }) ∧
    ∀ n, slots.find n = if n ∈ dueSpans s ∧ s.inService n then some (withRoutine s.clock.tod (s.sched.slots.find n))
      else s.sched.slots.find n := by
  obtain ⟨slots, hfold, hfind⟩ := foldl_raiseRoutine (dueSpans s) { s with clock := openClock s }
  exact ⟨slots, congrArg (fun t => stopDoze (wake t)) hfold, hfind⟩

/-- The whole of `openWindow`, dozing or not. -/
theorem openWindow_facts {slots : Table Request} (h : openWindow s =
      stopDoze (wake { s with clock := openClock s, sched := { s.sched with slots := slots } })) :
    (openWindow s).clock = { openClock s with
      state := if s.clock.state = .dozing then .locking else s.clock.state
      lockExpiry := if s.clock.state = .dozing then some (s.clock.now + 2) else s.clock.lockExpiry, dozeExpiry := none } ∧
    openWindow s = { s with
      clock := (openWindow s).clock, sched := { s.sched with slots := slots }
      peers := (openWindow s).peers, line := (openWindow s).line } ∧
    (s.clock.state ≠ .dozing → (openWindow s).peers = s.peers ∧ (openWindow s).line = s.line) ∧
    (s.clock.state = .dozing → s.port.station ≠ .isolated →
      (openWindow s).peers = { s.peers with presence := some (s.clock.now + 1000) } ∧
      (s.line.state ≠ .passive → (openWindow s).hasFrame 0 (.presence (presenceState { s with
        clock := { s.clock with state := .locking } }) s.cfg.sheathGroups))) := by
  by_cases hdoze : s.clock.state = .dozing
  · rw [wake_dozing { s with clock := openClock s, sched := { s.sched with slots := slots } } hdoze] at h
    rw [h, if_pos hdoze, if_pos hdoze]
    refine ⟨?_, ?_, fun h' => absurd hdoze h', fun _ hiso => ⟨?_, fun hline => ?_⟩⟩
    · simp [stopDoze, woken, after, Config.lockTime, openClock]
    · have hkeeps := offerPresence_keeps (woken { s with clock := openClock s, sched := { s.sched with slots := slots } })
      generalize offerPresence _ = u at hkeeps
      cases u
      simp at hkeeps
      simp [stopDoze, hkeeps, woken]
    · rw [offerPresence_eq (woken { s with clock := openClock s, sched := { s.sched with slots := slots } }) hiso]
      rfl
    · exact offerPresence_hasFrame (woken { s with clock := openClock s, sched := { s.sched with slots := slots } }) hiso hline
  · rw [wake_awake { s with clock := openClock s, sched := { s.sched with slots := slots } } hdoze] at h
    rw [h, if_neg hdoze, if_neg hdoze]
    exact ⟨rfl, rfl, fun _ => ⟨rfl, rfl⟩, fun h' => absurd h' hdoze⟩

theorem exec_windowStart (hphase : s.clock.phase = .outside) (hat : phaseAt s.cfg.block s.clock.tod = .inside) :
    exec .windowStart s = .next (settleSelect (openWindow s)) := by
  refine congrArg Host.Outcome.next (if_pos ?_)
  simp [windowOpens, hphase, hat]

/-! ### WINDOW_END -/

/-- The window is closed: phase and mask (R32). -/
def closeClock (s : State) : Clock := { s.clock with phase := .outside, mask := s.cfg.block.dayFloor }

theorem mem_cancelled (hwf : Table.wf s.sched.slots) (n : Nat) : n ∈ cancelled s ↔
    ∃ r, s.sched.slots.find n = some r ∧ r.kind = .routine ∧ r.selected = false := by
  constructor
  · intro h
    obtain ⟨⟨m, r⟩, he, rfl⟩ := List.mem_map.1 h
    obtain ⟨hmem, hr⟩ := List.mem_filter.1 he
    refine ⟨r, Table.find_of_mem hwf hmem, ?_⟩
    simpa using hr
  · rintro ⟨r, hr, hk, hsel⟩
    refine List.mem_map.2 ⟨(n, r), List.mem_filter.2 ⟨Table.mem_of_find hr, ?_⟩, rfl⟩
    simp [hk, hsel]

theorem cancelled_nodup (hwf : Table.wf s.sched.slots) : (cancelled s).Nodup := by
  have hlt : (cancelled s).Pairwise (· < ·) := Table.wf_filter _ hwf
  exact hlt.imp fun h => Nat.ne_of_lt h

/-- Several cancellations, each span once. -/
theorem foldl_cancelRoutine : ∀ (l : List Nat) (s : State), l.Nodup → ∃ slots results,
    l.foldl cancelRoutine s = { s with
      sched := { s.sched with slots := slots }, comp := { s.comp with results := results } } ∧
    (∀ n, slots.find n = if n ∈ l then none else s.sched.slots.find n) ∧
    ∀ n, results.find n = if n ∈ l then (s.comp.results.find n).map fun x => { x with missed := min 255 (x.missed + 1) }
      else s.comp.results.find n
  | [], s, _ => ⟨s.sched.slots, s.comp.results, rfl, fun n => by simp, fun n => by simp⟩
  | m :: l, s, hnd => by
    obtain ⟨hm, hl⟩ := List.nodup_cons.1 hnd
    obtain ⟨slots, results, hfold, hslots, hresults⟩ := foldl_cancelRoutine l (cancelRoutine s m) hl
    refine ⟨slots, results, by rw [List.foldl_cons, hfold]; rfl, fun n => ?_, fun n => ?_⟩
    · have hstep : (cancelRoutine s m).sched.slots.find n = if n = m then none else s.sched.slots.find n :=
        Table.find_erase s.sched.slots m n
      rw [hslots, hstep]
      by_cases hn : n = m
      · simp [hn]
      · simp [hn]
    · have hstep : (cancelRoutine s m).comp.results.find n = if n = m then
          (s.comp.results.find n).map fun x => { x with missed := min 255 (x.missed + 1) } else s.comp.results.find n :=
        Table.find_adjust (fun x : ResultRecord => { x with missed := min 255 (x.missed + 1) }) s.comp.results m n
      rw [hresults, hstep]
      by_cases hn : n = m
      · subst hn
        simp [hm]
      · simp [hn]

/-- The whole of `closeWindow`: cancellations, the notice, and the ALERTs of the tests. -/
theorem closeWindow_eq (hwf : Table.wf s.sched.slots) : ∃ slots results,
    closeWindow s = { s with
      clock := closeClock s, sched := { s.sched with slots := slots }, comp := { s.comp with results := results }
      notices := (post s (.windowEnd (cancelled s).length)).notices } ∧
    (∀ n, slots.find n = if n ∈ cancelled s then
        (if levelHolds (emptySlotOf s n) n then some (alertRequest s n) else none) else s.sched.slots.find n) ∧
    ∀ n, results.find n = if n ∈ cancelled s then
        (s.comp.results.find n).map fun x => { x with missed := min 255 (x.missed + 1) } else s.comp.results.find n := by
  obtain ⟨slots, results, hfold, hslots, hresults⟩ :=
    foldl_cancelRoutine (cancelled s) { s with clock := closeClock s } (cancelled_nodup s hwf)
  obtain ⟨slots', htests, hfind⟩ := foldl_levelTest (cancelled s) { s with
    clock := closeClock s, sched := { s.sched with slots := slots }, comp := { s.comp with results := results }
    notices := (post s (.windowEnd (cancelled s).length)).notices }
  refine ⟨slots', results, ?_, fun n => ?_, hresults⟩
  · have hcancel : (cancelled s).foldl cancelRoutine (setPhase s .outside) = { s with
        clock := closeClock s, sched := { s.sched with slots := slots }, comp := { s.comp with results := results } } := hfold
    have hpost : post ((cancelled s).foldl cancelRoutine (setPhase s .outside)) (.windowEnd (cancelled s).length) = { s with
        clock := closeClock s, sched := { s.sched with slots := slots }, comp := { s.comp with results := results }
        notices := (post s (.windowEnd (cancelled s).length)).notices } := by
      rw [hcancel]
      refine post_same (s := s) ?_ ?_ _ <;> rfl
    exact (congrArg ((cancelled s).foldl levelTest ·) hpost).trans htests
  · have hslot := hslots n
    rw [hfind]
    by_cases hn : n ∈ cancelled s
    · rw [if_pos hn] at hslot
      have hempty : (emptySlotOf s n).sched.slots.find n = none := (Table.find_erase ..).trans (if_pos rfl)
      have hsame : levelHolds { s with
          clock := closeClock s, sched := { s.sched with slots := slots }, comp := { s.comp with results := results }
          notices := (post s (.windowEnd (cancelled s).length)).notices } n ↔ levelHolds (emptySlotOf s n) n :=
        ⟨fun ⟨h1, h2, h3, _, h5⟩ => ⟨h1, h2, h3, hempty, h5⟩, fun ⟨h1, h2, h3, _, h5⟩ => ⟨h1, h2, h3, hslot, h5⟩⟩
      rw [if_pos hn]
      simp only [hn, true_and, hsame]
      split
      · rfl
      · exact hslot
    · rw [if_neg hn] at hslot ⊢
      rw [if_neg fun h => hn h.1]
      exact hslot

theorem exec_windowEnd (hphase : s.clock.phase = .inside) (hat : phaseAt s.cfg.block s.clock.tod = .outside) :
    exec .windowEnd s = .next (settleSelect (closeWindow s)) := by
  refine congrArg Host.Outcome.next (if_pos ?_)
  simp [windowCloses, hphase, hat]

end Sys2Proof.Machine

namespace Sys2Proof
open Machine

/-- Settles O38: the ROUTINEs raised together, then the wake of a dozing clock unit. -/
theorem windowStartRaisesRoutines : Obligations.WindowStartRaisesRoutines := by
  refine ⟨phaseAt_inside, fun s => ⟨fun h => ?_, fun hphase hat => ?_⟩⟩
  · refine congrArg Host.Outcome.next (if_neg ?_)
    rcases h with h | h <;> simp [windowOpens, h]
  obtain ⟨slots, hopen, hfind⟩ := openWindow_eq s
  have hexec := exec_windowStart s hphase hat
  have hclock : openClock s = { s.clock with
      phase := .inside, mask := 0
      countdowns := s.clock.countdowns.map fun e =>
        (e.1, if e.2 ≤ 1 then ((enabledRec s e.1).map (·.cycle)).getD 0 else e.2 - 1) } := by
    rw [openClock, nextCountdown_eq]
  have hdue : ∀ e ∈ s.clock.countdowns, e.2 ≤ 1 → isEnabled s e.1 = true → e.1 ∉ s.sched.off →
      slots.find e.1 = some (withRoutine s.clock.tod (s.sched.slots.find e.1)) := fun e he hle hen hoff => by
    rw [hfind, if_pos ⟨(mem_dueSpans s e.1).2 ⟨e, he, hle, rfl⟩, hen, hoff⟩]
  have hstay : ∀ n, (isEnabled s n = false ∨ n ∈ s.sched.off ∨ ∀ e ∈ s.clock.countdowns, e.2 ≤ 1 → e.1 ≠ n) →
      slots.find n = s.sched.slots.find n := fun n hn => by
    rw [hfind, if_neg]
    rintro ⟨hin, hen, hoff⟩
    obtain ⟨e, he, hle, hen'⟩ := (mem_dueSpans s n).1 hin
    rcases hn with h | h | h
    · rw [h] at hen; cases hen
    · exact hoff h
    · exact h e he hle hen'
  obtain ⟨hk, hrest, hawake, hdozing⟩ := openWindow_facts s hopen
  rw [hclock] at hk
  have hslots : (openWindow s).sched.slots = slots := by rw [hrest]
  refine ⟨fun hocc => ?_, fun hdoze hiso => ?_, openWindow s, hexec, hk, fun e he hle hen hoff => ⟨fun hslot => ?_,
    fun old hslot hold => ?_, fun old hslot hold => ?_⟩, fun n hn => by rw [hslots, hstay n hn], fun hdoze hrun => ?_, hawake, ?_⟩
  · have hne : s.clock.state ≠ .dozing := by rw [hocc.2]; decide
    rw [if_neg hne, if_neg hne] at hk
    obtain ⟨hpeers, hline⟩ := hawake hne
    have hocc' : (openWindow s).occupied := ⟨by rw [hrest]; exact hocc.1, by rw [hk]; exact hocc.2⟩
    rw [settleSelect_occupied (openWindow s) hocc', hrest, hk, hpeers, hline] at hexec
    exact ⟨_, hexec, rfl, fun e he hle hen hoff hslot => (hdue e he hle hen hoff).trans (by rw [hslot]; rfl), hstay, rfl⟩
  · rw [if_pos hdoze, if_pos hdoze] at hk
    obtain ⟨hclock', hpeers'⟩ := settleSelect_clock (openWindow s) (by rw [hk]; nofun)
    rw [hk] at hclock'
    exact ⟨_, hexec, by rw [hclock'], by rw [hclock'], by rw [hclock'], by rw [hclock'], by rw [hpeers', (hdozing hdoze hiso).1]⟩
  · rw [hslots, hdue e he hle hen hoff, hslot]
    rfl
  · rw [hslots, hdue e he hle hen hoff, hslot, withRoutine, if_neg hold]
  · rw [hslots, hdue e he hle hen hoff, hslot, withRoutine, if_pos hold]
  · obtain ⟨hpeers, hframe⟩ := hdozing hdoze (by rw [hrun]; decide)
    refine ⟨hpeers, fun hline => ?_⟩
    have hpresence := hframe hline
    simpa [presenceState, hrun] using hpresence
  · rw [hslots]
    exact hrest

/-- Settles O39: the cancellations, the notice and the tests, by the spans that `cancelled` lists. -/
theorem windowEndCancelsRoutines : Obligations.WindowEndCancelsRoutines := by
  intro s
  refine ⟨fun h => ?_, fun hphase hat hocc hwf => ?_, fun hphase hat hwf => ?_⟩
  · refine congrArg Host.Outcome.next (if_neg ?_)
    rcases h with h | h <;> simp [windowCloses, h]
  all_goals
    have hexec := exec_windowEnd s hphase hat
    obtain ⟨slots, results, hclose, hslots, hresults⟩ := closeWindow_eq s hwf
    have hcount : (cancelled s).length =
        (s.sched.slots.filter fun e => decide (e.2.kind = .routine) && !e.2.selected).length := List.length_map ..
    have hin : ∀ n r, s.sched.slots.find n = some r → r.kind = .routine → r.selected = false → n ∈ cancelled s :=
      fun n r hr hk hsel => (mem_cancelled s hwf n).2 ⟨r, hr, hk, hsel⟩
    have hraised : ∀ n, n ∈ cancelled s → alertModeOfSpan s n = .level → n ∉ s.sched.off → n ∈ s.alerts.asserted →
        ctxIs s.engine.ctx n = false → ctxIs s.sched.save n = false → s.alerts.timers.find n = none →
        slots.find n = some (alertRequest s n) := fun n hn hmode hoff hline hctx hsave ht => by
      have hholds : levelHolds (emptySlotOf s n) n :=
        ⟨hmode, by simp [emptySlotOf, isOff, hoff], hline, (Table.find_erase ..).trans (if_pos rfl), hctx, hsave, ht⟩
      rw [hslots, if_pos hn, if_pos hholds]
    have hempty : ∀ n, n ∈ cancelled s → (alertModeOfSpan s n ≠ .level ∨ n ∈ s.sched.off ∨ n ∉ s.alerts.asserted ∨
        ctxIs s.engine.ctx n = true ∨ ctxIs s.sched.save n = true ∨ s.alerts.timers.find n ≠ none) →
        slots.find n = none := fun n hn hbar => by
      rw [hslots, if_pos hn, if_neg]
      rintro ⟨hmode, hoff, hline, _, hctx, hsave, ht⟩
      rcases hbar with h | h | h | h | h | h
      · exact h hmode
      · simp [emptySlotOf, isOff, h] at hoff
      · exact h hline
      · exact absurd h (by rw [show ctxIs s.engine.ctx n = false from hctx]; decide)
      · exact absurd h (by rw [show ctxIs s.sched.save n = false from hsave]; decide)
      · exact h ht
    have hother : ∀ n, (∀ r, s.sched.slots.find n = some r → r.kind ≠ .routine ∨ r.selected = true) → n ∉ cancelled s := by
      intro n hn hmem
      obtain ⟨r, hr, hk, hsel⟩ := (mem_cancelled s hwf n).1 hmem
      rcases hn r hr with h | h
      · exact h hk
      · rw [hsel] at h; cases h
    rw [hcount] at hclose
  · rw [settleSelect_occupied (closeWindow s) (by rw [hclose]; exact hocc), hclose] at hexec
    exact ⟨_, hexec, rfl, fun n r hr hk hsel => ⟨fun hmode => hempty n (hin n r hr hk hsel) (.inl hmode),
        hraised n (hin n r hr hk hsel), (hresults n).trans (if_pos (hin n r hr hk hsel))⟩,
      fun n hn => ⟨(hslots n).trans (if_neg (hother n hn)), (hresults n).trans (if_neg (hother n hn))⟩, rfl, rfl⟩
  · refine ⟨_, hexec, ?_⟩
    rw [hclose]
    exact ⟨rfl, fun n r hr hk hsel => ⟨hempty n (hin n r hr hk hsel), hraised n (hin n r hr hk hsel),
        (hresults n).trans (if_pos (hin n r hr hk hsel))⟩,
      fun n hn => ⟨(hslots n).trans (if_neg (hother n hn)), (hresults n).trans (if_neg (hother n hn))⟩, rfl, rfl⟩

end Sys2Proof

/-! ## What reports leave of notices and claim frames, and the end of a sweep (R85) -/

namespace Sys2Proof.Machine

-- The kernel checks the lemmas one after another: many at once take a thread each.
set_option Elab.async false

/-! ### The transmit queue: claim frames and other frames -/

theorem isClaimFrame_of_isClaimOf {g : Nat} {b : FrameBody} (h : isClaimOf g b = true) : isClaimFrame b = true := by
  cases b with
  | claim => rfl
  | _ => cases h

theorem isClaimFrame_of_isHoldOf {g : Nat} {b : FrameBody} (h : isHoldOf g b = true) : isClaimFrame b = true := by
  cases b with
  | hold => rfl
  | _ => cases h

theorem isClaimFrame_of_isReleaseOf {g : Nat} {b : FrameBody} (h : isReleaseOf g b = true) : isClaimFrame b = true := by
  cases b with
  | release => rfl
  | _ => cases h

theorem mem_replaceWaiting_iff {q : List TxFrame} {u : Nat} {b : FrameBody} {x : TxFrame} (hb : isClaimFrame b = false)
    (hx : isClaimFrame x.body = true) : x ∈ replaceWaiting q u b ↔ x ∈ q := by
  have hdiff : sameFrame x.body b = false := by
    rw [← Bool.not_eq_true]
    intro h
    rw [isClaimFrame_of_sameFrame h, hb] at hx
    cases hx
  constructor
  · intro h
    obtain ⟨y, hy, he⟩ := List.mem_map.1 h
    by_cases hsame : sameFrame y.body b = true
    · rw [if_pos hsame] at he
      rw [← he] at hx
      rw [show isClaimFrame b = true from hx] at hb
      cases hb
    · rw [if_neg hsame] at he
      exact he ▸ hy
  · exact fun h => List.mem_map.2 ⟨x, h, if_neg (by rw [hdiff]; decide)⟩

/-- A PRESENCE or FINDING that is offered leaves the waiting claim frames as they are (R138). -/
theorem mem_queueOffer_claimFrame {q : List TxFrame} {f x : TxFrame} (hf : isClaimFrame f.body = false)
    (hx : isClaimFrame x.body = true) : x ∈ queueOffer q f ↔ x ∈ q := by
  have hne : x ≠ f := fun h => by rw [h, hf] at hx; cases hx
  have hinsert : x ∈ insertByAge f q ↔ x ∈ q := (mem_insertByAge f x q).trans (or_iff_right hne)
  unfold queueOffer
  split
  · next hb =>
    split
    · exact mem_replaceWaiting_iff hf hx
    · exact hinsert
  · next hb =>
    split
    · exact mem_replaceWaiting_iff hf hx
    · exact hinsert
  all_goals next hb => rw [hb] at hf; cases hf

theorem makeRoom_keeps {q : List TxFrame} {x : TxFrame} (hx : isClaimFrame x.body = false) (h : x ∈ q) : x ∈ makeRoom q := by
  have hdrop : ∀ p : FrameBody → Bool, (∀ b, p b = true → isClaimFrame b = true) → ∀ l : List TxFrame, x ∈ l → x ∈ dropOldest p l := by
    intro p hp l
    induction l with
    | nil => exact id
    | cons f l ih =>
      intro hmem
      rw [dropOldest]
      by_cases hpf : p f.body = true
      · rw [if_pos hpf]
        rcases List.mem_cons.1 hmem with rfl | hmem
        · rw [hp _ hpf] at hx; cases hx
        · exact hmem
      · rw [if_neg hpf]
        rcases List.mem_cons.1 hmem with rfl | hmem
        · exact List.mem_cons_self ..
        · exact List.mem_cons_of_mem _ (ih hmem)
  unfold makeRoom
  split
  · exact hdrop _ isClaimFrame_of_isRelease q h
  · split
    · exact hdrop _ isClaimFrame_of_isHold q h
    · exact hdrop _ (fun _ => id) q h

/-- A CLAIM that is offered leaves the waiting PRESENCE and FINDINGs where they are (R139). -/
theorem mem_queueOffer_claim {q : List TxFrame} {f x : TxFrame} {g l : Nat} (hf : f.body = .claim g l)
    (hx : isClaimFrame x.body = false) (h : x ∈ q) : x ∈ queueOffer q f := by
  unfold queueOffer
  rw [hf]
  refine (mem_insertByAge _ _ _).2 (.inr ?_)
  split
  · exact makeRoom_keeps hx h
  · exact h

theorem queueOffer_ne_nil (q : List TxFrame) (f : TxFrame) : queueOffer q f ≠ [] := by
  have hinsert : ∀ l : List TxFrame, insertByAge f l ≠ [] := fun l h => by
    have := (mem_insertByAge f f l).2 (.inl rfl)
    rw [h] at this
    cases this
  have hmap : ∀ (p : TxFrame → Bool) (g : TxFrame → TxFrame), q.any p = true → q.map g ≠ [] := fun p g h he => by
    rw [List.map_eq_nil_iff.1 he] at h
    cases h
  unfold queueOffer
  split
  · split
    · next h => exact hmap _ _ h
    · exact hinsert _
  · split
    · next h => exact hmap _ _ h
    · exact hinsert _
  · exact hinsert _
  · split
    · next h => exact hmap _ _ h
    · split
      · next h => exact hmap _ _ h
      · exact hinsert _
  · exact hinsert _

/-! ### The line after an offer -/

variable (s : State)

/-- An attempt starts at once when the unit is IDLE (R134): after an offer it is not. -/
theorem offer_busy (u : Nat) (b : FrameBody) (h : s.onLine) : (offer s u b).line.state ≠ .idle := by
  unfold offer
  rw [if_pos (by simp [canSend, h.1, h.2])]
  unfold startAttempt
  split
  · split
    · next hq => exact absurd (queueHead_eq_none hq) (queueOffer_ne_nil _ _)
    · exact nofun
  · next hno =>
    intro (hidle : s.line.state = .idle)
    refine hno ?_
    simp [canSend, hidle, h.2]

theorem startAttempt_live (h : s.line.state ≠ .passive) : (startAttempt s).line.state ≠ .passive := by
  unfold startAttempt
  split
  · split
    · exact h
    · exact nofun
  · exact h

theorem offer_live (u : Nat) (b : FrameBody) (h : s.line.state ≠ .passive) : (offer s u b).line.state ≠ .passive := by
  unfold offer
  split
  · exact startAttempt_live { s with line := { s.line with
      queue := queueOffer s.line.queue ⟨s.line.nextAge, u, b⟩, nextAge := s.line.nextAge + 1 } } h
  · exact h

/-- With the unit not IDLE an offer changes queue and next age alone. -/
theorem offer_line_busy (u : Nat) (b : FrameBody) (h : s.line.state ≠ .idle) : (offer s u b).line = if s.onLine then
    { s.line with queue := queueOffer s.line.queue ⟨s.line.nextAge, u, b⟩, nextAge := s.line.nextAge + 1 } else s.line := by
  by_cases hon : s.onLine
  · rw [if_pos hon, offer_line s u b hon.1 hon.2 h]
  · rw [if_neg hon, offer_discarded s u b (by by_contra hno; exact hon (not_or.1 hno))]

/-- A frame that waits or is in the attempt after an attempt may have started did so before. -/
theorem startAttempt_all {x : TxFrame} (h : x ∈ (startAttempt s).line.queue ++ (startAttempt s).line.attempt.toList) :
    x ∈ s.line.queue ++ s.line.attempt.toList := by
  unfold startAttempt at h
  split at h
  · split at h
    · exact h
    · next f hq =>
      rcases List.mem_append.1 h with h | h
      · exact List.mem_append_left _ (List.mem_filter.1 h).1
      · obtain rfl : x = f := by simpa using h
        exact List.mem_append_left _ (queueHead_mem hq)
  · exact h

/-! ### Reports: notices, PRESENCE and FINDINGs, and no claim -/

/-- Between s and t the station told the host and its peers something: notices were added at most, PRESENCE and FINDINGs
offered at most, and of the claims nothing changed, neither entries nor waiting frames. -/
structure Reports (s t : State) : Prop where
  claims : t.claims = s.claims
  fifo : s.notices.fifo <+: t.notices.fifo
  busy : s.line.state ≠ .idle → t.line.state ≠ .idle
  live : s.line.state ≠ .passive → t.line.state ≠ .passive
  keeps : s.line.state ≠ .idle → ∀ u b, isClaimFrame b = true → s.hasFrame u b → t.hasFrame u b
  queue : ∀ f ∈ t.line.queue, isClaimFrame f.body = true → f ∈ s.line.queue
  all : ∀ f ∈ t.line.queue ++ t.line.attempt.toList, isClaimFrame f.body = true →
    f ∈ s.line.queue ++ s.line.attempt.toList

namespace Reports

theorem of_eq {s t : State} (claims : t.claims = s.claims := by simp) (notices : t.notices = s.notices := by simp)
    (line : t.line = s.line := by simp) : Reports s t where
  claims := claims
  fifo := by rw [notices]
  busy := by rw [line]; exact id
  live := by rw [line]; exact id
  keeps := fun _ u b _ h => by unfold State.hasFrame; rwa [line]
  queue := fun f hf _ => by rwa [line] at hf
  all := fun f hf _ => by rwa [line] at hf

theorem refl (s : State) : Reports s s := of_eq rfl rfl rfl

theorem trans {s t u : State} (h : Reports s t) (h' : Reports t u) : Reports s u where
  claims := h'.claims.trans h.claims
  fifo := h.fifo.trans h'.fifo
  busy := h'.busy ∘ h.busy
  live := h'.live ∘ h.live
  keeps := fun hb n b hc hf => h'.keeps (h.busy hb) n b hc (h.keeps hb n b hc hf)
  queue := fun f hf hc => h.queue f (h'.queue f hf hc) hc
  all := fun f hf hc => h.all f (h'.all f hf hc) hc

theorem foldl {α : Type} {f : State → α → State} (hf : ∀ t a, Reports t (f t a)) :
    ∀ (l : List α) (s : State), Reports s (l.foldl f s)
  | [], s => refl s
  | a :: l, s => (hf s a).trans (foldl hf l _)

theorem ite {p : Prop} [Decidable p] {s t u : State} (ht : p → Reports s t) (hu : ¬ p → Reports s u) :
    Reports s (if p then t else u) := by
  split
  · exact ht ‹_›
  · exact hu ‹_›

variable (s : State)

theorem post (b : NoticeBody) : Reports s (post s b) where
  __ := of_eq (s := s) (t := { Machine.post s b with notices := s.notices })
  fifo := by
    unfold Machine.post
    split
    · exact List.prefix_append ..
    · exact List.prefix_rfl
  busy := by simp
  live := by simp
  keeps := fun _ u b _ h => by simpa [State.hasFrame] using h
  queue := fun f hf _ => by simpa using hf
  all := fun f hf _ => by simpa using hf

theorem postAll (bs : List NoticeBody) : Reports s (postAll s bs) := foldl post bs s

theorem offer {u : Nat} {b : FrameBody} (hb : isClaimFrame b = false) : Reports s (offer s u b) where
  claims := by simp
  fifo := by simp
  busy := fun h => by
    rw [offer_line_busy s u b h]
    split <;> exact h
  live := offer_live s u b
  keeps := fun h n d hd ⟨f, hf, hu, hfd⟩ => by
    refine ⟨f, ?_, hu, hfd⟩
    rw [offer_line_busy s u b h]
    split
    · refine List.mem_append.2 ((List.mem_append.1 hf).imp_left fun hq => ?_)
      exact (mem_queueOffer_claimFrame (f := ⟨s.line.nextAge, u, b⟩) hb (hfd ▸ hd)).2 hq
    · exact hf
  queue := fun f hf hc => by
    unfold Machine.offer at hf
    split at hf
    · exact (mem_queueOffer_claimFrame (f := ⟨s.line.nextAge, u, b⟩) hb hc).1 (startAttempt_queue _ _ hf)
    · exact hf
  all := fun f hf hc => by
    unfold Machine.offer at hf
    split at hf
    · refine List.mem_append.2 ((List.mem_append.1 (startAttempt_all _ hf)).imp_left fun hq => ?_)
      exact (mem_queueOffer_claimFrame (f := ⟨s.line.nextAge, u, b⟩) hb hc).1 hq
    · exact hf

theorem offerFinding (h : Nat) (rep : Report) : Reports s (offerFinding s h rep) := offer s rfl

theorem offerPresence : Reports s (offerPresence s) := by
  refine ite (fun _ => refl s) fun _ => ?_
  refine Reports.trans ?_ (offer _ rfl)
  exact of_eq rfl rfl rfl

theorem wake : Reports s (wake s) := by
  refine ite (fun _ => ?_) fun _ => refl s
  refine Reports.trans ?_ (offerPresence _)
  exact of_eq rfl rfl rfl

theorem announce : Reports s (announce s) := ite (fun _ => wake s) fun _ => offerPresence s

theorem settle : Reports s (settle s) := by
  refine Reports.trans (t := wakeForCandidate s) (ite (fun _ => wake s) fun _ => refl s) (of_eq (line := ?_))
  exact (refreshDoze_keeps (wakeForCandidate s)).2.2.2.2.2.2.2.2.2.2.2.2.1

/-! #### The corroboration unit -/

theorem putRound (h : Nat) (c : CorrRecord) : Reports s (putRound s h c) := of_eq rfl rfl rfl

theorem issueVerdict (h : Nat) (r : OpenRound) (b : Bool) : Reports s (issueVerdict s h r b) := (post s _).trans (putRound ..)

theorem completionCheck (h : Nat) : Reports s (completionCheck s h) := by
  unfold Machine.completionCheck
  split
  · exact ite (fun _ => issueVerdict ..) fun _ => refl s
  all_goals exact refl s

theorem makeReport (h : Nat) (r : OpenRound) : Reports s (makeReport s h r) :=
  ((offerFinding s _ _).trans (putRound ..)).trans (completionCheck ..)

theorem decideSpan (n : Nat) (t h : Option Nat) (found : Option (List Best)) : Reports s (decideSpan s n t h found) := by
  unfold Machine.decideSpan
  split
  · split
    · exact ite (fun _ => ite (fun _ => makeReport ..) fun _ => putRound ..) fun _ => refl s
    all_goals exact refl s
  · exact refl s

theorem unableRound (h : Nat) : Reports s (unableRound s h) := by
  unfold Machine.unableRound
  split
  · exact ite (fun _ => refl s) fun _ => makeReport ..
  all_goals exact refl s

theorem unableBegins : Reports s (unableBegins s) := foldl unableRound _ s

theorem raise (n : Nat) (r : Raised) : Reports s (raise s n r) := by
  have hmeet : ∀ old, Reports s (meet s n old r) := fun old => by
    unfold meet
    split
    · exact refl s
    · exact of_eq rfl rfl rfl
    · exact of_eq rfl rfl rfl
    · refine Reports.trans ?_ (post _ _)
      exact of_eq rfl rfl rfl
    · exact of_eq rfl rfl rfl
  unfold Machine.raise
  refine ite (fun _ => ite (fun _ => of_eq) fun _ => refl s) fun _ => ?_
  split
  · exact of_eq rfl rfl rfl
  · exact hmeet _

theorem openOwnRound (h n : Nat) (k : ReportKind) (d : Nat) : Reports s (openOwnRound s h n k d) := by
  have hconfirm : ∀ t e, Reports t (ownConfirm h d n t e) := fun t e => ite (fun _ => raise t ..) fun _ => refl t
  refine Reports.trans ?_ (completionCheck ..)
  refine Reports.trans ?_ (foldl hconfirm _ _)
  refine Reports.trans ?_ (offerFinding ..)
  exact of_eq rfl rfl rfl

/-! #### The end of a sweep -/

theorem writeResult (c : Ctx) (o : SweepOutcome) (l : Nat) : Reports s (writeResult s c o l) := of_eq rfl rfl rfl

theorem confirmReport (c : Ctx) (w : Option Comparison) : Reports s (confirmReport s c w) := by
  unfold Machine.confirmReport
  refine ite (fun _ => ?_) fun _ => refl s
  split
  · exact decideSpan ..
  · exact refl s

theorem findingDecision (c : Ctx) (o : SweepOutcome) (w : Option Comparison) : Reports s (findingDecision s c o w) := by
  unfold Machine.findingDecision
  split
  · refine ite (fun _ => ?_) fun _ => refl s
    split
    · exact openOwnRound ..
    · exact refl s
  · exact refl s

theorem sweepOver (c : Ctx) : Reports s (sweepOver s c) := of_eq

theorem sweepClosed (c : Ctx) (o : SweepOutcome) (pre : List NoticeBody) : Reports s (sweepClosed s c o pre) :=
  ((((writeResult s ..).trans (postAll ..)).trans (confirmReport ..)).trans (findingDecision ..)).trans (sweepOver ..)

theorem endSweep (o : SweepOutcome) (pre : List NoticeBody) : Reports s (endSweep s o pre) := by
  cases hc : s.engine.ctx with
  | none =>
    rw [Machine.endSweep, hc]
    exact refl s
  | some c =>
    rw [endSweep_eq hc]
    exact (sweepClosed s c o pre).trans (of_eq rfl rfl rfl)

theorem endSuspended (o : SweepOutcome) : Reports s (endSuspended s o) := by
  unfold Machine.endSuspended
  split
  · refine Reports.trans ?_ (sweepOver ..)
    refine Reports.trans ?_ (confirmReport ..)
    refine Reports.trans ?_ (post ..)
    exact of_eq rfl rfl rfl
  · exact refl s

end Reports

/-! ### Claims given up or released, and then reports -/

theorem claimFree_of_reports {u v : State} {g : Nat} (h : Reports u v)
    (hq : ∀ f ∈ u.line.queue, isClaimOf g f.body = false ∧ isHoldOf g f.body = false) :
    ∀ f ∈ v.line.queue, isClaimOf g f.body = false ∧ isHoldOf g f.body = false := fun f hf => by
  constructor <;> rw [← Bool.not_eq_true] <;> intro hb
  · rw [(hq f (h.queue f hf (isClaimFrame_of_isClaimOf hb))).1] at hb
    cases hb
  · rw [(hq f (h.queue f hf (isClaimFrame_of_isHoldOf hb))).2] at hb
    cases hb

/-- A claim that is released stays so in the reports that follow (R166). -/
theorem claimReleased_of_reports {s u v : State} {g : Nat} (hrel : claimReleased s u g)
    (hbusy : s.onLine → (∃ l e m, s.claims.find g = some ⟨.opened l e, m⟩) → u.line.state ≠ .idle) (h : Reports u v) :
    claimReleased s v g := by
  obtain ⟨hother, hopen, helse⟩ := hrel
  refine ⟨fun k hk => by rw [h.claims, hother k hk], fun l e m hf => ?_, fun hn => by rw [h.claims, helse hn]⟩
  obtain ⟨hfree, hline⟩ := hopen l e m hf
  refine ⟨by rw [h.claims, hfree], fun hon => ?_⟩
  obtain ⟨hframe, hq⟩ := hline hon
  exact ⟨h.keeps (hbusy hon ⟨l, e, m, hf⟩) _ _ rfl hframe, claimFree_of_reports h hq⟩

theorem releaseClaim_busy {g : Nat} (hon : s.onLine) (h : ∃ l e m, s.claims.find g = some ⟨.opened l e, m⟩) :
    (releaseClaim s g).line.state ≠ .idle := by
  obtain ⟨l, e, m, hf⟩ := h
  rw [releaseClaim, hf]
  exact offer_busy _ _ _ hon

theorem claimReleased_then {s v : State} {g : Nat} (h : Reports (releaseClaim s g) v) : claimReleased s v g :=
  claimReleased_of_reports (releaseClaim_released s g) (fun hon ho => releaseClaim_busy s hon ho) h

end Sys2Proof.Machine

/-! ## The end of a sweep: what it leaves (R85, R126, R127) -/

namespace Sys2Proof.Machine

-- The kernel checks the lemmas one after another: many at once take a thread each.
set_option Elab.async false

variable (s : State)

/-! ### Notices that find room -/

theorem post_fifo (b : NoticeBody) (h : s.notices.fifo.length < 32) :
    (post s b).notices.fifo = s.notices.fifo ++ [⟨b, s.clock.tod⟩] := by
  rw [post, if_pos (show s.notices.fifo.length < Config.fifoSize from h)]

theorem postAll_fifo : ∀ (bs : List NoticeBody) (s : State), s.notices.fifo.length + bs.length ≤ 32 →
    (postAll s bs).notices.fifo = s.notices.fifo ++ bs.map fun b => ⟨b, s.clock.tod⟩
  | [], s, _ => (List.append_nil _).symm
  | b :: bs, s, h => by
    have hlen : s.notices.fifo.length < 32 := by rw [List.length_cons] at h; omega
    have hpost := post_fifo s b hlen
    show (postAll (post s b) bs).notices.fifo = _
    rw [postAll_fifo bs (post s b) (by rw [hpost, List.length_append, List.length_singleton, List.length_cons] at *; omega), hpost]
    simp

theorem mem_postAll {bs : List NoticeBody} {b : NoticeBody} (hb : b ∈ bs) (h : s.notices.fifo.length + bs.length ≤ 32) :
    ⟨b, s.clock.tod⟩ ∈ (postAll s bs).notices.fifo := by
  rw [postAll_fifo bs s h]
  exact List.mem_append_right _ (List.mem_map_of_mem hb)

/-! ### The clock during an end: only the doze timer may stop -/

theorem openOwnRound_clock (h n : Nat) (k : ReportKind) (d : Nat) :
    (openOwnRound s h n k d).clock = { s.clock with dozeExpiry := none } := by
  simp only [openOwnRound, completionCheck_keeps]
  refine (foldl_keeps (·.clock) (ownConfirm h d n) (by simp) _ _).trans ?_
  simp [putRound, stopDoze]

theorem findingDecision_clock (c : Ctx) (o : SweepOutcome) (w : Option Comparison) :
    (findingDecision s c o w).clock.now = s.clock.now ∧ (findingDecision s c o w).clock.tod = s.clock.tod := by
  unfold findingDecision
  split
  · split
    · split
      · rw [openOwnRound_clock]
        exact ⟨rfl, rfl⟩
      · exact ⟨rfl, rfl⟩
    · exact ⟨rfl, rfl⟩
  · exact ⟨rfl, rfl⟩

/-! ### An alert input that is answered -/

theorem alertAnswered_congr {s s' t t' : State} {c c' : Ctx} (h : alertAnswered s t c) (alerts : s'.alerts = s.alerts)
    (cfg : s'.cfg = s.cfg) (now : s'.clock.now = s.clock.now) (span : c'.span = c.span) (latch : c'.answersLatch = c.answersLatch)
    (after : t'.alerts = t.alerts) : alertAnswered s' t' c' := by
  have hmode : alertModeOfSpan s' = alertModeOfSpan s := by
    funext n
    simp only [alertModeOfSpan, enabledRec, cfg]
  unfold alertAnswered at h ⊢
  rwa [alerts, cfg, now, span, latch, after, hmode]

/-- Before the alert input is answered: result record, notices, confirm report, finding decision. -/
def sweepTold (s : State) (c : Ctx) (o : SweepOutcome) (pre : List NoticeBody) : State :=
  findingDecision
    (confirmReport (postAll (writeResult s c o s.acc.current.lit) (pre ++ [.sweepDone c.span o])) c (writtenPart s o))
    c o (writtenPart s o)

theorem sweepClosed_eq (c : Ctx) (o : SweepOutcome) (pre : List NoticeBody) :
    sweepClosed s c o pre = sweepOver (sweepTold s c o pre) c := rfl

theorem sweepTold_clock (c : Ctx) (o : SweepOutcome) (pre : List NoticeBody) :
    (sweepTold s c o pre).clock.now = s.clock.now ∧ (sweepTold s c o pre).clock.tod = s.clock.tod := by
  obtain ⟨hnow, htod⟩ := findingDecision_clock
    (confirmReport (postAll (writeResult s c o s.acc.current.lit) (pre ++ [.sweepDone c.span o])) c (writtenPart s o))
    c o (writtenPart s o)
  exact ⟨hnow.trans (by simp), htod.trans (by simp)⟩

theorem sweepClosed_answers (c : Ctx) (o : SweepOutcome) (pre : List NoticeBody) :
    alertAnswered s (sweepClosed s c o pre) c :=
  alertAnswered_congr (sweepOver_answers (sweepTold s c o pre) c) (by simp [sweepTold]) (by simp [sweepTold])
    (sweepTold_clock s c o pre).1.symm rfl rfl rfl

/-! ### The state after an end -/

theorem Acc.release_active (a : Acc) : a.release.active = a.active := a.adjust_active _ _

theorem Acc.release_current (a : Acc) : a.release.current.owner = .none := by rw [Acc.release, Acc.current_adjust]

theorem Acc.release_saved (a : Acc) : a.release.slot a.release.saved = a.slot a.saved := a.saved_adjust _

theorem endSweep_ended {c : Ctx} (hc : s.engine.ctx = some c) (o : SweepOutcome) (pre : List NoticeBody) :
    sweepEnded s (endSweep s o pre) c := by
  have hacc : (endSweep s o pre).acc = s.acc.release := by
    rw [endSweep_eq hc]
    exact congrArg Acc.release (by simp [sweepClosed])
  refine ⟨?_, ?_, ?_, ?_, ?_, ?_, ?_, ?_⟩
  · exact alertAnswered_congr (sweepClosed_answers s c o pre) rfl rfl rfl rfl rfl (by rw [endSweep_eq hc]; rfl)
  · rw [endSweep_eq hc]; rfl
  · rw [endSweep_eq hc]; rfl
  · rw [endSweep_eq hc]; rfl
  · rw [hacc, Acc.release_active]
  · rw [hacc, Acc.release_current]
  · rw [hacc, Acc.release_saved]
  · rw [endSweep_eq hc]; rfl

theorem endSweep_results {c : Ctx} (hc : s.engine.ctx = some c) (o : SweepOutcome) (pre : List NoticeBody) :
    (endSweep s o pre).comp.results = (writeResult s c o s.acc.current.lit).comp.results := by
  rw [endSweep_eq hc]
  show (sweepClosed s c o pre).comp.results = _
  simp [sweepClosed]

theorem endSweep_told {c : Ctx} (hc : s.engine.ctx = some c) {o : SweepOutcome} {pre : List NoticeBody} {b : NoticeBody}
    (hb : b ∈ pre ++ [.sweepDone c.span o]) (hroom : s.notices.fifo.length + pre.length < 32) :
    ⟨b, s.clock.tod⟩ ∈ (endSweep s o pre).notices.fifo := by
  have hposted : ⟨b, s.clock.tod⟩ ∈
      (postAll (writeResult s c o s.acc.current.lit) (pre ++ [.sweepDone c.span o])).notices.fifo := by
    refine mem_postAll _ hb ?_
    rw [List.length_append, List.length_singleton]
    exact hroom
  rw [endSweep_eq hc]
  exact ((((Reports.confirmReport _ _ _).trans (.findingDecision _ _ _ _)).trans (.sweepOver _ _)).fifo.subset hposted)

theorem find_writeResult (c : Ctx) (o : SweepOutcome) (l : Nat) {x : ResultRecord} (hx : s.comp.results.find c.span = some x) :
    (writeResult s c o l).comp.results.find c.span = some { x with
      latest := some ⟨o, c.kind, c.level, s.clock.tod, l, c.darkLevel⟩
      comparison := if writtenPart s o = none then x.comparison else writtenPart s o
      held := heldAfter c.kind (writtenPart s o) x.held } := by
  rw [writeResult, adjustResult, Table.find_adjust, if_pos rfl, hx]
  cases writtenPart s o <;> rfl

/-! ### From a row's state to the end of its sweep -/

/-- u is s, as far as the end of a sweep reads it; the sweep is c, with what it has gained since in d. -/
structure BeforeEnd (s u : State) (c d : Ctx) : Prop where
  ctx : u.engine.ctx = some d
  span : d.span = c.span := by rfl
  kind : d.kind = c.kind := by rfl
  level : d.level = c.level := by rfl
  latch : d.answersLatch = c.answersLatch := by rfl
  cfg : u.cfg = s.cfg := by simp
  alerts : u.alerts = s.alerts := by simp
  clock : u.clock = s.clock := by simp
  acc : u.acc = s.acc := by simp
  results : u.comp.results = s.comp.results := by simp
  notices : u.notices = s.notices := by simp

namespace BeforeEnd

variable {s} {u : State} {c d : Ctx}

theorem answered (h : BeforeEnd s u c d) (o : SweepOutcome) (pre : List NoticeBody) :
    alertAnswered s (endSweep u o pre) c :=
  alertAnswered_congr (endSweep_ended u h.ctx o pre).1 h.alerts.symm h.cfg.symm (by rw [h.clock]) h.span.symm h.latch.symm rfl

theorem ended (h : BeforeEnd s u c d) (o : SweepOutcome) (pre : List NoticeBody) : sweepEnded s (endSweep u o pre) c := by
  obtain ⟨_, hstate, hctx, hsel, hactive, howner, hsaved, hworking⟩ := endSweep_ended u h.ctx o pre
  rw [h.acc] at hactive hsaved
  exact ⟨h.answered o pre, hstate, hctx, hsel, hactive, howner, hsaved, hworking⟩

/-- The result record of a sweep that ends without a comparison to write (R126, R127). -/
theorem record (h : BeforeEnd s u c d) {o : SweepOutcome} (pre : List NoticeBody) (hw : writtenPart u o = none) {x : ResultRecord}
    (hx : s.comp.results.find c.span = some x) : (endSweep u o pre).comp.results.find c.span = some { x with
      latest := some ⟨o, c.kind, c.level, s.clock.tod, s.acc.current.lit, d.darkLevel⟩ } := by
  have hfind : u.comp.results.find d.span = some x := by rw [h.results, h.span, hx]
  rw [endSweep_results u h.ctx, ← h.span, find_writeResult u d o _ hfind, hw, if_pos rfl, h.kind, h.level, h.clock, h.acc]
  rfl

/-- The result record of a sweep that ends with a comparison (R126, R127, R113). -/
theorem recordCompared (h : BeforeEnd s u c d) {o : SweepOutcome} (pre : List NoticeBody) {w : Comparison}
    (hw : writtenPart u o = some w) {x : ResultRecord} (hx : s.comp.results.find c.span = some x) :
    (endSweep u o pre).comp.results.find c.span = some { x with
      latest := some ⟨o, c.kind, c.level, s.clock.tod, s.acc.current.lit, d.darkLevel⟩
      comparison := some w, held := if w.unanchored ∨ c.kind = .baseline then x.held else some w.offset } := by
  have hfind : u.comp.results.find d.span = some x := by rw [h.results, h.span, hx]
  rw [endSweep_results u h.ctx, ← h.span, find_writeResult u d o _ hfind, hw, if_neg nofun, h.kind, h.level, h.clock, h.acc]
  rfl

theorem told (h : BeforeEnd s u c d) {o : SweepOutcome} {pre : List NoticeBody} {b : NoticeBody}
    (hb : b ∈ pre ++ [.sweepDone c.span o]) (hroom : s.notices.fifo.length + pre.length < 32) :
    ⟨b, s.clock.tod⟩ ∈ (endSweep u o pre).notices.fifo := by
  rw [← h.clock]
  exact endSweep_told u h.ctx (by rwa [h.span]) (by rwa [h.notices])

theorem done (h : BeforeEnd s u c d) {o : SweepOutcome} (hroom : s.notices.fifo.length < 32) :
    ⟨.sweepDone c.span o, s.clock.tod⟩ ∈ (endSweep u o []).notices.fifo :=
  h.told (List.mem_singleton_self _) hroom

/-- A sweep whose claim is released first (R166). -/
theorem released (h : BeforeEnd s u c d) (g : Nat) : BeforeEnd s (releaseClaim u g) c d :=
  { h with
    ctx := by simp [h.ctx], cfg := by simp [h.cfg], alerts := by simp [h.alerts], clock := by simp [h.clock]
    acc := by simp [h.acc], results := by simp [h.results], notices := by simp [h.notices] }

end BeforeEnd

/-- The end of a sweep whose claim is released with it, as a row that the end concludes leaves it. -/
theorem releasedEnd_facts {c d : Ctx} {u : State} (h : BeforeEnd s u c d) (claims : u.claims = s.claims) (line : u.line = s.line)
    (port : u.port = s.port) (o : SweepOutcome) {v : State} (hv : endSweep (releaseClaim u (lightGroupOf s c.span)) o [] = v) :
    sweepEnded s v c ∧ claimReleased s v (lightGroupOf s c.span) ∧ alertAnswered s (settleSelect v) c ∧
    (settleSelect v).comp.results = v.comp.results ∧
    (s.notices.fifo.length < 32 → ⟨.sweepDone c.span o, s.clock.tod⟩ ∈ (settleSelect v).notices.fifo) ∧
    (settleSelect v).store = u.store ∧ (settleSelect v).trace = u.trace ∧ (settleSelect v).port = s.port := by
  have hb := h.released (lightGroupOf s c.span)
  have hrel := claimReleased_then (Reports.endSweep (releaseClaim u (lightGroupOf s c.span)) o [])
  subst hv
  refine ⟨hb.ended o [], ?_, ?_, by simp, fun hroom => by simpa using hb.done hroom, by simp, by simp, by simp [port]⟩
  · unfold claimReleased State.onLine at hrel ⊢
    rwa [claims, line, port] at hrel
  · exact alertAnswered_congr (hb.answered o []) rfl rfl rfl rfl rfl (by simp)

end Sys2Proof.Machine

/-! ## Dark and lit shots, reduction (R74 to R79, R96 to R105) -/

namespace Sys2Proof.Machine

-- The kernel checks the lemmas one after another: many at once take a thread each.
set_option Elab.async false

variable (s : State)

/-! ### Rows that find no sweep in their states -/

theorem sweepIn_mem {sts : List EngineState} {c : Ctx} {r : SpanRecord} (hc : s.engine.ctx = some c) (hst : s.engine.state ∈ sts)
    (hr : enabledRec s c.span = some r) : sweepIn s sts = some (c, r) := sweepIn_eq_some.2 ⟨hc, hst, hr⟩

theorem sweepIn_none {sts : List EngineState} (h : s.engine.ctx = none ∨ s.engine.state ∉ sts) : sweepIn s sts = none := by
  rw [← Option.not_isSome_iff_eq_none]
  intro hsome
  obtain ⟨⟨c, r⟩, he⟩ := Option.isSome_iff_exists.1 hsome
  obtain ⟨hc, hst, _⟩ := sweepIn_eq_some.1 he
  rcases h with h | h
  · rw [h] at hc; cases hc
  · exact h hst

/-! ### Lit shots (R73, R75, R77, R96) -/

theorem mayFire_iff (c : Ctx) : mayFire s c = true ↔ (s.engine.state = .quick ∨ s.engine.state = .full) ∧
    s.switch = .settled c.span ∧ (lightGroupOf s c.span = 0 ∨ isOpen s (lightGroupOf s c.span) = true) ∧
    s.engine.laserFault = none := by
  simp [mayFire, and_assoc, and_comm, and_left_comm]

theorem exec_litShot_none (xs : List Adc) (h : s.engine.ctx = none ∨ s.engine.state ∉ [EngineState.quick, .full]) :
    exec (.litShotComplete xs) s = .next s := by
  show Host.Outcome.next _ = _
  rw [sweepIn_none s h]

/-- A lit shot that does not count (R73, R77). -/
theorem exec_litShot_barred (xs : List Adc) {c : Ctx} (hc : s.engine.ctx = some c)
    (h : ¬ (mayFire s c = true ∧ c.interleavedDue = false)) : exec (.litShotComplete xs) s = .next s := by
  show Host.Outcome.next _ = _
  cases he : sweepIn s [.quick, .full] with
  | none => rfl
  | some e =>
    obtain ⟨d, r⟩ := e
    obtain ⟨hd, _⟩ := sweepIn_eq_some.1 he
    cases hc.symm.trans hd
    exact congrArg Host.Outcome.next (if_neg fun hall => h hall.2)

theorem exec_litShot {xs : List Adc} {c : Ctx} {r : SpanRecord} (hc : s.engine.ctx = some c)
    (hst : s.engine.state ∈ [EngineState.quick, .full]) (hr : enabledRec s c.span = some r) (hlen : xs.length = r.len)
    (hfire : mayFire s c = true) (hdue : c.interleavedDue = false) : exec (.litShotComplete xs) s = .next
      (if s.engine.state = .quick then afterQuickShot (addLit s xs) c r else afterFullShot (addLit s xs) c r) := by
  show Host.Outcome.next _ = _
  rw [sweepIn_mem s hc hst hr]
  exact congrArg Host.Outcome.next (if_pos ⟨hlen, hfire, hdue⟩)

theorem addLit_eq {c : Ctx} (xs : List Adc) (hc : s.engine.ctx = some c) : addLit s xs = { s with
    engine := { s.engine with ctx := some { c with litDone := c.litDone + 1 } }
    acc := s.acc.adjust s.acc.active fun sl => sl.addShot xs } := by
  simp [addLit, adjustCtx, hc]

/-- The slot after a lit shot (R96). -/
theorem addLit_acc (xs : List Adc) : (addLit s xs).acc.active = s.acc.active ∧
    (addLit s xs).acc.slot (addLit s xs).acc.saved = s.acc.slot s.acc.saved ∧
    (addLit s xs).acc.current = s.acc.current.addShot xs :=
  ⟨s.acc.adjust_active _ _, s.acc.saved_adjust _, s.acc.current_adjust _⟩

theorem releaseClaim_fields (g : Nat) : releaseClaim s g =
    { s with claims := (releaseClaim s g).claims, line := (releaseClaim s g).line } := by
  have h := releaseClaim_keeps s g
  generalize releaseClaim s g = u at h
  cases u
  simp at h
  simp [h]

theorem enterReducing_eq {t : State} {d : Ctx} (hd : t.engine.ctx = some d) (c : Ctx) (r : SpanRecord) :
    enterReducing t c r = { t with
      engine := { t.engine with state := .reducing, ctx := some { d with phase := .reducing } }
      trace := ⟨.filling, some (descriptorOf c r), []⟩ } := by
  simp [enterReducing, enter, hd]

/-! ### Dark shots (R74, R78, R98) -/

theorem darkLevelOf_bounds {bins : Nat} (total : Nat) (h : 0 < bins) : 16 * bins * darkLevelOf total bins ≤ total + 8 * bins ∧
    total + 8 * bins < 16 * bins * (darkLevelOf total bins + 1) := by
  have hpos : 0 < 16 * bins := by omega
  exact ⟨Nat.mul_div_le .., Nat.lt_mul_div_succ _ hpos⟩

theorem darkMean_bounds {bins : Nat} (total : Nat) (h : 0 < bins) : bins * darkMean total bins ≤ total + bins / 2 ∧
    total + bins / 2 < bins * (darkMean total bins + 1) := ⟨Nat.mul_div_le .., Nat.lt_mul_div_succ _ h⟩

/-- The samples that a dark shot sums (R98). -/
theorem shotTotal_eq {c : Ctx} {r : SpanRecord} {first count : Nat} (xs : List Adc)
    (h : c.window.getD (0, r.len) = (first, count)) : shotTotal c r xs = (((xs.drop first).take count).map (·.val)).sum := by
  unfold shotTotal acquiredBins acquired
  rw [h]

theorem binCount_eq {c : Ctx} {r : SpanRecord} {first count : Nat} (h : c.window.getD (0, r.len) = (first, count)) :
    binCount c r = count := by
  unfold binCount acquiredBins
  rw [h]

theorem darkDone_counted (total : Nat) (c : Ctx) (d : Nat) : darkDone (countDark s total) c d =
    if s.cfg.block.foreignLight < d then
      settleSelect (endSweep (releaseClaim (darkKnown (countDark s total) d) (lightGroupOf s c.span)) .foreignLight [])
    else if c.quickOnly then enter (darkKnown (countDark s total) d) .quick
    else enter (darkKnown (countDark s total) d) .full := darkDone_eq ..

theorem exec_darkShot {xs : List Adc} {c : Ctx} {r : SpanRecord} (hst : s.engine.state = .dark) (hc : s.engine.ctx = some c)
    (hr : enabledRec s c.span = some r) (hlen : xs.length = r.len) :
    exec (.darkShotComplete xs) s = .next (darkShot s c r xs) := by
  show Host.Outcome.next _ = _
  rw [sweepIn_mem s hc (by rw [hst]; exact List.mem_singleton_self _) hr]
  exact congrArg Host.Outcome.next (if_pos hlen)

theorem darkShot_eq (c : Ctx) (r : SpanRecord) (xs : List Adc) : darkShot s c r xs =
    if s.engine.darkShots + 1 < 16 then countDark s (shotTotal c r xs)
    else darkDone (countDark s (shotTotal c r xs)) c
      (darkLevelOf (s.engine.darkTotal + shotTotal c r xs) (binCount c r)) := rfl

theorem darkKnown_eq {c : Ctx} (hc : s.engine.ctx = some c) (d : Nat) : darkKnown s d = { s with engine := { s.engine with
    ctx := some { c with darkLevel := some d }, darkShots := 0, darkTotal := 0 } } := by
  simp [darkKnown, adjustCtx, hc]

theorem exec_darkCheck {xs : List Adc} {c : Ctx} {r : SpanRecord} (hst : s.engine.state = .full) (hc : s.engine.ctx = some c)
    (hr : enabledRec s c.span = some r) (hlen : xs.length = r.len) (hdue : c.interleavedDue = true) :
    exec (.interleavedDarkShotCheck xs) s =
      .next (settleSelect (checkDark s c (darkMean (shotTotal c r xs) (binCount c r)))) := by
  show Host.Outcome.next _ = _
  rw [sweepIn_mem s hc (by rw [hst]; exact List.mem_singleton_self _) hr]
  exact congrArg Host.Outcome.next (if_pos ⟨hlen, hdue⟩)

/-- The context after an interleaved dark shot (R78). -/
def darkChecked (s : State) (c : Ctx) (n : Nat) : State :=
  { s with engine := { s.engine with ctx := some { c with interleavedDue := false, disturbed := n } } }

theorem BeforeEnd.of_darkChecked (c : Ctx) (n : Nat) :
    BeforeEnd s (darkChecked s c n) c { c with interleavedDue := false, disturbed := n } where
  ctx := rfl
  cfg := rfl
  alerts := rfl
  clock := rfl
  acc := rfl
  results := rfl
  notices := rfl

/-- The block boundary after an interleaved dark shot (R58, R79). -/
theorem boundary_darkChecked (c : Ctx) (n : Nat) :
    boundary (darkChecked s c n) { c with interleavedDue := false, disturbed := n } =
      if c.litDone % 256 = 0 ∧ c.level < 3 ∧ c.resumed = false ∧ s.sched.save = none ∧ urgentElsewhere s c.span = true
      then suspend (darkChecked s c n) else darkChecked s c n := by
  have hurgent : urgentElsewhere (darkChecked s c n) c.span = urgentElsewhere s c.span := rfl
  have hsave : (darkChecked s c n).sched.save = s.sched.save := rfl
  simp [boundary, mustSuspend, hurgent, hsave, and_assoc, Config.blockShots]

theorem checkDark_eq {c : Ctx} {mean n : Nat} (hc : s.engine.ctx = some c) (hn : disturbedAfter s c mean = n) :
    checkDark s c mean = if 2 ≤ n then abort (darkChecked s c n) .disturbed []
      else boundary (darkChecked s c n) { c with interleavedDue := false, disturbed := n } := by
  have hctx : (adjustCtx s fun x => { x with interleavedDue := false, disturbed := n }) = darkChecked s c n := by
    simp [adjustCtx, darkChecked, hc]
  rw [checkDark, hn, hctx]

/-! ### Aborts -/

theorem abort_eq {c : Ctx} (hc : s.engine.ctx = some c) (o : SweepOutcome) (pre : List NoticeBody) : abort s o pre =
    endSweep (stopReduction (stopWrite (dropClaim s c.span) c.span)) o (pre ++ writeCutNotice s c.span) := by
  rw [abort, hc]

theorem BeforeEnd.stopped {s u : State} {c d : Ctx} (h : BeforeEnd s u c d) (n : Nat) :
    BeforeEnd s (stopReduction (dropClaim u n)) c d :=
  { h with
    ctx := by simp [stopReduction, h.ctx], cfg := by simp [stopReduction, h.cfg], alerts := by simp [stopReduction, h.alerts]
    clock := by simp [stopReduction, h.clock], acc := by simp [stopReduction, h.acc]
    results := by simp [stopReduction, h.results], notices := by simp [stopReduction, h.notices] }

/-- An abort writes no comparison (R109). -/
theorem writtenPart_stopReduction (t : State) (o : SweepOutcome) : writtenPart (stopReduction t) o = none := by
  unfold writtenPart
  split <;> rfl

theorem stopWrite_not_storing {t : State} (n : Nat) (h : t.engine.state ≠ .storing) : stopWrite t n = t := if_neg h

theorem writeCutNotice_not_storing (n : Nat) (h : s.engine.state ≠ .storing) : writeCutNotice s n = [] := if_neg h

/-- An abort, out of STORING (R85). -/
theorem abort_not_storing {c : Ctx} (hc : s.engine.ctx = some c) (hst : s.engine.state ≠ .storing) (o : SweepOutcome) :
    abort s o [] = endSweep (stopReduction (dropClaim s c.span)) o [] := by
  rw [abort_eq s hc, stopWrite_not_storing _ (by simpa using hst), writeCutNotice_not_storing s _ hst]
  rfl

/-- The claim of a sweep that is taken is released as the sweep is aborted (R166). -/
theorem abort_released {s u : State} {c : Ctx} (hu : u.engine.ctx = some c) (claims : u.claims = s.claims) (line : u.line = s.line)
    (port : u.port = s.port) (hsel : u.sched.selection = none) (o : SweepOutcome) (pre : List NoticeBody) :
    claimReleased s (abort u o pre) (lightGroupOf u c.span) := by
  have hdrop : dropClaim u c.span = releaseClaim u (lightGroupOf u c.span) := if_neg (by rw [isUntaken, hsel]; nofun)
  have hreports : Reports (releaseClaim u (lightGroupOf u c.span)) (abort u o pre) := by
    rw [abort_eq u hu, hdrop]
    refine Reports.trans ?_ (Reports.endSweep ..)
    exact .of_eq (by simp [stopReduction]) (by simp [stopReduction]) (by simp [stopReduction])
  have hrel := claimReleased_then hreports
  unfold claimReleased State.onLine at hrel ⊢
  rwa [claims, line, port] at hrel

/-! ### Reduction (R100 to R105) -/

theorem length_acquiredEntries (n dark : Nat) {sl : AccSlot} (hsums : sl.sums.length = sl.count)
    (hmarks : sl.marks.length = sl.count) : (acquiredEntries n dark sl).length = sl.count := by
  rw [acquiredEntries, List.length_zipWith, hsums, hmarks, Nat.min_self]

theorem getElem?_acquiredEntries (n dark : Nat) {sl : AccSlot} {i : Nat} (hsums : sl.sums.length = sl.count)
    (hmarks : sl.marks.length = sl.count) (hi : i < sl.count) : (acquiredEntries n dark sl)[i]? =
      some (if sl.marks.getD i false then (1806, true)
        else (levelOf (netValue (meanOf n (sl.sums.getD i 0)) dark), false)) := by
  have hs : sl.sums[i]? = some (sl.sums.getD i 0) := by
    rw [List.getD_eq_getElem?_getD, List.getElem?_eq_getElem (by omega)]; rfl
  have hm : sl.marks[i]? = some (sl.marks.getD i false) := by
    rw [List.getD_eq_getElem?_getD, List.getElem?_eq_getElem (by omega)]; rfl
  rw [acquiredEntries, List.getElem?_zipWith, hs, hm]
  rfl

theorem length_reduceEntries {len : Nat} (n dark : Nat) {sl : AccSlot} (hsums : sl.sums.length = sl.count)
    (hmarks : sl.marks.length = sl.count) (hfit : sl.first + sl.count ≤ len) : (reduceEntries len n dark sl).length = len := by
  simp only [reduceEntries, List.length_append, List.length_replicate, length_acquiredEntries n dark hsums hmarks]
  omega

theorem getElem?_reduceEntries {len j : Nat} (n dark : Nat) {sl : AccSlot} (hsums : sl.sums.length = sl.count)
    (hmarks : sl.marks.length = sl.count) (hfit : sl.first + sl.count ≤ len) (hj : j < len) :
    (reduceEntries len n dark sl)[j]? = if sl.first ≤ j ∧ j < sl.first + sl.count then
      some (if sl.marks.getD (j - sl.first) false then (1806, true)
        else (levelOf (netValue (meanOf n (sl.sums.getD (j - sl.first) 0)) dark), false))
      else some (2047, false) := by
  have hlen := length_acquiredEntries n dark hsums hmarks
  have hnone : ∀ k i, i < k → (List.replicate k noDataEntry)[i]? = some (2047, false) := fun k i hi => by
    rw [List.getElem?_replicate, if_pos hi]
    rfl
  rw [reduceEntries, List.append_assoc]
  by_cases hlow : j < sl.first
  · rw [List.getElem?_append_left (by rwa [List.length_replicate]), hnone _ _ hlow, if_neg (by omega)]
  · rw [List.getElem?_append_right (by rw [List.length_replicate]; omega), List.length_replicate]
    by_cases hin : j < sl.first + sl.count
    · rw [List.getElem?_append_left (by rw [hlen]; omega), getElem?_acquiredEntries n dark hsums hmarks (by omega),
        if_pos (show sl.first ≤ j ∧ j < sl.first + sl.count from ⟨by omega, hin⟩)]
    · rw [List.getElem?_append_right (by rw [hlen]; omega), hlen, hnone _ _ (by omega), if_neg (by omega)]

theorem exec_reductionComplete {c : Ctx} {r : SpanRecord} {d : TraceDesc} (hc : s.engine.ctx = some c)
    (hst : s.engine.state = .reducing) (hr : enabledRec s c.span = some r) (hfill : s.trace.state = .filling)
    (hd : s.trace.desc = some d) : exec .reductionComplete s = .next (reduce s d c r) := by
  show Host.Outcome.next _ = _
  rw [sweepIn_mem s hc (by rw [hst]; exact List.mem_singleton_self _) hr, hfill, hd]

end Sys2Proof.Machine

namespace Sys2Proof

open Machine

/-- Settles O44: `afterQuickShot` and `afterFullShot` on the state with the shot added. -/
theorem litShotsAccumulate : Obligations.LitShotsAccumulate := by
  intro s xs
  refine ⟨fun h => ?_, fun c r hc hst hr hlen hdue hsw hclaim hfault => ?_⟩
  · rcases h with h | ⟨hq, hf⟩ | hl | ⟨c, hc, h⟩
    · exact exec_litShot_none s xs (.inl h)
    · exact exec_litShot_none s xs (.inr (by simp [hq, hf]))
    · cases hc : s.engine.ctx with
      | none => exact exec_litShot_none s xs (.inl hc)
      | some c => exact exec_litShot_barred s xs hc fun ⟨hfire, _⟩ => hl ((mayFire_iff s c).1 hfire).2.2.2
    · refine exec_litShot_barred s xs hc fun ⟨hfire, hdue⟩ => ?_
      obtain ⟨_, hsw, hclaim, _⟩ := (mayFire_iff s c).1 hfire
      rcases h with h | h | ⟨hg, ho⟩
      · rw [hdue] at h; cases h
      · exact h hsw
      · rcases hclaim with hclaim | hclaim
        · exact hg hclaim
        · rw [ho] at hclaim; cases hclaim
  · have hexec := exec_litShot s hc (by simpa using hst) hr hlen ((mayFire_iff s c).2 ⟨hst, hsw, hclaim, hfault⟩) hdue
    have hreduce := fun u (hu : u.engine = (addLit s xs).engine) =>
      enterReducing_eq (t := u) (hu ▸ addLit_ctx xs hc) c r
    obtain ⟨hactive, hsaved, hcurrent⟩ := addLit_acc s xs
    rcases hst with hq | hf
    · have hnotFull : s.engine.state ≠ .full := by rw [hq]; nofun
      rw [if_pos hq, afterQuickShot] at hexec
      by_cases h64 : c.litDone + 1 = 64
      · rw [if_pos (show c.litDone + 1 = Config.quickShots from h64), hreduce (addLit s xs) rfl] at hexec
        refine ⟨_, hexec, hactive, hsaved, hcurrent, fun _ h => absurd h64 h, fun h => absurd h hnotFull, fun _ =>
          ⟨?_, rfl, fun _ => ⟨rfl, rfl⟩, fun h => absurd h hnotFull, ?_⟩⟩
        · rw [addLit_eq s xs hc]
        · rw [addLit_eq s xs hc]
      · rw [if_neg (show c.litDone + 1 ≠ Config.quickShots from h64)] at hexec
        refine ⟨_, hexec, hactive, hsaved, hcurrent, fun _ _ => ?_, fun h => absurd h hnotFull, fun h => ?_⟩
        · rw [addLit_eq s xs hc]
        · rcases h with ⟨_, h⟩ | ⟨h, _⟩
          · exact absurd h h64
          · exact absurd h hnotFull
    · have hnotQuick : s.engine.state ≠ .quick := by rw [hf]; nofun
      rw [if_neg hnotQuick, afterFullShot] at hexec
      by_cases hlast : 2 ^ r.shots ≤ c.litDone + 1
      · have hrel : claimReleased s (releaseClaim (addLit s xs) (lightGroupOf s c.span)) (lightGroupOf s c.span) :=
          releaseClaim_released (addLit s xs) _
        rw [if_pos hlast, show lightGroupOf (addLit s xs) c.span = lightGroupOf s c.span from rfl, releaseClaim_fields,
          hreduce { addLit s xs with
            claims := (releaseClaim (addLit s xs) (lightGroupOf s c.span)).claims
            line := (releaseClaim (addLit s xs) (lightGroupOf s c.span)).line } rfl] at hexec
        refine ⟨_, hexec, hactive, hsaved, hcurrent, fun h => absurd h hnotQuick,
          fun _ h => absurd hlast (Nat.not_le.2 h), fun _ => ⟨?_, rfl, fun h => absurd h hnotQuick, fun _ => hrel, ?_⟩⟩
        · simp only [addLit_eq s xs hc]
        · simp only [addLit_eq s xs hc]
      · rw [if_neg hlast] at hexec
        by_cases hdark : (c.litDone + 1) % 64 = 0
        · rw [if_pos (show (c.litDone + 1) % Config.darkEvery = 0 from hdark)] at hexec
          refine ⟨_, hexec, hactive, hsaved, hcurrent, fun h => absurd h hnotQuick, fun _ _ => ?_, fun h => ?_⟩
          · simp [adjustCtx, addLit_eq s xs hc, hdark]
          · rcases h with ⟨h, _⟩ | ⟨_, h⟩
            · exact absurd h hnotQuick
            · exact absurd h hlast
        · rw [if_neg (show (c.litDone + 1) % Config.darkEvery ≠ 0 from hdark)] at hexec
          refine ⟨_, hexec, hactive, hsaved, hcurrent, fun h => absurd h hnotQuick, fun _ _ => ?_, fun h => ?_⟩
          · simp [addLit_eq s xs hc, hdark, hdue]
          · rcases h with ⟨h, _⟩ | ⟨_, h⟩
            · exact absurd h hnotQuick
            · exact absurd h hlast

/-- Settles O46: the entries by position, then `reduce` below and above the overload limit. -/
theorem reductionWritesTheTrace : Obligations.ReductionWritesTheTrace := by
  refine ⟨fun len n dark sl hsums hmarks hfit => ⟨length_reduceEntries n dark hsums hmarks hfit,
    fun j hj => getElem?_reduceEntries n dark hsums hmarks hfit hj⟩, fun s => ⟨fun h => ?_, ?_⟩⟩
  · show Host.Outcome.next _ = _
    rcases h with h | h | h
    · rw [sweepIn_none s (.inl h)]
    · rw [sweepIn_none s (.inr (by simpa using h))]
    · cases htr : s.trace.state with
      | filling => exact absurd htr h
      | valid => cases sweepIn s [.reducing] <;> rfl
      | empty => cases sweepIn s [.reducing] <;> rfl
  · intro c r d es k hc hst hr hfill hd hes hk
    have htrace : reducedTrace s d c r = ⟨.valid, some { d with saturated := k }, es⟩ := by
      rw [reducedTrace, hes, hk]
    have hexec := exec_reductionComplete s hc hst hr hfill hd
    rw [reduce, htrace] at hexec
    refine ⟨fun hle => ?_, fun hgt => ?_⟩
    · rw [hexec]
      exact congrArg Host.Outcome.next (if_neg (Nat.not_lt.2 hle))
    · have hb : BeforeEnd s { s with trace := ⟨.valid, some { d with saturated := k }, es⟩ } c c := { ctx := hc }
      obtain ⟨hended, hrel, hans, hcomp, hdone, hstore, htr, hport⟩ := releasedEnd_facts s hb rfl rfl rfl .overload rfl
      refine ⟨_, hexec.trans (congrArg Host.Outcome.next (if_pos hgt)), htr, fun x hx => ?_, hdone,
        ⟨_, rfl, hended, hrel⟩, hans, hstore, hport⟩
      exact (congrArg (Table.find · c.span) hcomp).trans ((hb.released _).record [] rfl hx)

/-- Settles O43: `darkShot` below the 16th shot, and `darkDone` at it. -/
theorem darkShotsGiveTheDarkLevel : Obligations.DarkShotsGiveTheDarkLevel := by
  refine ⟨fun total bins h => darkLevelOf_bounds total h, fun s xs => ⟨fun h => ?_, ?_⟩⟩
  · show Host.Outcome.next _ = _
    rw [sweepIn_none s (.inr (by simpa using h))]
  · intro c r first count total hst hc hr hlen hwin htotal
    have hexec := exec_darkShot s hst hc hr hlen
    rw [darkShot_eq, shotTotal_eq xs hwin, binCount_eq hwin, htotal] at hexec
    have hknown := darkKnown_eq (countDark s (((xs.drop first).take count).map (·.val)).sum) hc (darkLevelOf total count)
    refine ⟨fun hlt => ?_, fun hge hle => ?_, fun hge hgt => ?_⟩
    · rw [hexec, if_pos hlt, ← htotal]
      rfl
    · rw [hexec, if_neg (Nat.not_lt.2 hge), darkDone_counted, if_neg (Nat.not_lt.2 hle), hknown]
      cases c.quickOnly <;> rfl
    · rw [if_neg (Nat.not_lt.2 hge), darkDone_counted, if_pos hgt, hknown] at hexec
      have hb : BeforeEnd s { s with engine := { s.engine with
          ctx := some { c with darkLevel := some (darkLevelOf total count) }, darkShots := 0, darkTotal := 0 } } c
          { c with darkLevel := some (darkLevelOf total count) } := { ctx := rfl }
      obtain ⟨hended, hrel, hans, hcomp, hdone, hstore, htr, hport⟩ := releasedEnd_facts s hb rfl rfl rfl .foreignLight rfl
      exact ⟨_, hexec, fun x hx => (congrArg (Table.find · c.span) hcomp).trans ((hb.released _).record [] rfl hx), hdone,
        ⟨_, rfl, hended, hrel⟩, hans, hstore, htr, hport⟩

/-- Settles O45: `checkDark` for the counts below 2, with `boundary`, and at 2, with `abort`. -/
theorem interleavedDarkShotsAreChecked : Obligations.InterleavedDarkShotsAreChecked := by
  refine ⟨fun total bins h _ => darkMean_bounds total h, fun s xs => ⟨fun h => ?_, ?_⟩⟩
  · show Host.Outcome.next _ = _
    rcases h with h | h | ⟨c, hc, hdue⟩
    · rw [sweepIn_none s (.inl h)]
    · rw [sweepIn_none s (.inr (by simpa using h))]
    · cases he : sweepIn s [.full] with
      | none => rfl
      | some e =>
        obtain ⟨d, r⟩ := e
        obtain ⟨hd, _⟩ := sweepIn_eq_some.1 he
        cases hc.symm.trans hd
        exact congrArg Host.Outcome.next (if_neg fun hall => by rw [hdue] at hall; cases hall.2)
  · intro c r first count mean n hst hawake hc hr hlen hdue hwin hmean hn
    have hexec := exec_darkCheck s hst hc hr hlen hdue
    rw [shotTotal_eq xs hwin, binCount_eq hwin, hmean, checkDark_eq s hc hn] at hexec
    have hfull : (darkChecked s c n).engine.state = .full := hst
    refine ⟨fun hlt hno => ?_, fun hlt h1 h2 h3 h4 h5 => ?_, fun hge => ?_⟩
    · rw [hexec, if_neg (Nat.not_le.2 hlt), boundary_darkChecked, if_neg ?_,
        settleSelect_occupied (darkChecked s c n) ⟨by rw [hfull]; nofun, hawake⟩]
      · rfl
      · rintro ⟨h1, h2, h3, h4, h5⟩
        rcases hno with h | h | h | h | h
        · exact h h1
        · omega
        · rw [h3] at h; cases h
        · exact h h4
        · rw [h5] at h; cases h
    · rw [hexec, if_neg (Nat.not_le.2 hlt), boundary_darkChecked, if_pos ⟨h1, h2, h3, h4, h5⟩]
      rfl
    · rw [if_pos hge] at hexec
      have hnot : (darkChecked s c n).engine.state ≠ .storing := by rw [hfull]; nofun
      have hrel : s.sched.selection = none → claimReleased s (abort (darkChecked s c n) .disturbed []) (lightGroupOf s c.span) :=
        fun hsel => abort_released (u := darkChecked s c n) rfl rfl rfl rfl hsel .disturbed []
      rw [abort_not_storing _ rfl hnot] at hexec hrel
      have hs := (BeforeEnd.of_darkChecked s c n).stopped c.span
      refine ⟨_, hexec, fun x hx => ?_, fun hroom => ?_, fun hsel => ⟨_, rfl, hs.ended _ _, hrel hsel⟩, ?_, ?_, ?_⟩
      · rw [(settleSelect_keeps _).2.2.2.2.2.2.1]
        exact hs.record [] (writtenPart_stopReduction _ _) hx
      · simpa using hs.done hroom
      · exact alertAnswered_congr (hs.answered .disturbed []) rfl rfl rfl rfl rfl (by simp)
      · simp [stopReduction, darkChecked]
      · simp [stopReduction, darkChecked]

end Sys2Proof

/-! ## The comparison of a sweep, and the baseline write (R75, R76, R83, R84, R109, R127) -/

namespace Sys2Proof.Machine

-- The kernel checks the lemmas one after another: many at once take a thread each.
set_option Elab.async false

variable (s : State)

/-! ### What a comparison reports -/

theorem result_outcome (p : Problem) (tod : Nat) (w q : Bool) :
    (p.result tod w q).outcome = outcomeOf (p.result tod w q).events := rfl

theorem outcomeOf_writes (es : List Event) : (outcomeOf es).writesComparison = true := by
  unfold outcomeOf
  split
  · rfl
  · split <;> rfl

theorem compared_writes (c : Ctx) (r : SpanRecord) : (compared s c r).outcome.writesComparison = true := outcomeOf_writes _

theorem compared_clean {c : Ctx} {r : SpanRecord} (h : (compared s c r).events = []) : (compared s c r).outcome = .clean := by
  rw [compared, result_outcome, ← compared, h]
  rfl

theorem exec_comparisonComplete {c : Ctx} {r : SpanRecord} (hc : s.engine.ctx = some c) (hst : s.engine.state = .reducing)
    (hr : enabledRec s c.span = some r) (hvalid : s.trace.state = .valid) :
    exec .comparisonComplete s = .next (finishComparison s c r) := by
  show Host.Outcome.next _ = _
  rw [sweepIn_mem s hc (by rw [hst]; exact List.mem_singleton_self _) hr]
  exact congrArg Host.Outcome.next (if_pos hvalid)

theorem exec_comparisonComplete_none (h : s.engine.ctx = none ∨ s.engine.state ≠ .reducing ∨ s.trace.state ≠ .valid) :
    exec .comparisonComplete s = .next s := by
  show Host.Outcome.next _ = _
  rcases h with h | h | h
  · rw [sweepIn_none s (.inl h)]
  · rw [sweepIn_none s (.inr (by simpa using h))]
  · cases sweepIn s [.reducing] with
    | none => rfl
    | some e => exact congrArg Host.Outcome.next (if_neg h)

/-- The branches of a comparison that ends. -/
theorem finishComparison_absent {c : Ctx} (r : SpanRecord) (h : c.refPresent = false) :
    finishComparison s c r = afterComparison s c none := if_neg (by rw [h]; nofun)

theorem finishComparison_quick {c : Ctx} (r : SpanRecord) (h : c.refPresent = true) (hq : c.quickOnly = true) :
    finishComparison s c r =
      if (compared s c r).events = [] then quickClean s c (compared s c r) else escalate s := by
  rw [finishComparison, if_pos h, if_pos hq]
  simp only [List.isEmpty_iff]

theorem finishComparison_full {c : Ctx} (r : SpanRecord) (h : c.refPresent = true) (hq : c.quickOnly = false) :
    finishComparison s c r = afterComparison s c (some (compared s c r)) := by
  rw [finishComparison, if_pos h, if_neg (by rw [hq]; nofun)]

/-- The comparison is the working result now (R109). -/
def withWorking (s : State) (w : Option Comparison) : State := { s with comp := { s.comp with working := w } }

theorem afterComparison_baseline {c : Ctx} (w : Option Comparison) (h : c.kind = .baseline) :
    afterComparison s c w = enterStoring (withWorking s w) c.span := if_pos h

theorem afterComparison_ends {c : Ctx} (w : Option Comparison) (h : c.kind ≠ .baseline) : afterComparison s c w =
    settleSelect (endSweep (withWorking s w) ((w.map (·.outcome)).getD .noReference) []) := by
  refine (if_neg h).trans ?_
  cases w <;> rfl

theorem quickClean_eq (c : Ctx) (w : Comparison) : quickClean s c w =
    settleSelect (endSweep (releaseClaim (withWorking s (some w)) (lightGroupOf s c.span)) .clean []) := rfl

theorem BeforeEnd.of_working {c : Ctx} (hc : s.engine.ctx = some c) (w : Option Comparison) :
    BeforeEnd s (withWorking s w) c c where
  ctx := hc
  cfg := rfl
  alerts := rfl
  clock := rfl
  acc := rfl
  results := rfl
  notices := rfl

theorem writtenPart_working {t : State} {w : Option Comparison} (hw : t.comp.working = w) {o : SweepOutcome}
    (ho : o.writesComparison = true) : writtenPart t o = w := (if_pos ho).trans hw

theorem escalate_eq {c : Ctx} (hc : s.engine.ctx = some c) : escalate s = { s with
    engine := { s.engine with
      state := .full
      ctx := some { c with litDone := 0, quickOnly := false, interleavedDue := false, phase := .full } }
    acc := s.acc.adjust s.acc.active AccSlot.clear
    comp := { s.comp with working := none } } := by
  simp [escalate, enter, adjustCtx, hc]

theorem find_adjust_at {α : Type} (t : Table α) (k m : Nat) (f : α → α) :
    (t.adjust k f).find m = if m = k then (t.find k).map f else t.find m := by
  by_cases hm : m = k
  · rw [Table.find_adjust, if_pos hm, if_pos hm, hm]
  · rw [Table.find_adjust, if_neg hm, if_neg hm]

theorem enterStoring_eq {c : Ctx} (hc : s.engine.ctx = some c) (n : Nat) : enterStoring s n = { s with
    engine := { s.engine with state := .storing, ctx := some { c with phase := .storing } }
    comp := { s.comp with results := s.comp.results.adjust n fun x => { x with held := none } }
    store := { s.store with
      dir := s.store.dir.filter fun e => decide (e.2.owner ≠ n)
      fp := s.store.fp.put n .writing } } := by
  simp [enterStoring, enter, removeHeld, adjustResult, setFp, clearDir, hc]

/-- The end of a sweep, as a row that the end concludes leaves it. -/
theorem BeforeEnd.facts {s u : State} {c d : Ctx} (h : BeforeEnd s u c d) (o : SweepOutcome) {v : State}
    (hv : endSweep u o [] = v) :
    sweepEnded s v c ∧ v.claims = u.claims ∧ alertAnswered s (settleSelect v) c ∧
    (settleSelect v).comp.results = v.comp.results ∧
    (s.notices.fifo.length < 32 → ⟨.sweepDone c.span o, s.clock.tod⟩ ∈ (settleSelect v).notices.fifo) ∧
    (settleSelect v).store = u.store ∧ (settleSelect v).trace = u.trace ∧ (settleSelect v).port = u.port := by
  subst hv
  exact ⟨h.ended o [], by simp, alertAnswered_congr (h.answered o []) rfl rfl rfl rfl rfl (by simp), by simp,
    fun hroom => by simpa using h.done hroom, by simp, by simp, by simp⟩

/-! ### The problem that a comparison solves (R109 to R113, R124) -/

theorem heldOf_eq {n : Nat} {x : ResultRecord} (h : s.comp.results.find n = some x) : heldOf s n = x.held := by
  rw [heldOf, h]

theorem problemOf_ref {c : Ctx} {r : SpanRecord} {j v : Nat} (hj : j < r.len) (h : s.store.mem.find (r.cell j) = some v) :
    (problemOf s c r).ref j = v := by
  simp [problemOf, Problem.ref, hj, readLevel, h]

end Sys2Proof.Machine

namespace Sys2Proof

open Machine

/-- Settles O47: the fields of `problemOf`, then `finishComparison` by its branches. -/
theorem comparisonDecidesTheSweep : Obligations.ComparisonDecidesTheSweep := by
  intro s
  refine ⟨fun h => exec_comparisonComplete_none s h, ?_, ?_⟩
  · rintro c r p rfl
    refine ⟨rfl, rfl, rfl, rfl, rfl, rfl, rfl, by simp [problemOf], fun j v hj hv => problemOf_ref s hj hv,
      fun h => ?_, fun base count h => ?_, fun x hx => heldOf_eq s hx⟩
    · simp [problemOf, compRange, h]
    · simp [problemOf, compRange, h]
  · intro c r hc hst hr hvalid
    have hexec := exec_comparisonComplete s hc hst hr hvalid
    refine ⟨fun habs hk => ?_, fun hp hq he => ?_, fun hp hclean hend => ?_, fun hk hq => ?_⟩
    · rw [finishComparison_absent s r habs, afterComparison_ends s none hk] at hexec
      have hb := BeforeEnd.of_working s hc none
      obtain ⟨hended, hclaims, hans, hcomp, hdone, hstore, htr, hport⟩ := hb.facts .noReference rfl
      exact ⟨_, hexec, fun x hx => (congrArg (Table.find · c.span) hcomp).trans (hb.record [] rfl hx), hdone,
        ⟨_, rfl, hended, hclaims⟩, hans, htr, hstore, hport⟩
    · rw [hexec, finishComparison_quick s r hp hq, if_neg he, escalate_eq s hc]
    · have hb := BeforeEnd.of_working s hc (some (compared s c r))
      by_cases hq : c.quickOnly = true
      · have hout := compared_clean s (hclean hq)
        rw [finishComparison_quick s r hp hq, if_pos (hclean hq), quickClean_eq] at hexec
        obtain ⟨hended, hrel, hans, hcomp, hdone, hstore, htr, hport⟩ := releasedEnd_facts s hb rfl rfl rfl .clean rfl
        refine ⟨_, hexec, fun x hx => ⟨_, (congrArg (Table.find · c.span) hcomp).trans
            ((hb.released _).recordCompared [] (writtenPart_working (by simp [withWorking]) rfl) hx), rfl, by rw [hout], rfl, rfl⟩,
          by rwa [hout], ⟨_, rfl, hended, fun _ => hrel, fun h => by rw [hq] at h; cases h⟩, hans, htr, hstore, hport⟩
      · have hk := hend.resolve_left hq
        rw [finishComparison_full s r hp (by simpa using hq), afterComparison_ends s _ hk] at hexec
        obtain ⟨hended, hclaims, hans, hcomp, hdone, hstore, htr, hport⟩ := hb.facts (compared s c r).outcome rfl
        exact ⟨_, hexec, fun x hx => ⟨_, (congrArg (Table.find · c.span) hcomp).trans
            (hb.recordCompared [] (writtenPart_working rfl (compared_writes s c r)) hx), rfl, rfl, rfl, rfl⟩,
          hdone, ⟨_, rfl, hended, fun h => absurd h hq, fun _ => hclaims⟩, hans, htr, hstore, hport⟩
    · have hafter : finishComparison s c r =
          enterStoring (withWorking s (if c.refPresent then some (compared s c r) else none)) c.span := by
        cases hp : c.refPresent with
        | false => exact (finishComparison_absent s r hp).trans (afterComparison_baseline s _ hk)
        | true => exact (finishComparison_full s r hp hq).trans (afterComparison_baseline s _ hk)
      rw [hafter, enterStoring_eq (withWorking s (if c.refPresent then some (compared s c r) else none)) (c := c) hc] at hexec
      exact ⟨_, hexec, rfl, rfl, fun m => find_adjust_at s.comp.results c.span m fun x => { x with held := none }, rfl, rfl⟩

end Sys2Proof

/-! ## The end of a baseline write, and a suspended sweep abandoned (R11, R61) -/

namespace Sys2Proof.Machine

-- The kernel checks the lemmas one after another: many at once take a thread each.
set_option Elab.async false

variable (s : State)

/-! ### The cells of a baseline write (R2, R10) -/

theorem find_copyTrace_in {n k i : Nat} {r : SpanRecord} (hr : enabledRec s n = some r) (hk : k ≤ s.trace.entries.length)
    (hi : i < k) : (copyTrace s n k).store.mem.find (r.cell i) = some (s.trace.entries.getD i (2047, false)).1 := by
  have hcell : r.cell i = r.cell 0 + i := by rw [← cell_add, Nat.zero_add]
  simp only [copyTrace, hr, find_writeLevels, List.length_map, List.length_take]
  rw [hcell, if_pos (by omega), Nat.add_sub_cancel_left, List.getElem?_map, List.getElem?_take_of_lt hi,
    List.getD_eq_getElem?_getD, List.getElem?_eq_getElem (by omega)]
  rfl

theorem find_copyTrace_out {n k a : Nat} {r : SpanRecord} (hr : enabledRec s n = some r) (hk : k ≤ s.trace.entries.length)
    (h : ∀ i, i < k → a ≠ r.cell i) : (copyTrace s n k).store.mem.find a = s.store.mem.find a := by
  simp only [copyTrace, hr, find_writeLevels, List.length_map, List.length_take]
  rw [if_neg]
  intro ⟨h1, h2⟩
  refine h (a - r.cell 0) (by omega) ?_
  have hcell := cell_add r 0 (a - r.cell 0)
  rw [Nat.zero_add] at hcell
  rw [hcell]
  omega

/-! ### BASELINE_WRITE_COMPLETE (R11) -/

theorem fpOf_of_store {t u : State} (h : t.store = u.store) (n : Nat) : fpOf t n = fpOf u n := by
  unfold fpOf
  rw [h]

theorem exec_baselineWriteComplete {c : Ctx} {r : SpanRecord} (hc : s.engine.ctx = some c) (hst : s.engine.state = .storing)
    (hr : enabledRec s c.span = some r) :
    exec .baselineWriteComplete s = .next (settleSelect (endSweep (writeComplete s c.span r) .baselined [])) := by
  show Host.Outcome.next _ = _
  rw [sweepIn_mem s hc (by rw [hst]; exact List.mem_singleton_self _) hr]

theorem writeComplete_eq (n : Nat) (r : SpanRecord) :
    writeComplete s n r = { s with store := (writeComplete s n r).store } := by
  simp only [writeComplete, copyTrace]
  cases enabledRec s n <;> rfl

theorem BeforeEnd.of_writeComplete {c : Ctx} (hc : s.engine.ctx = some c) (r : SpanRecord) :
    BeforeEnd s (writeComplete s c.span r) c c := by
  rw [writeComplete_eq]
  exact { ctx := hc, cfg := rfl, alerts := rfl, clock := rfl, acc := rfl, results := rfl, notices := rfl }

/-- The result record of a sweep, whatever it wrote (R126, R127). -/
theorem BeforeEnd.recordWritten {s u : State} {c d : Ctx} (h : BeforeEnd s u c d) {o : SweepOutcome} (pre : List NoticeBody)
    {x : ResultRecord} (hx : s.comp.results.find c.span = some x) :
    (endSweep u o pre).comp.results.find c.span = some { x with
      latest := some ⟨o, c.kind, c.level, s.clock.tod, s.acc.current.lit, d.darkLevel⟩
      comparison := if writtenPart u o = none then x.comparison else writtenPart u o
      held := heldAfter c.kind (writtenPart u o) x.held } := by
  have hfind : u.comp.results.find d.span = some x := by rw [h.results, h.span, hx]
  rw [endSweep_results u h.ctx, ← h.span, find_writeResult u d o _ hfind, h.kind, h.level, h.clock, h.acc]

theorem heldAfter_baseline (w : Option Comparison) (old : Option Int) : heldAfter .baseline w old = old := by
  cases w with
  | none => rfl
  | some x => exact if_pos (.inr rfl)

/-! ### A selection with no suspended sweep -/

/-- What the save slot is made of: the context, the resume timer, and the accumulator slot in the save role. -/
def saveParts (s : State) : Option Ctx × Option Nat × AccSlot := (s.sched.save, s.sched.resumeExpiry, s.acc.slot s.acc.saved)

theorem Acc.discardSaved_saved (a : Acc) : a.discardSaved.slot a.discardSaved.saved = emptySlot := by
  by_cases h : a.active = 0 <;> simp [Acc.discardSaved, Acc.adjust, Acc.saved, Acc.slot, h]

theorem takeSlot_saveParts (n : Nat) : saveParts (takeSlot s n) = saveParts s := by
  unfold takeSlot
  split
  · exact congrArg (fun a => (s.sched.save, s.sched.resumeExpiry, a)) (Acc.claim_saved ..)
  · rfl

theorem checkPrepared_saveParts : saveParts (checkPrepared s) = saveParts s := by simp [saveParts]

theorem seekClaim_saveParts {n : Nat} (hsel : s.sched.selection = some (.slot n)) (g l : Nat) :
    saveParts (seekClaim s g l) = saveParts s := by
  have hask : saveParts (askClaim s g l) = saveParts s := by simp [saveParts]
  unfold seekClaim
  dsimp only
  split
  · rw [giveBack, (askClaim_keeps s g l).2.2.2.2.2.2.1, hsel]
    simp [saveParts, adjustSlot]
  · exact hask

theorem beginSlot_saveParts (n l : Nat) : saveParts (beginSlot s n l) = saveParts s := by
  have hsent : ∀ t : State, saveParts (sendSwitch t n) = saveParts t := fun t => by simp [saveParts]
  unfold beginSlot
  split
  · rw [checkPrepared_saveParts, takeSlot_saveParts, hsent]
    rfl
  · rw [seekClaim_saveParts (n := n) _ (by simp), hsent]
    rfl

/-- A selection that finds the save slot empty leaves it empty. -/
theorem settleSelect_saveParts (h : s.sched.save = none) : saveParts (settleSelect s) = saveParts s := by
  have hsettle : saveParts (settleSelect s) = saveParts (select s) := by simp [saveParts, settleSelect]
  rw [hsettle]
  rcases select_cases s with hs | ⟨c, hc, _⟩ | ⟨n, l, hs⟩
  · rw [hs]
  · rw [h] at hc
    cases hc
  · rw [hs, beginSlot_saveParts]

/-! ### RESUME_TIMER_EXPIRY (R61) -/

theorem exec_resumeTimer_none (h : s.sched.resumeExpiry = none ∨ s.sched.save = none) : exec .resumeTimerExpiry s = .next s := by
  refine congrArg Host.Outcome.next (if_neg ?_)
  rcases h with h | h
  · simp [h, isDue]
  · simp [h]

theorem exec_resumeTimer {e : Nat} {c : Ctx} (he : s.sched.resumeExpiry = some e) (hc : s.sched.save = some c) :
    exec .resumeTimerExpiry s = .next (if e ≤ s.clock.now then settleSelect (endSuspended s .abandoned) else s) := by
  show Host.Outcome.next (if isDue s s.sched.resumeExpiry && s.sched.save.isSome then _ else _) = _
  rw [he, hc, isDue_some, Option.isSome_some, Bool.and_true]
  simp only [decide_eq_true_eq]

/-- What the end of the suspended sweep leaves (R61, R62). -/
theorem endSuspended_facts {c : Ctx} (hc : s.sched.save = some c) {o : SweepOutcome} (ho : o.writesComparison = false) :
    saveParts (endSuspended s o) = (none, none, emptySlot) ∧
    (∀ x, s.comp.results.find c.span = some x → (endSuspended s o).comp.results.find c.span = some { x with
      latest := some ⟨o, c.kind, c.level, s.clock.tod, c.litDone, c.darkLevel⟩ }) ∧
    (s.notices.fifo.length < 32 → ⟨.sweepDone c.span o, s.clock.tod⟩ ∈ (endSuspended s o).notices.fifo) ∧
    alertAnswered s (endSuspended s o) c := by
  have hw : writtenPart (saveEmptied s) o = none := if_neg (by rw [ho]; nofun)
  rw [endSuspended_eq hc]
  refine ⟨?_, fun x hx => ?_, fun hroom => ?_, ?_⟩
  · simp only [saveParts, sweepOver_keeps, confirmReport_keeps, post_keeps, writeResult_keeps]
    refine Prod.ext rfl (Prod.ext rfl ?_)
    exact Acc.discardSaved_saved s.acc
  · have hfind := find_writeResult (saveEmptied s) c o c.litDone (x := x) hx
    rw [hw, if_pos rfl] at hfind
    simp only [sweepOver_keeps, confirmReport_keeps, post_keeps]
    exact hfind
  · refine ((Reports.confirmReport _ c none).trans (.sweepOver _ c)).fifo.subset ?_
    rw [post_fifo _ _ (by simpa [saveEmptied] using hroom)]
    simp [saveEmptied]
  · exact alertAnswered_congr (sweepOver_answers _ c) (by simp [saveEmptied]) (by simp [saveEmptied]) (by simp [saveEmptied])
      rfl rfl rfl

end Sys2Proof.Machine

namespace Sys2Proof

open Machine

/-- Settles O49: `writeComplete` and the end of its sweep; `endSuspended` at the resume limit. -/
theorem baselinesCompleteAndSweepsAreAbandoned : Obligations.BaselinesCompleteAndSweepsAreAbandoned := by
  intro s
  refine ⟨fun h => ?_, fun c r hc hst hr => ?_, fun h => exec_resumeTimer_none s h, fun e he hlt => ?_,
    fun e c he hle hc => ?_⟩
  · show Host.Outcome.next _ = _
    rw [sweepIn_none s (by simpa using h)]
  · have hb := BeforeEnd.of_writeComplete s hc r
    obtain ⟨hended, hclaims, hans, hcomp, hdone, hstore, htr, hport⟩ := hb.facts .baselined rfl
    have hfp : ∀ m, fpOf (writeComplete s c.span r) m = if m = c.span then .present else fpOf s m := fun m =>
      (fpOf_setFp ..).trans (by simp only [fpOf, setDir, (copyTrace_dir s c.span _).2.1])
    have hworking : writtenPart (writeComplete s c.span r) .baselined = s.comp.working := by
      rw [writeComplete_eq]
      rfl
    refine ⟨_, exec_baselineWriteComplete s hc hst hr, ?_, fun m hm => ?_, fun i hi => ?_, fun a ha => ?_, fun o ho => ?_, ?_,
      fun x hx => ⟨_, (congrArg (Table.find · c.span) hcomp).trans (hb.recordWritten [] hx), rfl, rfl, ?_, fun hk => ?_⟩, hdone,
      ⟨_, rfl, hended, hclaims.trans ?_⟩, hans⟩
    · rw [fpOf_of_store hstore, hfp, if_pos rfl]
    · rw [fpOf_of_store hstore, hfp, if_neg hm]
    · rw [hstore]
      exact find_copyTrace_in s hr (Nat.le_refl _) hi
    · rw [hstore]
      exact find_copyTrace_out s hr (Nat.le_refl _) ha
    · rw [hstore]
      exact find_setDir_in _ c.span r ho
    · rw [hstore]
      exact (copyTrace_dir s c.span _).2.2
    · rw [hworking]
    · rw [hk]
      exact heldAfter_baseline ..
    · rw [writeComplete_eq]
  · cases hc : s.sched.save with
    | none => exact exec_resumeTimer_none s (.inr hc)
    | some c => rw [exec_resumeTimer s he hc, if_neg (Nat.not_le.2 hlt)]
  · obtain ⟨hsave, hrecord, hdone, hans⟩ := endSuspended_facts s hc (o := .abandoned) rfl
    have hparts := settleSelect_saveParts (endSuspended s .abandoned) (congrArg Prod.fst hsave)
    rw [hsave] at hparts
    refine ⟨_, by rw [exec_resumeTimer s he hc, if_pos hle], congrArg Prod.fst hparts,
      congrArg (·.2.1) hparts, congrArg (·.2.2) hparts, fun x hx => ?_, fun hroom => ?_, ?_, by simp, by simp⟩
    · simpa using hrecord x hx
    · simpa using hdone hroom
    · exact alertAnswered_congr hans rfl rfl rfl rfl rfl (by simp)

end Sys2Proof

/-! ## What stops a sweep: faults, HALT, ISOLATED (R57, R60, R86, R87, R89) -/

namespace Sys2Proof.Machine

-- The kernel checks the lemmas one after another: many at once take a thread each.
set_option Elab.async false

variable (s : State)

/-! ### A claim given up (R167) -/

theorem find_setClaim (g k : Nat) (st : ClaimState) : (setClaim s g st).claims.find k =
    if k = g then (s.claims.find g).map fun e => { e with state := st } else s.claims.find k :=
  find_adjust_at s.claims g k fun e => { e with state := st }

theorem find_setStale (g k : Nat) (m : Option (StaleMark × Nat)) : (setStale s g m).claims.find k =
    if k = g then (s.claims.find g).map fun e => { e with stale := m } else s.claims.find k :=
  find_adjust_at s.claims g k fun e => { e with stale := m }

theorem giveUpClaim_waiting {g l e : Nat} {m : Option (StaleMark × Nat)} (h : s.claims.find g = some ⟨.claiming l (some e), m⟩) :
    giveUpClaim s g = offer (setClaim s g .free) l (.release g l) := by rw [giveUpClaim, h]

/-- The table and the queue after a CLAIM that was not yet transmitted is given up. -/
theorem giveUpClaim_asking {g l : Nat} {m : Option (StaleMark × Nat)} (h : s.claims.find g = some ⟨.claiming l none, m⟩) :
    (giveUpClaim s g).line = (askRemove s (isClaimOrHold g)).line ∧ ∀ k, (giveUpClaim s g).claims.find k =
      if k = g then some ⟨.free, if m = none ∧ inAttempt s (isClaimOf g) = true then some (.givenUp, l) else m⟩
      else s.claims.find k := by
  have hmark : currentInAttempt s g ⟨.claiming l none, m⟩ = true ↔ m = none ∧ inAttempt s (isClaimOf g) = true := by
    simp [currentInAttempt, and_comm]
  have hset : ∀ k, (setClaim (askRemove s (isClaimOrHold g)) g .free).claims.find k =
      if k = g then some ⟨.free, m⟩ else s.claims.find k := fun k => by
    rw [find_setClaim, show (askRemove s (isClaimOrHold g)).claims = s.claims from rfl, h]
    rfl
  rw [giveUpClaim, h]
  dsimp only
  by_cases hc : m = none ∧ inAttempt s (isClaimOf g) = true
  · rw [if_pos (hmark.2 hc), if_pos hc]
    refine ⟨rfl, fun k => ?_⟩
    rw [find_setStale]
    by_cases hk : k = g
    · rw [if_pos hk, if_pos hk, hset, if_pos rfl]
      rfl
    · rw [if_neg hk, if_neg hk, hset, if_neg hk]
  · rw [if_neg (mt hmark.1 hc), if_neg hc]
    exact ⟨rfl, hset⟩

theorem giveUpClaim_claims (g : Nat) {k : Nat} (hk : k ≠ g) : (giveUpClaim s g).claims.find k = s.claims.find k := by
  have hset : (setClaim s g .free).claims.find k = s.claims.find k := (find_setClaim ..).trans (if_neg hk)
  unfold giveUpClaim
  split
  · rw [offer_eq]
    exact hset
  · next l m h =>
    have := (giveUpClaim_asking s h).2 k
    rw [if_neg hk, giveUpClaim, h] at this
    exact this
  · rfl

/-- What is given up stays so in the reports that follow (R167). -/
theorem claimGivenUp_then {v : State} {g : Nat} (h : Reports (giveUpClaim s g) v) : claimGivenUp s v g := by
  refine ⟨fun k hk => by rw [h.claims, giveUpClaim_claims s g hk], fun l e m hf => ?_, fun l m hf => ?_⟩
  · have heq := giveUpClaim_waiting s hf
    rw [heq] at h
    have hclaims : (setClaim s g .free).claims.find g = some ⟨.free, m⟩ := by
      rw [find_setClaim, if_pos rfl, hf]
      rfl
    refine ⟨by rw [h.claims, offer_eq]; exact hclaims, fun hon => ⟨h.keeps (offer_busy _ _ _ hon) _ _ rfl ?_, ?_⟩⟩
    · exact offer_hasFrame _ _ _ hon (.inl rfl)
    · refine claimFree_of_reports h fun f hq => ?_
      unfold offer at hq
      rw [if_pos (by simp only [canSend, Bool.and_eq_true, decide_eq_true_eq]; exact hon)] at hq
      rcases mem_enterClaimFrame _ _ _ (startAttempt_queue _ _ hq) with rfl | hq
      · exact ⟨rfl, rfl⟩
      · simpa using (List.mem_filter.1 hq).2
  · obtain ⟨hline, hclaims⟩ := giveUpClaim_asking s hf
    refine ⟨by rw [h.claims, hclaims, if_pos rfl], claimFree_of_reports h fun f hq => ?_, fun f hmem hrel => ?_⟩
    · rw [hline] at hq
      simpa [isClaimOrHold] using (List.mem_filter.1 hq).2
    · have hall := h.all f hmem (isClaimFrame_of_isReleaseOf hrel)
      rw [hline] at hall
      exact List.mem_append.2 ((List.mem_append.1 hall).imp_left fun hq => (List.mem_filter.1 hq).1)

theorem claimGivenUp_of_source {s s' t : State} {g : Nat} (h : claimGivenUp s t g) (claims : s'.claims = s.claims)
    (line : s'.line = s.line) (port : s'.port = s.port) : claimGivenUp s' t g := by
  unfold claimGivenUp State.onLine inAttempt at h ⊢
  rwa [claims, line, port]

/-! ### A preparation given back (R57, R60) -/

theorem resumeReturned_congr {s s' t t' : State} {c : Ctx} (h : resumeReturned s t c) (now : s'.clock.now = s.clock.now)
    (left : s'.sched.resumeLeft = s.sched.resumeLeft) (acc : s'.acc = s.acc) (sched : t'.sched = t.sched)
    (engine : t'.engine = t.engine) (after : t'.acc = t.acc) : resumeReturned s' t' c := by
  unfold resumeReturned at h ⊢
  rwa [now, left, acc, sched, engine, after]

theorem stopSweep_untaken {n : Nat} (hsel : s.sched.selection ≠ none) (hn : engineSpan s = some n) (o : SweepOutcome)
    (pre : List NoticeBody) : stopSweep s o pre = giveBack (giveUpClaim s (lightGroupOf s n)) := by
  rw [stopSweep, if_pos (show isUntaken s = true from Option.isSome_iff_ne_none.2 hsel), hn]

theorem stopSweep_taken (hsel : s.sched.selection = none) (o : SweepOutcome) (pre : List NoticeBody) :
    stopSweep s o pre = abort s o pre := if_neg (by rw [isUntaken, hsel]; nofun)

theorem giveBack_slot {n : Nat} (h : s.sched.selection = some (.slot n)) : giveBack s = { s with
    sched := { s.sched with
      slots := s.sched.slots.adjust n fun r => { r with selected := false }
      selection := none }
    engine := { s.engine with state := .idle, ctx := none } } := by
  rw [giveBack, h]
  rfl

theorem giveBack_engine (h : s.sched.selection ≠ none) :
    (giveBack s).engine = { s.engine with state := .idle, ctx := none } ∧ (giveBack s).sched.selection = none := by
  cases hs : s.sched.selection with
  | none => exact absurd hs h
  | some x => cases x <;> (rw [giveBack, hs]; exact ⟨rfl, rfl⟩)

theorem Reports.giveBack : Reports s (giveBack s) := of_eq

/-! ### A sweep aborted (R86, R87) -/

theorem BeforeEnd.aborted {s u : State} {c d : Ctx} (h : BeforeEnd s u c d) (n : Nat) :
    BeforeEnd s (stopReduction (stopWrite (dropClaim u n) n)) c d :=
  { h with
    ctx := by simp [stopReduction, h.ctx], cfg := by simp [stopReduction, h.cfg], alerts := by simp [stopReduction, h.alerts]
    clock := by simp [stopReduction, h.clock], acc := by simp [stopReduction, h.acc]
    results := by simp [stopReduction, h.results], notices := by simp [stopReduction, h.notices] }

theorem BeforeEnd.of_same {s u : State} {c : Ctx} (hc : u.engine.ctx = some c) (cfg : u.cfg = s.cfg) (alerts : u.alerts = s.alerts)
    (clock : u.clock = s.clock) (acc : u.acc = s.acc) (comp : u.comp = s.comp) (notices : u.notices = s.notices) :
    BeforeEnd s u c c where
  ctx := hc
  cfg := cfg
  alerts := alerts
  clock := clock
  acc := acc
  results := by rw [comp]
  notices := notices

theorem endSweep_engine {c : Ctx} (hc : s.engine.ctx = some c) (o : SweepOutcome) (pre : List NoticeBody) :
    (endSweep s o pre).engine = { s.engine with state := .idle, ctx := none } := by
  rw [endSweep_eq hc]
  show ({ (sweepClosed s c o pre).engine with state := .idle, ctx := none } : Engine) = _
  rw [show (sweepClosed s c o pre).engine = s.engine by simp [sweepClosed]]

theorem abort_engine {c : Ctx} (hc : s.engine.ctx = some c) (o : SweepOutcome) (pre : List NoticeBody) :
    (abort s o pre).engine = { s.engine with state := .idle, ctx := none } := by
  rw [abort_eq s hc, endSweep_engine _ (c := c) (by simp [stopReduction, hc])]
  simp [stopReduction]

theorem Reports.abort {c : Ctx} (hc : s.engine.ctx = some c) (o : SweepOutcome) (pre : List NoticeBody) :
    Reports (dropClaim s c.span) (abort s o pre) := by
  rw [abort_eq s hc]
  refine Reports.trans ?_ (Reports.endSweep ..)
  exact .of_eq (by simp [stopReduction]) (by simp [stopReduction]) (by simp [stopReduction])

/-- The notices that an end posts first find room before those that follow (R85). -/
theorem endSweep_told_first {c : Ctx} (hc : s.engine.ctx = some c) (o : SweepOutcome) {pre post : List NoticeBody} {b : NoticeBody}
    (hb : b ∈ pre) (hroom : s.notices.fifo.length + pre.length ≤ 32) :
    ⟨b, s.clock.tod⟩ ∈ (endSweep s o (pre ++ post)).notices.fifo := by
  have hpre := mem_postAll (writeResult s c o s.acc.current.lit) hb (by simpa using hroom)
  rw [endSweep_eq hc]
  refine ((((Reports.confirmReport _ _ _).trans (.findingDecision _ _ _ _)).trans (.sweepOver _ _)).fifo.subset ?_)
  have happ : ∀ (t : State) (xs ys : List NoticeBody), postAll t (xs ++ ys) = postAll (postAll t xs) ys :=
    fun t xs ys => List.foldl_append
  rw [List.append_assoc, happ]
  exact (Reports.postAll _ _).fifo.subset (by simpa using hpre)

theorem sweepEnded_congr {s s' t t' : State} {c : Ctx} (h : sweepEnded s t c) (before : s'.alerts = s.alerts) (cfg : s'.cfg = s.cfg)
    (now : s'.clock.now = s.clock.now) (acc : s'.acc = s.acc) (alerts : t'.alerts = t.alerts) (engine : t'.engine = t.engine)
    (sched : t'.sched = t.sched) (after : t'.acc = t.acc) (comp : t'.comp = t.comp) : sweepEnded s' t' c := by
  obtain ⟨hans, hrest⟩ := h
  refine ⟨alertAnswered_congr hans before cfg now rfl rfl alerts, ?_⟩
  rwa [engine, sched, after, comp, acc]

/-- The end of a sweep by an abort (R85, R87). -/
theorem abort_facts {s u : State} {c d : Ctx} (h : BeforeEnd s u c d) (o : SweepOutcome) (pre : List NoticeBody) :
    sweepEnded s (abort u o pre) c ∧
    (∀ x, s.comp.results.find c.span = some x → (abort u o pre).comp.results.find c.span = some { x with
      latest := some ⟨o, c.kind, c.level, s.clock.tod, s.acc.current.lit, d.darkLevel⟩ }) ∧
    (s.notices.fifo.length + pre.length + (writeCutNotice u c.span).length < 32 →
      ⟨.sweepDone c.span o, s.clock.tod⟩ ∈ (abort u o pre).notices.fifo) ∧
    ∀ b ∈ pre ++ writeCutNotice u c.span, s.notices.fifo.length + pre.length + (writeCutNotice u c.span).length ≤ 32 →
      ⟨b, s.clock.tod⟩ ∈ (abort u o pre).notices.fifo := by
  have hb := h.aborted c.span
  have hspan := h.span
  rw [abort_eq u h.ctx, hspan]
  refine ⟨hb.ended _ _, fun x hx => hb.record _ (writtenPart_stopReduction _ _) hx, fun hroom => hb.told ?_ ?_, fun b hmem hroom => ?_⟩
  · exact List.mem_append_right _ (List.mem_singleton_self _)
  · rw [List.length_append]
    omega
  · have htold := endSweep_told_first _ hb.ctx o (post := []) hmem
    rw [List.append_nil, hb.notices, hb.clock, List.length_append] at htold
    exact htold (by omega)

theorem abort_told_first {s u : State} {c d : Ctx} (h : BeforeEnd s u c d) (o : SweepOutcome) {pre : List NoticeBody}
    {b : NoticeBody} (hb : b ∈ pre) (hroom : s.notices.fifo.length + pre.length ≤ 32) :
    ⟨b, s.clock.tod⟩ ∈ (abort u o pre).notices.fifo := by
  have ha := h.aborted c.span
  have htold := endSweep_told_first _ ha.ctx o (post := writeCutNotice u c.span) hb (by rwa [ha.notices])
  have hspan := h.span
  rwa [ha.clock, ← hspan, ← abort_eq u h.ctx] at htold

/-! ### The laser driver (R89) -/

theorem BeforeEnd.of_faultTaken {c : Ctx} (hc : s.engine.ctx = some c) (flag : Option LaserCode) :
    BeforeEnd s (faultTaken s flag) c c := .of_same hc rfl rfl rfl rfl rfl rfl

theorem settleSelect_faulted (h : s.engine.laserFault ≠ none) : settleSelect s = refreshDoze s := by
  have hslot : ∀ n r, slotCandidate s n r = false := fun n r => by
    rw [← Bool.not_eq_true, slotCandidate_conditions]
    rintro ⟨_, _, _, _, _, _, hf, _⟩
    exact h hf
  have hsave : saveCandidate s = false := by
    rw [← Bool.not_eq_true]
    intro hc
    cases hs : s.sched.save with
    | none => rw [saveCandidate, hs] at hc; cases hc
    | some c =>
      obtain ⟨_, _, _, _, _, hf, _⟩ := (saveCandidate_conditions s hs).1 hc
      exact h hf
  have hpending : pendingCandidate s = false := by
    rw [← Bool.not_eq_true, pendingCandidate_iff]
    rintro ⟨e, _, he⟩
    rw [hslot] at he
    cases he
  rw [settleSelect, select_none s (fun _ _ => hslot _ _) hsave, settle_quiet s (.inr hpending)]

/-- The notice of a laser fault report that sets the flag comes first (R89). -/
def faultNotices (s : State) (code : LaserCode) : List NoticeBody :=
  if s.engine.laserFault = none then [.laserFault ((engineSpan s).getD 0) code] else []

/-- What a laser fault report stops, before the corroboration unit hears of it. -/
def faultStopped (s : State) (code : LaserCode) : State :=
  faultOnSweep (faultTaken s (some (s.engine.laserFault.getD code))) (faultNotices s code)

theorem takeFault_cases (code : LaserCode) :
    takeFault s code = faultStopped s code ∨ takeFault s code = unableBegins (faultStopped s code) := by
  rw [takeFault_eq, faultStopped, faultNotices]
  cases h : s.engine.laserFault with
  | none => exact .inr rfl
  | some c => exact .inl rfl

theorem faultOnSweep_flags (pre : List NoticeBody) : (faultOnSweep s pre).engine.condition = s.engine.condition ∧
    (faultOnSweep s pre).engine.laserFault = s.engine.laserFault := by
  unfold faultOnSweep
  split
  · next hu =>
    have hsel : s.sched.selection ≠ none := Option.isSome_iff_ne_none.1 hu
    cases hn : engineSpan s with
    | none =>
      rw [stopSweep, if_pos (by simpa [isUntaken] using hu), show engineSpan (postAll s pre) = none by simpa [engineSpan, selectedSlot] using hn]
      simp
    | some n =>
      rw [stopSweep_untaken (n := n) _ (by simpa using hsel) (by simpa [engineSpan, selectedSlot] using hn),
        (giveBack_engine _ (by simpa using hsel)).1]
      simp
  · split
    · next he =>
      cases hc : s.engine.ctx with
      | none => rw [abort, hc]; exact ⟨rfl, rfl⟩
      | some c => rw [abort_engine s hc]; exact ⟨rfl, rfl⟩
    · simp

/-- The end of the row adds reports to what the fault stopped. -/
theorem faultReported (code : LaserCode) {t : State} (ht : settleSelect (takeFault s code) = t) :
    t.engine = (faultStopped s code).engine ∧ t.sched = (faultStopped s code).sched ∧ t.acc = (faultStopped s code).acc ∧
    t.comp = (faultStopped s code).comp ∧ t.store = (faultStopped s code).store ∧ t.alerts = (faultStopped s code).alerts ∧
    Reports (faultStopped s code) t := by
  obtain ⟨_, hflag⟩ := faultOnSweep_flags (faultTaken s (some (s.engine.laserFault.getD code))) (faultNotices s code)
  have hset : (faultStopped s code).engine.laserFault ≠ none := by
    rw [faultStopped, hflag]
    nofun
  rcases takeFault_cases s code with h | h
  · rw [h, settleSelect_faulted _ hset] at ht
    subst ht
    exact ⟨by simp, by simp, by simp, by simp, by simp, by simp, .of_eq⟩
  · rw [h, settleSelect_faulted _ (by simpa using hset)] at ht
    subst ht
    exact ⟨by simp, by simp, by simp, by simp, by simp, by simp, (Reports.unableBegins _).trans .of_eq⟩

theorem faultStopped_untaken {n : Nat} (code : LaserCode) (hsel : s.sched.selection ≠ none) (hn : engineSpan s = some n) :
    ∃ u, u.sched = s.sched ∧ u.engine.ctx = s.engine.ctx ∧ u.acc = s.acc ∧ u.clock = s.clock ∧ u.claims = s.claims ∧
      u.line = s.line ∧ u.port = s.port ∧ u.cfg = s.cfg ∧
      u = postAll (faultTaken s (some (s.engine.laserFault.getD code))) (faultNotices s code) ∧
      faultStopped s code = giveBack (giveUpClaim u (lightGroupOf s n)) := by
  refine ⟨_, by simp [faultTaken], by simp [faultTaken], by simp [faultTaken], by simp [faultTaken], by simp [faultTaken],
    by simp [faultTaken], by simp [faultTaken], by simp [faultTaken], rfl, ?_⟩
  have hu : isUntaken (faultTaken s (some (s.engine.laserFault.getD code))) = true := Option.isSome_iff_ne_none.2 hsel
  rw [faultStopped, faultOnSweep, if_pos hu, stopSweep_untaken (n := n) _ (by simpa [faultTaken] using hsel)
    (by simpa [engineSpan, selectedSlot, faultTaken] using hn)]
  simp [lightGroupOf, enabledRec, faultTaken]

theorem faultStopped_ends {c : Ctx} (code : LaserCode) (hsel : s.sched.selection = none) (hc : s.engine.ctx = some c)
    (h : s.engine.state ∈ [EngineState.preparing, .dark, .quick, .full] ∨ (s.engine.state = .reducing ∧ c.quickOnly = true)) :
    faultStopped s code = abort (faultTaken s (some (s.engine.laserFault.getD code))) .fault (faultNotices s code) := by
  have hu : isUntaken (faultTaken s (some (s.engine.laserFault.getD code))) = false := by simp [isUntaken, faultTaken, hsel]
  have hends : faultEnds (faultTaken s (some (s.engine.laserFault.getD code))) = true := by
    have hc' : (faultTaken s (some (s.engine.laserFault.getD code))).engine.ctx = some c := hc
    rw [faultEnds_eq hc']
    show mayHoldClaim c s.engine.state = true
    rcases h with h | ⟨h, hq⟩
    · simp only [List.mem_cons, List.not_mem_nil, or_false] at h
      rcases h with h | h | h | h <;> rw [h] <;> rfl
    · rw [h]
      exact hq
  rw [faultStopped, faultOnSweep, if_neg (by rw [hu]; nofun), if_pos hends]

theorem faultStopped_goesOn (code : LaserCode) (hsel : s.sched.selection = none)
    (h : ∀ c, s.engine.ctx = some c → mayHoldClaim c s.engine.state = false) :
    faultStopped s code = postAll (faultTaken s (some (s.engine.laserFault.getD code))) (faultNotices s code) := by
  have hu : isUntaken (faultTaken s (some (s.engine.laserFault.getD code))) = false := by simp [isUntaken, faultTaken, hsel]
  have hends : faultEnds (faultTaken s (some (s.engine.laserFault.getD code))) = false := by
    cases hc : s.engine.ctx with
    | none => simp [faultEnds, faultTaken, hc]
    | some c =>
      have hc' : (faultTaken s (some (s.engine.laserFault.getD code))).engine.ctx = some c := hc
      rw [faultEnds_eq hc']
      exact h c hc
  rw [faultStopped, faultOnSweep, if_neg (by rw [hu]; nofun), if_neg (by rw [hends]; nofun)]

/-- The notice of the flag, whatever the fault stops (R89). -/
theorem faultStopped_told (code : LaserCode) (h : s.engine.laserFault = none) (hroom : s.notices.fifo.length < 32) :
    ⟨.laserFault ((engineSpan s).getD 0) code, s.clock.tod⟩ ∈ (faultStopped s code).notices.fifo := by
  have hpre : .laserFault ((engineSpan s).getD 0) code ∈ faultNotices s code := by
    rw [faultNotices, if_pos h]
    exact List.mem_singleton_self _
  have hlen : s.notices.fifo.length + (faultNotices s code).length ≤ 32 := by
    rw [faultNotices, if_pos h]
    exact hroom
  have hposted : ⟨.laserFault ((engineSpan s).getD 0) code, s.clock.tod⟩ ∈
      (postAll (faultTaken s (some (s.engine.laserFault.getD code))) (faultNotices s code)).notices.fifo :=
    mem_postAll (faultTaken s (some (s.engine.laserFault.getD code))) hpre hlen
  unfold faultStopped faultOnSweep
  split
  · unfold stopSweep
    split
    · split
      · simpa using hposted
      · exact hposted
    · next hu hno =>
      exact absurd (by simpa [isUntaken] using hu) hno
  · split
    · next hends =>
      cases hc : s.engine.ctx with
      | none => rw [faultEnds, show (faultTaken s (some (s.engine.laserFault.getD code))).engine.ctx = none from hc] at hends; cases hends
      | some c =>
        exact abort_told_first (.of_faultTaken s hc _) .fault hpre hlen
    · exact hposted

end Sys2Proof.Machine

namespace Sys2Proof

open Machine

/-- Settles O50: what the fault stops, by the sweep in the engine, and the reports that follow. -/
theorem laserFaultsStopTheLaser : Obligations.LaserFaultsStopTheLaser := by
  intro s code
  refine ⟨fun h => ⟨congrArg Host.Outcome.next (if_neg h), congrArg Host.Outcome.next (if_neg h)⟩, fun hawake =>
    ⟨congrArg Host.Outcome.next (if_pos hawake), ?_⟩⟩
  have hexec : exec (.laserFaultReport code) s = .next (settleSelect (takeFault s code)) :=
    congrArg Host.Outcome.next (if_pos hawake)
  obtain ⟨hengine, hsched, hacc, hcomp, hstore, halerts, hreports⟩ := faultReported s code rfl
  obtain ⟨hcond, hflag⟩ := faultOnSweep_flags (faultTaken s (some (s.engine.laserFault.getD code))) (faultNotices s code)
  have hflag' : (faultStopped s code).engine.laserFault = some (s.engine.laserFault.getD code) := hflag
  have hspan : ∀ {c : Ctx}, s.engine.ctx = some c → engineSpan s = some c.span := fun hc => by rw [engineSpan, hc]
  refine ⟨_, hexec, by rw [hengine]; exact hcond, fun old hold => ?_, fun hnone => ⟨?_, fun hroom => ?_⟩,
    fun c x hc hsel hst hx => ?_, fun c hc hsel => ?_, fun n hsel hn => ?_, fun n hsel hc => ?_, fun c hc hsel hst => ?_,
    fun hc hsel => ?_⟩
  · rw [hengine, hflag', hold]
    rfl
  · rw [hengine, hflag', hnone]
    rfl
  · exact hreports.fifo.subset (faultStopped_told s code hnone hroom)
  · have heq := faultStopped_ends s code hsel hc hst
    have hb := BeforeEnd.of_faultTaken s hc (some (s.engine.laserFault.getD code))
    have hnot : s.engine.state ≠ .storing := by
      rcases hst with h | ⟨h, _⟩
      · intro he
        rw [he] at h
        simp at h
      · rw [h]; nofun
    obtain ⟨hended, hrecord, hdone, _⟩ := abort_facts hb .fault (faultNotices s code)
    rw [writeCutNotice_not_storing (faultTaken s (some (s.engine.laserFault.getD code))) _ hnot] at hdone
    rw [← heq] at hended hrecord hdone
    have hended' := sweepEnded_congr hended rfl rfl rfl rfl halerts hengine hsched hacc hcomp
    refine ⟨hended'.2.2.1, hended'.2.1, by rw [hcomp]; exact hrecord x hx, fun hroom => hreports.fifo.subset (hdone ?_), hended', ?_⟩
    · unfold faultNotices
      split
      · next h => rw [if_pos h] at hroom; exact hroom
      · next h => rw [if_neg h] at hroom; exact hroom
    · have hdrop : dropClaim (faultTaken s (some (s.engine.laserFault.getD code))) c.span =
          releaseClaim (faultTaken s (some (s.engine.laserFault.getD code))) (lightGroupOf s c.span) :=
        if_neg (by simp [isUntaken, faultTaken, hsel])
      have habort := Reports.abort (faultTaken s (some (s.engine.laserFault.getD code))) hc .fault (faultNotices s code)
      rw [hdrop, ← heq] at habort
      exact claimReleased_then (s := faultTaken s (some (s.engine.laserFault.getD code))) (habort.trans hreports)
  · obtain ⟨u, hus, huc, hua, huk, hucl, hul, hup, _, _, heq⟩ :=
      faultStopped_untaken s code (by rw [hsel]; nofun) (hspan hc)
    have hback := giveBack_save (giveUpClaim u (lightGroupOf s c.span)) c (by simp [hus, hsel]) (by simp [huc, hc])
    rw [← heq] at hback
    exact resumeReturned_congr hback (by simp [huk]) (by simp [hus]) (by simp [hua]) hsched hengine hacc
  · obtain ⟨u, hus, huc, hua, huk, hucl, hul, hup, _, _, heq⟩ := faultStopped_untaken s code hsel hn
    rw [heq] at hreports
    exact claimGivenUp_of_source (claimGivenUp_then u ((Reports.giveBack _).trans hreports)) hucl.symm hul.symm hup.symm
  · obtain ⟨u, hus, huc, hua, huk, hucl, hul, hup, _, _, heq⟩ := faultStopped_untaken s code (n := n) (by rw [hsel]; nofun)
      (by rw [engineSpan, hc, selectedSlot, hsel])
    rw [hengine, hsched, heq, giveBack_slot (n := n) _ (by simp [hus, hsel])]
    refine ⟨rfl, rfl, ?_⟩
    simp [hus]
  · have hgoes := faultStopped_goesOn s code hsel fun d hd => by
      cases hc.symm.trans hd
      rcases hst with h | ⟨h, hq⟩
      · rw [h]; rfl
      · rw [h]; exact hq
    rw [hengine, hcomp, hstore, hgoes]
    simp [faultTaken, hc]
  · have hgoes := faultStopped_goesOn s code hsel fun d hd => by rw [hc] at hd; cases hd
    rw [hengine, hgoes]
    simp [faultTaken]

end Sys2Proof

/-! ## RUN and HALT (R194, R195) -/

namespace Sys2Proof.Machine

-- The kernel checks the lemmas one after another: many at once take a thread each.
set_option Elab.async false

variable (s : State)

/-! ### PRESENCE after a change of the station state (R147) -/

/-- The clock unit after a row that announces the station state: a dozing one has been woken (R36). -/
def awakened (s : State) : ClockState := if s.clock.state = .dozing then .locking else s.clock.state

theorem awakened_ne : awakened s ≠ .dozing := by
  unfold awakened
  split
  · nofun
  · assumption

theorem announce_facts (h : s.port.station ≠ .isolated) :
    announce s = { s with
      peers := { s.peers with presence := some (s.clock.now + 1000) }
      clock := (announce s).clock, line := (announce s).line } ∧
    (announce s).clock.state = awakened s ∧ (announce s).clock.now = s.clock.now ∧
    (s.line.state ≠ .passive → (announce s).line.state ≠ .idle ∧
      ∃ p, (announce s).hasFrame 0 (.presence p s.cfg.sheathGroups) ∧
        (s.port.station = .halted → p = .halted) ∧ (s.port.station = .running → p = .running) ∧
        (s.port.station = .learning → p = .learning)) := by
  have hbusy : ∀ t : State, t.port.station ≠ .isolated → t.line.state ≠ .passive → (offerPresence t).line.state ≠ .idle := by
    intro t hstation hlive
    rw [offerPresence, if_neg hstation]
    exact offer_busy { t with peers := { t.peers with presence := some (after t Config.presencePeriod) } } _ _ ⟨hlive, hstation⟩
  have hstate : ∀ t : State, t.port = s.port → t.clock.state ≠ .dozing → (s.port.station = .halted → presenceState t = .halted) ∧
      (s.port.station = .running → presenceState t = .running) ∧ (s.port.station = .learning → presenceState t = .learning) := by
    intro t hport hawake
    unfold presenceState
    rw [if_neg hawake, hport]
    refine ⟨fun h => ?_, fun h => ?_, fun h => ?_⟩ <;> rw [h]
  by_cases hd : s.clock.state = .dozing
  · rw [announce, if_pos hd, wake_dozing s hd, awakened, if_pos hd]
    have hclock : (offerPresence (woken s)).clock = (woken s).clock := by simp
    refine ⟨by rw [hclock]; exact offerPresence_eq (woken s) h, by simp [woken], by simp [woken], fun hl => ⟨hbusy _ h hl, _,
      offerPresence_hasFrame (woken s) h hl, hstate (woken s) rfl nofun⟩⟩
  · rw [announce, if_neg hd, awakened, if_neg hd]
    refine ⟨?_, by simp, by simp, fun hl => ⟨hbusy _ h hl, _, offerPresence_hasFrame s h hl, hstate s rfl hd⟩⟩
    simpa using offerPresence_eq s h

/-! ### A frame that no CLAIM displaces -/

theorem askClaim_hasFrame {u : Nat} {b : FrameBody} (hb : isClaimFrame b = false) (hbusy : s.line.state ≠ .idle)
    (h : s.hasFrame u b) (g l : Nat) : (askClaim s g l).hasFrame u b := by
  unfold askClaim
  split
  · obtain ⟨f, hf, hu, hfb⟩ := h
    have hkept : f ∈ (s.line.queue.filter fun x => !isReleaseOf g x.body) ++ s.line.attempt.toList := by
      refine List.mem_append.2 ((List.mem_append.1 hf).imp_left fun hq => List.mem_filter.2 ⟨hq, ?_⟩)
      rw [Bool.not_eq_true', ← Bool.not_eq_true]
      intro hr
      rw [hfb] at hr
      rw [isClaimFrame_of_isReleaseOf hr] at hb
      cases hb
    refine ⟨f, ?_, hu, hfb⟩
    rw [offer_line_busy (setClaim (askRemove s (isReleaseOf g)) g (.claiming l none)) _ _ hbusy]
    split
    · exact List.mem_append.2 ((List.mem_append.1 hkept).imp_left fun hq =>
        mem_queueOffer_claim (f := ⟨s.line.nextAge, l, .claim g l⟩) rfl (by rwa [hfb]) hq)
    · exact hkept
  · exact h

theorem seekClaim_hasFrame {u : Nat} {b : FrameBody} (hb : isClaimFrame b = false) (hbusy : s.line.state ≠ .idle)
    (h : s.hasFrame u b) (g l : Nat) : (seekClaim s g l).hasFrame u b := by
  have hask := askClaim_hasFrame s hb hbusy h g l
  unfold seekClaim
  dsimp only
  split
  · simpa [State.hasFrame] using hask
  · exact hask

/-- A selection leaves waiting PRESENCE and FINDINGs (R139, R158). -/
theorem select_hasFrame {u : Nat} {b : FrameBody} (hb : isClaimFrame b = false) (hbusy : s.line.state ≠ .idle)
    (h : s.hasFrame u b) : (select s).hasFrame u b := by
  rcases select_cases s with hs | ⟨c, _, hs⟩ | ⟨n, l, hs⟩
  · rwa [hs]
  · rw [hs]
    unfold beginResume
    dsimp only
    split
    · simpa [State.hasFrame, stopDoze] using h
    · exact seekClaim_hasFrame _ hb (by simpa [stopDoze] using hbusy) (by simpa [State.hasFrame, stopDoze] using h) _ _
  · rw [hs]
    unfold beginSlot
    dsimp only
    split
    · simpa [State.hasFrame, stopDoze, adjustSlot] using h
    · exact seekClaim_hasFrame _ hb (by simpa [stopDoze, adjustSlot] using hbusy)
        (by simpa [State.hasFrame, stopDoze, adjustSlot] using h) _ _

/-! ### RUN (R195) -/

theorem runTarget_ne : runTarget s ≠ .isolated := by
  unfold runTarget
  split <;> nofun

end Sys2Proof.Machine

namespace Sys2Proof

open Machine

/-- Settles O10: the announcement, and what the selection after it leaves. -/
theorem runResumesTheStation : Obligations.RunResumesTheStation := by
  intro s
  refine ⟨fun h => congrArg Host.Outcome.next (if_pos ?_), fun h => ?_, fun h => ?_⟩
  · rw [isWorking_false s h]
    rfl
  · show Host.Outcome.next _ = _
    rcases h with h | h
    · rw [if_neg (by simp [(isWorking_iff s).2, h]), if_neg (by rw [h]; nofun)]
      rfl
    · rw [if_neg (by simp [(isWorking_iff s).2, h]), if_neg (by rw [h]; nofun)]
      rfl
  · have hexec : exec .run s = .next (runStation s) := by
      show Host.Outcome.next _ = _
      rw [if_neg (by simp [(isWorking_iff s).2, h]), if_pos h]
    obtain ⟨heq, hstate, hnow, hline⟩ := announce_facts { s with port := { s.port with station := runTarget s } } (runTarget_ne s)
    have hclock : (announce { s with port := { s.port with station := runTarget s } }).clock.state ≠ .dozing := by
      rw [hstate]
      exact awakened_ne _
    obtain ⟨hsc, hsp⟩ := settleSelect_clock _ hclock
    have hsettled : runStation s = accept (settleSelect (announce { s with port := { s.port with station := runTarget s } })) := rfl
    rw [hsettled] at hexec
    generalize announce { s with port := { s.port with station := runTarget s } } = u at *
    have hport : u.port = { s.port with station := runTarget s } := by rw [heq]
    have hpeers : u.peers = { s.peers with presence := some (s.clock.now + 1000) } := by rw [heq]
    refine ⟨_, hexec, ?_, hsp.trans hpeers, fun hl => ?_, ?_, fun hbusy => ?_, ?_⟩
    · show ({ (settleSelect u).port with reply := _, inProgress := none } : Port) = _
      rw [(settleSelect_keeps u).2.2.1, hport]
      rfl
    · obtain ⟨hidle, p, hframe, _, hrun, hlearn⟩ := hline hl
      have hp : p = if s.peers.learning.isSome then .learning else .running := by
        by_cases hlt : s.peers.learning.isSome = true
        · rw [if_pos hlt]
          exact hlearn (if_pos hlt)
        · rw [if_neg hlt]
          exact hrun (if_neg hlt)
      have hsel := select_hasFrame u rfl hidle hframe
      rw [hp] at hsel
      have hawake : (select u).clock.state ≠ .dozing := by
        rw [select_clock]
        exact hclock
      unfold State.hasFrame
      rwa [show (accept (settleSelect u)).line = (select u).line from (settle_clock (select u) hawake).2.2]
    · exact (congrArg (·.state) hsc).trans hstate
    · have hsel : select u = u := select_busy u (by rw [heq]; exact hbusy)
      simp only [accept, answer, settleSelect, hsel, settle_keeps]
      rw [heq]
      exact ⟨rfl, rfl, rfl, rfl, rfl⟩
    · have hkeeps := settleSelect_keeps u
      generalize settleSelect u = v at hkeeps
      cases v
      simp only at hkeeps
      obtain ⟨rfl, rfl, -, rfl, rfl, rfl, rfl, rfl, rfl, rfl, rfl⟩ := hkeeps
      rw [heq]
      rfl

end Sys2Proof

/-! ## A stop that reaches every sweep: HALT (R12, R71, R87, R194) -/

namespace Sys2Proof.Machine

-- The kernel checks the lemmas one after another: many at once take a thread each.
set_option Elab.async false

variable (s : State)

/-! ### What a stop leaves of clock, requests and store -/

/-- An end without a comparison changes no clock, and of the requests the selection alone. -/
theorem endSweep_quiet {c : Ctx} (hc : s.engine.ctx = some c) {o : SweepOutcome} (hw : writtenPart s o = none)
    (pre : List NoticeBody) : (endSweep s o pre).clock = s.clock ∧
    (endSweep s o pre).sched = { s.sched with selection := none } := by
  have hclosed : (sweepClosed s c o pre).clock = s.clock ∧ (sweepClosed s c o pre).sched = s.sched := by
    rw [sweepClosed, hw]
    show (sweepOver (confirmReport _ c none) c).clock = _ ∧ (sweepOver (confirmReport _ c none) c).sched = _
    simp
  rw [endSweep_eq hc]
  exact ⟨hclosed.1, congrArg (fun x : Sched => { x with selection := none }) hclosed.2⟩

theorem abort_quiet {c : Ctx} (hc : s.engine.ctx = some c) (o : SweepOutcome) (pre : List NoticeBody) :
    (abort s o pre).clock = s.clock ∧ (abort s o pre).sched = { s.sched with selection := none } ∧
    (abort s o pre).store = (stopWrite (dropClaim s c.span) c.span).store := by
  obtain ⟨hclock, hsched⟩ := endSweep_quiet (stopReduction (stopWrite (dropClaim s c.span) c.span)) (c := c)
    (by simp [stopReduction, hc]) (writtenPart_stopReduction _ o) (pre ++ writeCutNotice s c.span)
  rw [abort_eq s hc, hclock, hsched]
  exact ⟨by simp [stopReduction], by simp [stopReduction], by simp [stopReduction]⟩

/-- Of the claims what is given up or released changes the line, which stays out of PASSIVE. -/
theorem giveUpClaim_live (g : Nat) (h : s.line.state ≠ .passive) : (giveUpClaim s g).line.state ≠ .passive := by
  unfold giveUpClaim
  split
  · exact offer_live _ _ _ h
  · dsimp only
    split <;> exact h
  · exact h

theorem releaseClaim_live (g : Nat) (h : s.line.state ≠ .passive) : (releaseClaim s g).line.state ≠ .passive := by
  unfold releaseClaim
  split
  · exact offer_live _ _ _ h
  · exact h

theorem dropClaim_live (n : Nat) (h : s.line.state ≠ .passive) : (dropClaim s n).line.state ≠ .passive := by
  unfold dropClaim
  split
  · exact giveUpClaim_live s _ h
  · exact releaseClaim_live s _ h

/-- What a stop does, by what the engine holds. -/
theorem stopSweep_cases (o : SweepOutcome) (pre : List NoticeBody) :
    (∃ n, s.sched.selection ≠ none ∧ engineSpan s = some n ∧
      stopSweep s o pre = giveBack (giveUpClaim s (lightGroupOf s n))) ∨
    (∃ c, s.sched.selection = none ∧ s.engine.ctx = some c ∧ stopSweep s o pre = abort s o pre) ∨
    (stopSweep s o pre = s ∧ (s.sched.selection ≠ none → engineSpan s = none) ∧
      (s.sched.selection = none → s.engine.ctx = none)) := by
  by_cases hsel : s.sched.selection = none
  · rw [stopSweep_taken s hsel]
    cases hc : s.engine.ctx with
    | none => exact .inr (.inr ⟨by rw [abort, hc], fun h => absurd hsel h, fun _ => rfl⟩)
    | some c => exact .inr (.inl ⟨c, hsel, rfl, rfl⟩)
  · cases hn : engineSpan s with
    | none =>
      refine .inr (.inr ⟨?_, fun _ => rfl, fun h => absurd h hsel⟩)
      rw [stopSweep, if_pos (show isUntaken s = true from Option.isSome_iff_ne_none.2 hsel), hn]
    | some n => exact .inl ⟨n, hsel, rfl, stopSweep_untaken s hsel hn o pre⟩

theorem stopSweep_clock (o : SweepOutcome) (pre : List NoticeBody) : (stopSweep s o pre).clock = s.clock := by
  rcases stopSweep_cases s o pre with ⟨n, _, _, h⟩ | ⟨c, _, hc, h⟩ | ⟨h, _⟩
  · rw [h]
    simp
  · rw [h, (abort_quiet s hc o pre).1]
  · rw [h]

theorem stopSweep_live (o : SweepOutcome) (pre : List NoticeBody) (hl : s.line.state ≠ .passive) :
    (stopSweep s o pre).line.state ≠ .passive := by
  rcases stopSweep_cases s o pre with ⟨n, _, _, h⟩ | ⟨c, _, hc, h⟩ | ⟨h, _⟩
  · rw [h]
    simpa using giveUpClaim_live s (lightGroupOf s n) hl
  · rw [h]
    exact (Reports.abort s hc o pre).live (dropClaim_live s _ hl)
  · rwa [h]

theorem stopSweep_store (o : SweepOutcome) (pre : List NoticeBody) (hst : s.engine.state ≠ .storing) :
    (stopSweep s o pre).store = s.store := by
  rcases stopSweep_cases s o pre with ⟨n, _, _, h⟩ | ⟨c, _, hc, h⟩ | ⟨h, _⟩
  · rw [h]
    simp
  · rw [h, (abort_quiet s hc o pre).2.2, stopWrite_not_storing _ (by simpa using hst)]
    simp
  · rw [h]

/-- What holds the engine, as far as a stop reads it (R70). -/
def engineHeld (s : State) : Prop :=
  (s.sched.selection ≠ none → engineSpan s ≠ none) ∧
  (s.sched.selection = none → s.engine.ctx = none → atRest s.engine.state = true)

theorem engineHeld_of_sound (h : s.engineSound) : engineHeld s := by
  obtain ⟨_, _, hstand⟩ := (engineSound_iff s).1 h
  cases hstand with
  | rest state ctx selection => exact ⟨fun hs => absurd selection hs, fun _ _ => state⟩
  | slot n r state ctx selection =>
    exact ⟨fun _ => by rw [engineSpan, ctx, selectedSlot, selection]; nofun, fun hs => by rw [selection] at hs; cases hs⟩
  | save c state ctx selection => exact ⟨fun _ => by rw [engineSpan, ctx]; nofun, fun hs => by rw [selection] at hs; cases hs⟩
  | taken c state ctx selection => exact ⟨fun hs => absurd selection hs, fun _ hc => by rw [ctx] at hc; cases hc⟩

/-- After a stop the engine holds no sweep (R71). -/
theorem stopSweep_rests (h : engineHeld s) (o : SweepOutcome) (pre : List NoticeBody) :
    (stopSweep s o pre).engine.ctx = none ∧ (stopSweep s o pre).sched.selection = none ∧
    atRest (stopSweep s o pre).engine.state = true := by
  obtain ⟨hspan, hrest⟩ := h
  rcases stopSweep_cases s o pre with ⟨n, hsel, _, h⟩ | ⟨c, _, hc, h⟩ | ⟨h, hno, hctx⟩
  · obtain ⟨hengine, hselection⟩ := giveBack_engine (giveUpClaim s (lightGroupOf s n)) (by simpa using hsel)
    rw [h, hengine]
    exact ⟨rfl, hselection, rfl⟩
  · rw [h, abort_engine s hc, (abort_quiet s hc o pre).2.1]
    exact ⟨rfl, rfl, rfl⟩
  · have hsel : s.sched.selection = none := by
      by_contra hs
      exact hspan hs (hno hs)
    rw [h]
    exact ⟨hctx hsel, hsel, hrest hsel (hctx hsel)⟩

/-- A suspended sweep stays (R60, R71). -/
theorem stopSweep_save (o : SweepOutcome) (pre : List NoticeBody) (hsel : s.sched.selection ≠ some .save) :
    (stopSweep s o pre).sched.save = s.sched.save ∧ (stopSweep s o pre).sched.resumeExpiry = s.sched.resumeExpiry := by
  rcases stopSweep_cases s o pre with ⟨n, hs, _, h⟩ | ⟨c, _, hc, h⟩ | ⟨h, _⟩
  · cases hx : s.sched.selection with
    | none => exact absurd hx hs
    | some x =>
      cases x with
      | save => exact absurd hx hsel
      | slot k =>
        rw [h, giveBack_slot (n := k) _ (by simpa using hx)]
        simp
  · rw [h, (abort_quiet s hc o pre).2.1]
    exact ⟨rfl, rfl⟩
  · rw [h]
    exact ⟨rfl, rfl⟩

/-! ### A baseline write that is cut (R12) -/

theorem stopWrite_cut {n : Nat} {r : SpanRecord} (hst : s.engine.state = .storing) (hr : enabledRec s n = some r) :
    writeWasCut s (stopWrite s n) n r := by
  have hfp : ∀ m, fpOf (stopWrite s n) m = if m = n then .absent else fpOf s m := fun m => by
    rw [stopWrite, if_pos hst, fpOf_setFp]
    simp only [fpOf, cutCopy, bumpFree, (copyTrace_dir s n _).2.1]
  have hk : Config.binsCopied s.free % (s.trace.entries.length + 1) ≤ s.trace.entries.length :=
    Nat.le_of_lt_succ (Nat.mod_lt _ (Nat.succ_pos _))
  refine ⟨by rw [hfp, if_pos rfl], fun m hm => by rw [hfp, if_neg hm], ?_, ?_, _, hk, fun i hi => ?_, fun a ha => ?_⟩ <;>
    rw [stopWrite, if_pos hst]
  · exact (copyTrace_dir s n _).1
  · exact (copyTrace_dir s n _).2.2
  · exact find_copyTrace_in s hr hk hi
  · exact find_copyTrace_out s hr hk ha

theorem writeWasCut_congr {s s' t t' : State} {n : Nat} {r : SpanRecord} (h : writeWasCut s t n r) (store : s'.store = s.store)
    (trace : s'.trace = s.trace) (after : t'.store = t.store) : writeWasCut s' t' n r := by
  unfold writeWasCut fpOf at h ⊢
  rwa [store, trace, after]

theorem abort_cut {c : Ctx} {r : SpanRecord} (hc : s.engine.ctx = some c) (hst : s.engine.state = .storing)
    (hr : enabledRec s c.span = some r) (o : SweepOutcome) (pre : List NoticeBody) :
    writeWasCut s (abort s o pre) c.span r :=
  writeWasCut_congr (stopWrite_cut (dropClaim s c.span) (by simpa using hst) (by simpa [enabledRec] using hr)) (by simp) (by simp)
    (abort_quiet s hc o pre).2.2

/-! ### Sources of a claim's release -/

theorem claimReleased_of_source {s s' t : State} {g : Nat} (h : claimReleased s t g) (claims : s'.claims = s.claims)
    (hon : s'.onLine → s.onLine) : claimReleased s' t g := by
  obtain ⟨hother, hopen, helse⟩ := h
  rw [← claims] at hother hopen helse
  exact ⟨hother, fun l e m hf => ⟨(hopen l e m hf).1, fun h => (hopen l e m hf).2 (hon h)⟩, helse⟩

theorem claimGivenUp_of_onLine {s s' t : State} {g : Nat} (h : claimGivenUp s t g) (claims : s'.claims = s.claims)
    (line : s'.line = s.line) (hon : s'.onLine → s.onLine) : claimGivenUp s' t g := by
  obtain ⟨hother, hwait, hask⟩ := h
  refine ⟨fun k hk => by rw [hother k hk, claims], fun l e m hf => ?_, fun l m hf => ?_⟩
  · obtain ⟨hfree, hframe⟩ := hwait l e m (by rwa [← claims])
    exact ⟨hfree, fun h => hframe (hon h)⟩
  · have := hask l m (by rwa [← claims])
    unfold inAttempt at this ⊢
    rwa [line]

/-! ### HALT (R194) -/

/-- The station is HALTED, and nothing else has happened yet. -/
def haltedBy (s : State) : State := { s with port := { s.port with station := .halted } }

theorem haltStation_eq : haltStation s =
    accept (settle (announce (unableBegins (stopSweep (haltedBy s) .aborted [])))) := rfl

/-- The corroboration unit and the announcement add reports to what HALT stops. -/
theorem haltStation_facts : ∃ t, haltStation s = t ∧
    t.engine = (stopSweep (haltedBy s) .aborted []).engine ∧ t.sched = (stopSweep (haltedBy s) .aborted []).sched ∧
    t.acc = (stopSweep (haltedBy s) .aborted []).acc ∧ t.comp = (stopSweep (haltedBy s) .aborted []).comp ∧
    t.store = (stopSweep (haltedBy s) .aborted []).store ∧ t.alerts = (stopSweep (haltedBy s) .aborted []).alerts ∧
    Reports (stopSweep (haltedBy s) .aborted []) t ∧
    t.port = { s.port with station := .halted, reply := some ⟨.accepted, []⟩, inProgress := none } ∧
    t.peers.presence = some (s.clock.now + 1000) ∧
    (s.line.state ≠ .passive → t.hasFrame 0 (.presence .halted s.cfg.sheathGroups)) ∧
    t.clock.state = awakened s ∧ t.pending = s.pending ∧ t.reference = s.reference ∧ t.cfg = s.cfg ∧ t.switch = s.switch := by
  have hclock := stopSweep_clock (haltedBy s) .aborted []
  have hlive := stopSweep_live (haltedBy s) .aborted []
  have hkeeps := stopSweep_keeps (haltedBy s) .aborted []
  rw [haltStation_eq]
  generalize stopSweep (haltedBy s) .aborted [] = v at *
  obtain ⟨hpending, hreference, hport, hcfg, hswitch, _⟩ := hkeeps
  have hstation : (unableBegins v).port.station = .halted := by simp [hport, haltedBy]
  obtain ⟨heq, hstate, hnow, hline⟩ := announce_facts (unableBegins v) (by rw [hstation]; nofun)
  have hreports : Reports v (announce (unableBegins v)) := (Reports.unableBegins v).trans (.announce _)
  have hwlive : s.line.state ≠ .passive → (unableBegins v).line.state ≠ .passive :=
    fun h => (Reports.unableBegins v).live (hlive h)
  have hsettle : settle (announce (unableBegins v)) = stopDoze (announce (unableBegins v)) :=
    settle_not_running _ (by rw [heq]; show (unableBegins v).port.station ≠ .running; rw [hstation]; nofun)
  rw [hsettle]
  have hawk : awakened (unableBegins v) = awakened s := by
    unfold awakened
    simp [hclock, haltedBy]
  rw [hawk] at hstate
  generalize announce (unableBegins v) = x at *
  refine ⟨_, rfl, ?_⟩
  simp only [accept, answer, stopDoze]
  have hframe : s.line.state ≠ .passive → x.hasFrame 0 (.presence .halted s.cfg.sheathGroups) := fun h => by
    obtain ⟨_, p, hframe, hp, _⟩ := hline (hwlive h)
    rw [hp hstation] at hframe
    simpa [hcfg, haltedBy] using hframe
  refine ⟨?_, ?_, ?_, ?_, ?_, ?_, hreports.trans (.of_eq rfl rfl rfl), ?_, ?_, hframe, hstate, ?_, ?_, ?_, ?_⟩ <;>
    (rw [heq]; simp [hport, hclock, hpending, hreference, hcfg, hswitch, haltedBy])

end Sys2Proof.Machine

namespace Sys2Proof

open Machine

/-- Settles O11: `stopSweep` by what the engine holds, then the reports and the announcement. -/
theorem haltStopsTheWork : Obligations.HaltStopsTheWork := by
  intro s
  refine ⟨fun h => congrArg Host.Outcome.next (if_pos ?_), fun h => ?_, fun hst hsound => ?_⟩
  · rw [isWorking_false s h]
    rfl
  · show Host.Outcome.next _ = _
    rw [if_neg (by simp [(isWorking_iff s).2, h]), if_pos h]
    rfl
  · have hworking : isWorking s = true := (isWorking_iff s).2 (by rcases hst with h | h <;> rw [h] <;> exact ⟨nofun, nofun⟩)
    have hnot : s.port.station ≠ .halted := by rcases hst with h | h <;> rw [h] <;> nofun
    have hexec : exec .halt s = .next (haltStation s) := by
      show Host.Outcome.next _ = _
      rw [if_neg (by simp [hworking]), if_neg hnot]
    obtain ⟨t, ht, hengine, hsched, hacc, hcomp, hstore, halerts, hreports, hport, hpresence, hframe, hclock, hrest⟩ :=
      haltStation_facts s
    rw [ht] at hexec
    have hheld : engineHeld (haltedBy s) := engineHeld_of_sound s hsound
    have hon : s.onLine → (haltedBy s).onLine := fun h => ⟨h.1, nofun⟩
    obtain ⟨hctx, hselection, hatRest⟩ := stopSweep_rests (haltedBy s) hheld .aborted []
    have hb : ∀ {c : Ctx}, s.engine.ctx = some c → BeforeEnd s (haltedBy s) c c := fun hc =>
      .of_same hc rfl rfl rfl rfl rfl rfl
    have htaken : s.sched.selection = none → stopSweep (haltedBy s) .aborted [] = abort (haltedBy s) .aborted [] :=
      fun hsel => stopSweep_taken (haltedBy s) hsel .aborted []
    have hcut : ∀ n, (writeCutNotice (haltedBy s) n).length = if s.engine.state = .storing then 1 else 0 := fun n => by
      unfold writeCutNotice
      rw [show (haltedBy s).engine = s.engine from rfl]
      split <;> rfl
    refine ⟨t, hexec, hport, by rw [hengine, hctx], by rw [hsched, hselection], by rw [hengine, hatRest], hpresence, hframe, hclock,
      fun c r hc hsel hr => ?_, fun c hc hsel hroom => ?_, fun hsel => ?_, fun n hsel hn => ?_, fun c hc hsel => ?_,
      fun c hc hsel => ⟨?_, ?_⟩, fun h => ?_, fun c r hc hsel hstoring hr => ⟨?_, fun hroom => ?_⟩, ?_⟩
    · rw [hcomp, htaken hsel]
      exact (abort_facts (hb hc) .aborted []).2.1 r hr
    · refine hreports.fifo.subset ?_
      rw [htaken hsel]
      refine (abort_facts (hb hc) .aborted []).2.2.1 ?_
      rw [hcut, List.length_nil]
      split at hroom
      · next h => rw [if_pos h]; omega
      · next h => rw [if_neg h]; omega
    · rw [hsched]
      exact stopSweep_save (haltedBy s) .aborted [] hsel
    · rw [stopSweep_untaken (haltedBy s) (n := n) hsel hn] at hreports
      exact claimGivenUp_of_onLine (claimGivenUp_then (haltedBy s) ((Reports.giveBack _).trans hreports)) rfl rfl hon
    · have hback := giveBack_save (giveUpClaim (haltedBy s) (lightGroupOf s c.span)) c (by simpa [haltedBy] using hsel)
        (by simpa [haltedBy] using hc)
      have hstop : stopSweep (haltedBy s) .aborted [] = giveBack (giveUpClaim (haltedBy s) (lightGroupOf s c.span)) :=
        stopSweep_untaken (haltedBy s) (n := c.span) (by rw [show (haltedBy s).sched = s.sched from rfl, hsel]; nofun)
          (by rw [engineSpan, show (haltedBy s).engine = s.engine from rfl, hc]) .aborted []
      rw [← hstop] at hback
      exact resumeReturned_congr hback (by simp [haltedBy]) (by simp [haltedBy]) (by simp [haltedBy]) hsched hengine hacc
    · refine sweepEnded_congr ?_ rfl rfl rfl rfl halerts hengine hsched hacc hcomp
      rw [htaken hsel]
      exact (abort_facts (hb hc) .aborted []).1
    · have habort := Reports.abort (haltedBy s) (c := c) hc .aborted []
      rw [← htaken hsel, dropClaim, if_neg (by simp [isUntaken, haltedBy, hsel])] at habort
      exact claimReleased_of_source (claimReleased_then (s := haltedBy s) (habort.trans hreports)) rfl hon
    · rw [hstore]
      exact stopSweep_store (haltedBy s) .aborted [] h
    · refine writeWasCut_congr (s := haltedBy s) ?_ rfl rfl hstore
      rw [htaken hsel]
      exact abort_cut (haltedBy s) hc hstoring hr .aborted []
    · refine hreports.fifo.subset ?_
      rw [htaken hsel]
      refine (abort_facts (hb hc) .aborted []).2.2.2 _ ?_ ?_
      · rw [writeCutNotice, if_pos (show (haltedBy s).engine.state = .storing from hstoring)]
        exact List.mem_singleton_self _
      · rw [hcut, if_pos hstoring]
        exact hroom
    · obtain ⟨hpending, hreference, hcfg, hswitch⟩ := hrest
      cases t
      simp only at hpending hreference hcfg hswitch
      simp only [hpending, hreference, hcfg, hswitch]

end Sys2Proof

/-! ## Rounds: completion and verdict (R184 to R187), and what other groups' rounds leave of one -/

namespace Sys2Proof.Machine

-- The kernel checks the lemmas one after another: many at once take a thread each.
set_option Elab.async false

variable (s : State)

/-! ### Counting the joined faults (R186) -/

theorem gapOf_le (a b n : Nat) : gapOf a b ≤ n ↔ a ≤ b + n ∧ b ≤ a + n := by
  unfold gapOf
  omega

theorem isFault_iff (k : ReportKind) : k.isFault = true ↔ k = .brk ∨ k = .bend := by cases k <;> simp [ReportKind.isFault]

theorem faultAt_iff (p : Nat → Bool) (e : Nat × Report) : faultAt p e = true ↔
    (e.2.kind = .brk ∨ e.2.kind = .bend) ∧ ∃ x, e.2.dist = some x ∧ p x = true := by
  obtain ⟨i, k, d⟩ := e
  cases k <;> cases d <;> simp [faultAt]

theorem length_filter_faultDistances (p : Nat → Bool) (joined : Table Report) :
    ((faultDistances joined).filter p).length = (joined.filter (faultAt p)).length := by
  induction joined with
  | nil => rfl
  | cons e l ih =>
    obtain ⟨i, k, d⟩ := e
    have hcons : faultDistances ((i, ⟨k, d⟩) :: l) =
        (if k.isFault then d else none).toList ++ faultDistances l := by
      unfold faultDistances
      rw [List.filterMap_cons]
      cases k.isFault <;> cases d <;> rfl
    rw [hcons, List.filter_append, List.length_append, ih, List.filter_cons]
    cases hk : k.isFault with
    | false =>
      have : faultAt p (i, ⟨k, d⟩) = false := by
        rw [← Bool.not_eq_true, faultAt_iff]
        rintro ⟨h, _⟩
        rw [(isFault_iff k).2 h] at hk
        cases hk
      rw [this]
      simp
    | true =>
      have hfault := (isFault_iff k).1 hk
      cases d with
      | none =>
        have : faultAt p (i, ⟨k, none⟩) = false := by
          rw [← Bool.not_eq_true, faultAt_iff]
          rintro ⟨_, x, h, _⟩
          cases h
        rw [this]
        simp
      | some x =>
        have : faultAt p (i, ⟨k, some x⟩) = p x := by
          rw [Bool.eq_iff_iff, faultAt_iff]
          exact ⟨fun ⟨_, y, hy, hp⟩ => by cases hy; exact hp, fun hp => ⟨hfault, x, rfl, hp⟩⟩
        rw [this]
        cases hpx : p x <;> simp [hpx, Nat.add_comm]

theorem countNear_eq (tol d : Nat) (joined : Table Report) : countNear tol d joined = nearFaults tol d joined := by
  have hp : (fun x => decide (gapOf x d ≤ tol)) = fun x => decide (x ≤ d + tol ∧ d ≤ x + tol) := by
    funext x
    exact decide_eq_decide.2 (gapOf_le x d tol)
  rw [countNear, hp, length_filter_faultDistances]
  rfl

theorem countFar_eq (tol d : Nat) (joined : Table Report) : countFar tol d joined = farFaults tol d joined := by
  have hp : (fun x => decide (tol < gapOf x d)) = fun x => decide (d + tol < x ∨ x + tol < d) := by
    funext x
    refine decide_eq_decide.2 ?_
    unfold gapOf
    omega
  rw [countFar, hp, length_filter_faultDistances]
  rfl

/-! ### The verdict (R186) -/

theorem issueVerdict_eq (h : Nat) (r : OpenRound) (b : Bool) : issueVerdict s h r b = { s with
    notices := (post s (.verdict h (decide (2 ≤ nearFaults s.cfg.block.tolerance r.openDist r.joined))
      (nearFaults s.cfg.block.tolerance r.openDist r.joined) (farFaults s.cfg.block.tolerance r.openDist r.joined)
      b r.joined.keys (existsSet s h))).notices
    corr := s.corr.put h (.settled ⟨r.openKind, r.openDist, r.openedAt, r.joined,
      s.clock.now + s.cfg.block.holdDown * 1000⟩) } := by
  unfold issueVerdict
  dsimp only
  rw [countNear_eq, countFar_eq, post_eq]
  rfl

theorem exec_roundTimer_none (h : Nat) (hn : ∀ o, s.corr.find h ≠ some (.opened o)) : exec (.roundTimerExpiry h) s = .next s := by
  show Host.Outcome.next _ = _
  split
  · next o ho => exact absurd ho (hn o)
  · rfl

theorem exec_holdDown_none (h : Nat) (hn : ∀ o, s.corr.find h ≠ some (.settled o)) : exec (.holdDownExpiry h) s = .next s := by
  show Host.Outcome.next _ = _
  split
  · next o ho => exact absurd ho (hn o)
  · rfl

end Sys2Proof.Machine

namespace Sys2Proof

open Machine

/-- Settles O59: `issueVerdict`, with the joined faults counted afresh. -/
theorem roundsEndWithAVerdict : Obligations.RoundsEndWithAVerdict := by
  intro s h
  refine ⟨fun hn => exec_roundTimer_none s h hn, fun hn => exec_holdDown_none s h hn, fun o ho => ⟨fun hlt => ?_, fun hle => ?_⟩,
    fun o ho => ⟨fun hlt => ?_, fun nF nG hle hF hG => ?_⟩⟩
  · show Host.Outcome.next _ = _
    rw [ho]
    exact congrArg Host.Outcome.next (if_neg (Nat.not_le.2 hlt))
  · show Host.Outcome.next _ = _
    rw [ho]
    exact congrArg Host.Outcome.next (if_pos hle)
  · show Host.Outcome.next _ = _
    rw [ho]
    exact congrArg Host.Outcome.next (if_neg (Nat.not_le.2 hlt))
  · have hexec : exec (.roundTimerExpiry h) s = .next (settle (issueVerdict s h o true)) := by
      show Host.Outcome.next _ = _
      rw [ho]
      exact congrArg Host.Outcome.next (if_pos hle)
    have hcount : ∀ (p : Nat → Bool) (q : Nat × Report → Bool), (∀ e, q e = true ↔ faultAt p e = true) →
        (o.joined.filter q).length = (o.joined.filter (faultAt p)).length := fun p q hpq => by
      rw [show q = faultAt p from funext fun e => Bool.eq_iff_iff.2 (hpq e)]
    have hnear : nearFaults s.cfg.block.tolerance o.openDist o.joined = nF := by
      rw [← hF]
      refine (hcount _ _ fun e => ?_).symm
      rw [faultAt_iff]
      simp only [decide_eq_true_eq]
    have hfar : farFaults s.cfg.block.tolerance o.openDist o.joined = nG := by
      rw [← hG]
      refine (hcount _ _ fun e => ?_).symm
      rw [faultAt_iff]
      simp only [decide_eq_true_eq]
    rw [issueVerdict_eq, hnear, hfar] at hexec
    refine ⟨_, hexec, by simp, by simp, by simp, fun hocc => ?_⟩
    have hset := settle_occupied { s with
      notices := (post s (.verdict h (decide (2 ≤ nF)) nF nG true o.joined.keys (existsSet s h))).notices
      corr := s.corr.put h (.settled ⟨o.openKind, o.openDist, o.openedAt, o.joined,
        s.clock.now + s.cfg.block.holdDown * 1000⟩) } hocc
    rw [hset]
    simp [stopDoze]

end Sys2Proof

/-! ## What other blocks leave of one group's round (R176, R183, R184) -/

namespace Sys2Proof.Machine

-- The kernel checks the lemmas one after another: many at once take a thread each.
set_option Elab.async false

/-! ### The rack line: a waiting FINDING of a group -/

theorem startAttempt_id (s : State) : (startAttempt s).line.id = s.line.id := by
  unfold startAttempt
  split
  · split <;> rfl
  · rfl

theorem offer_id (s : State) (u : Nat) (b : FrameBody) : (offer s u b).line.id = s.line.id := by
  unfold offer
  split
  · exact startAttempt_id _
  · rfl

theorem mem_replaceWaiting_other {q : List TxFrame} {u : Nat} {b : FrameBody} {x : TxFrame} (h : sameFrame x.body b = false)
    (hx : x ∈ q) : x ∈ replaceWaiting q u b := List.mem_map.2 ⟨x, hx, if_neg (by rw [h]; decide)⟩

/-- A PRESENCE or FINDING that is offered leaves every waiting frame that it does not replace (R138). -/
theorem mem_queueOffer_other {q : List TxFrame} {f x : TxFrame} (hf : isClaimFrame f.body = false)
    (h : sameFrame x.body f.body = false) (hx : x ∈ q) : x ∈ queueOffer q f := by
  have hinsert : x ∈ insertByAge f q := (mem_insertByAge f x q).2 (.inr hx)
  unfold queueOffer
  split
  · split
    · exact mem_replaceWaiting_other h hx
    · exact hinsert
  · split
    · exact mem_replaceWaiting_other h hx
    · exact hinsert
  all_goals next hb => rw [hb] at hf; cases hf

theorem offer_hasFrame_other {s : State} {u v : Nat} {b d : FrameBody} (hd : isClaimFrame d = false) (h : sameFrame b d = false)
    (hbusy : s.line.state ≠ .idle) (hb : s.hasFrame u b) : (offer s v d).hasFrame u b := by
  obtain ⟨f, hf, hu, hfb⟩ := hb
  refine ⟨f, ?_, hu, hfb⟩
  rw [offer_line_busy s v d hbusy]
  split
  · refine List.mem_append.2 ((List.mem_append.1 hf).imp_left fun hq => ?_)
    exact mem_queueOffer_other (f := ⟨s.line.nextAge, v, d⟩) hd (by rwa [hfb]) hq
  · exact hf

/-! ### Steps that concern other groups -/

/-- What happened between s and t leaves the record of group h and its waiting FINDING, and all that a verdict of h
reads. -/
structure Elsewhere (h : Nat) (s t : State) : Prop where
  record : t.corr.find h = s.corr.find h
  fifo : s.notices.fifo <+: t.notices.fifo
  busy : s.line.state ≠ .idle → t.line.state ≠ .idle
  live : s.line.state ≠ .passive → t.line.state ≠ .passive
  frames : s.line.state ≠ .idle → ∀ u k d, s.hasFrame u (.finding h k d) → t.hasFrame u (.finding h k d)
  station : t.port.station = s.port.station
  cfg : t.cfg = s.cfg
  now : t.clock.now = s.clock.now
  tod : t.clock.tod = s.clock.tod
  id : t.line.id = s.line.id
  table : t.peers.table = s.peers.table

namespace Elsewhere

variable {h : Nat}

theorem of_eq {s t : State} (corr : t.corr = s.corr := by simp) (notices : t.notices = s.notices := by simp)
    (line : t.line = s.line := by simp) (port : t.port = s.port := by simp) (cfg : t.cfg = s.cfg := by simp)
    (now : t.clock.now = s.clock.now := by simp) (tod : t.clock.tod = s.clock.tod := by simp)
    (table : t.peers.table = s.peers.table := by simp) : Elsewhere h s t where
  record := by rw [corr]
  fifo := by rw [notices]
  busy := by rw [line]; exact fun hne => hne
  live := by rw [line]; exact fun hne => hne
  frames := fun _ u k d hf => by unfold State.hasFrame; rwa [line]
  station := by rw [port]
  cfg := cfg
  now := now
  tod := tod
  id := by rw [line]
  table := table

theorem refl (s : State) : Elsewhere h s s := of_eq rfl rfl rfl rfl rfl rfl rfl rfl

theorem trans {s t u : State} (a : Elsewhere h s t) (b : Elsewhere h t u) : Elsewhere h s u where
  record := b.record.trans a.record
  fifo := a.fifo.trans b.fifo
  busy := b.busy ∘ a.busy
  live := b.live ∘ a.live
  frames := fun hb u k d hf => b.frames (a.busy hb) u k d (a.frames hb u k d hf)
  station := b.station.trans a.station
  cfg := b.cfg.trans a.cfg
  now := b.now.trans a.now
  tod := b.tod.trans a.tod
  id := b.id.trans a.id
  table := b.table.trans a.table

theorem foldl {α : Type} {f : State → α → State} : ∀ (l : List α) (s : State), (∀ t, ∀ a ∈ l, Elsewhere h t (f t a)) →
    Elsewhere h s (l.foldl f s)
  | [], s, _ => refl s
  | a :: l, s, hf => (hf s a (List.mem_cons_self ..)).trans (foldl l _ fun t b hb => hf t b (List.mem_cons_of_mem _ hb))

theorem ite {p : Prop} [Decidable p] {s t u : State} (ht : p → Elsewhere h s t) (hu : ¬ p → Elsewhere h s u) :
    Elsewhere h s (if p then t else u) := by
  split
  · exact ht ‹_›
  · exact hu ‹_›

variable (s : State)

/-- Reports that leave the record and change no other part that a verdict reads. -/
theorem of_reports {s t : State} (hr : Reports s t) (record : t.corr.find h = s.corr.find h)
    (frames : s.line.state ≠ .idle → ∀ u k d, s.hasFrame u (.finding h k d) → t.hasFrame u (.finding h k d))
    (id : t.line.id = s.line.id) (port : t.port = s.port := by simp) (cfg : t.cfg = s.cfg := by simp)
    (now : t.clock.now = s.clock.now := by simp) (tod : t.clock.tod = s.clock.tod := by simp)
    (table : t.peers.table = s.peers.table := by simp) : Elsewhere h s t where
  record := record
  fifo := hr.fifo
  busy := hr.busy
  live := hr.live
  frames := frames
  station := by rw [port]
  cfg := cfg
  now := now
  tod := tod
  id := id
  table := table

theorem post (b : NoticeBody) : Elsewhere h s (post s b) :=
  of_reports (.post s b) (by simp) (fun _ u k d hf => by simpa [State.hasFrame] using hf) (by simp)

theorem postAll (bs : List NoticeBody) : Elsewhere h s (postAll s bs) := foldl bs s fun t b _ => post t b

theorem offer {v : Nat} {b : FrameBody} (hb : isClaimFrame b = false) (hne : ∀ k d, sameFrame (.finding h k d) b = false) :
    Elsewhere h s (offer s v b) :=
  of_reports (.offer s hb) (by simp) (fun hbusy u k d hf => offer_hasFrame_other hb (hne k d) hbusy hf) (offer_id ..)

theorem offerFinding {g : Nat} (hg : g ≠ h) (rep : Report) : Elsewhere h s (offerFinding s g rep) :=
  offer s rfl fun _ _ => decide_eq_false fun he => hg he.symm

theorem offerPresence : Elsewhere h s (offerPresence s) := by
  refine ite (fun _ => refl s) fun _ => ?_
  refine Elsewhere.trans ?_ (offer _ rfl fun _ _ => rfl)
  exact of_eq rfl rfl rfl rfl rfl rfl rfl rfl

theorem wake : Elsewhere h s (wake s) := by
  refine ite (fun _ => ?_) fun _ => refl s
  refine Elsewhere.trans ?_ (offerPresence _)
  exact of_eq rfl rfl rfl rfl rfl rfl rfl rfl

theorem announce : Elsewhere h s (announce s) := ite (fun _ => wake s) fun _ => offerPresence s

theorem stopDoze : Elsewhere h s (stopDoze s) := of_eq rfl rfl rfl rfl rfl rfl rfl rfl

theorem refreshDoze : Elsewhere h s (refreshDoze s) :=
  ite (fun _ => ite (fun _ => refl s) fun _ => of_eq rfl rfl rfl rfl rfl rfl rfl rfl) fun _ => stopDoze s

theorem settle : Elsewhere h s (settle s) :=
  (ite (fun _ => wake s) fun _ => refl s : Elsewhere h s (wakeForCandidate s)).trans (refreshDoze _)

/-! #### The rounds of other groups -/

theorem putRound {g : Nat} (hg : g ≠ h) (c : CorrRecord) : Elsewhere h s (putRound s g c) where
  __ := of_eq (h := h) (s := s) (t := s) rfl rfl rfl rfl rfl rfl rfl rfl
  record := Table.find_put_other s.corr g h c (Ne.symm hg)

theorem issueVerdict {g : Nat} (hg : g ≠ h) (r : OpenRound) (b : Bool) : Elsewhere h s (issueVerdict s g r b) :=
  (post s _).trans (putRound _ hg _)

theorem completionCheck {g : Nat} (hg : g ≠ h) : Elsewhere h s (completionCheck s g) := by
  unfold Machine.completionCheck
  split
  · exact ite (fun _ => issueVerdict s hg ..) fun _ => refl s
  all_goals exact refl s

theorem makeReport {g : Nat} (hg : g ≠ h) (r : OpenRound) : Elsewhere h s (makeReport s g r) :=
  ((offerFinding s hg _).trans (putRound _ hg _)).trans (completionCheck _ hg)

theorem unableRound {g : Nat} (hg : g ≠ h) : Elsewhere h s (unableRound s g) := by
  unfold Machine.unableRound
  split
  · exact ite (fun _ => refl s) fun _ => makeReport s hg _
  all_goals exact refl s

theorem reOffer {g : Nat} (hg : g ≠ h) (r : OpenRound) : Elsewhere h s (reOffer s g r) := by
  unfold Machine.reOffer
  split
  · exact ite (fun _ => offerFinding s hg _) fun _ => refl s
  · exact refl s

theorem peerChangeRound {g : Nat} (hg : g ≠ h) (added : List Nat) : Elsewhere h s (peerChangeRound added s g) := by
  unfold Machine.peerChangeRound
  split
  · exact (ite (fun _ => reOffer s hg _) fun _ => refl s).trans (completionCheck _ hg)
  all_goals exact refl s

theorem decideSpan {n : Nat} {t g : Option Nat} (hg : g ≠ some h) (found : Option (List Best)) :
    Elsewhere h s (decideSpan s n t g found) := by
  unfold Machine.decideSpan
  split
  · next k _ =>
    have hk : k ≠ h := fun he => hg (by rw [he])
    split
    · exact ite (fun _ => ite (fun _ => makeReport s hk _) fun _ => putRound s hk _) fun _ => refl s
    all_goals exact refl s
  · exact refl s

end Elsewhere

/-! ### How many notices a step posts -/

/-- Between s and t at most n notices were posted. -/
def postsUpTo (n : Nat) (s t : State) : Prop := t.notices.fifo.length ≤ s.notices.fifo.length + n

theorem post_upTo (s : State) (b : NoticeBody) : postsUpTo 1 s (post s b) := by
  unfold postsUpTo post
  split
  · simp
  · exact Nat.le_add_right ..

theorem completionCheck_upTo (s : State) (h : Nat) : postsUpTo 1 s (completionCheck s h) := by
  unfold completionCheck
  split
  · split
    · exact post_upTo s _
    · exact Nat.le_add_right ..
  all_goals exact Nat.le_add_right ..

theorem foldl_upTo {f : State → Nat → State} (hf : ∀ t k, postsUpTo 1 t (f t k)) :
    ∀ (l : List Nat) (s : State), postsUpTo l.length s (l.foldl f s)
  | [], s => Nat.le_refl _
  | k :: l, s => by
    have h1 := hf s k
    have h2 := foldl_upTo hf l (f s k)
    unfold postsUpTo at *
    rw [List.foldl_cons, List.length_cons]
    omega

/-- A step for every group, from the side of one group: before it and after it others were served. -/
theorem foldl_keys_split {f : State → Nat → State} {h : Nat} {l : List Nat} (hl : l.Nodup) (hmem : h ∈ l) (s : State)
    (helse : ∀ t k, k ≠ h → Elsewhere h t (f t k)) (hposts : ∀ t k, postsUpTo 1 t (f t k)) :
    ∃ u, Elsewhere h s u ∧ postsUpTo (l.length - 1) s u ∧ Elsewhere h (f u h) (l.foldl f s) := by
  obtain ⟨pre, post, rfl⟩ := List.append_of_mem hmem
  have hno : h ∉ pre ∧ h ∉ post := by
    rw [List.nodup_append] at hl
    obtain ⟨_, hpost, hdis⟩ := hl
    exact ⟨fun hp => hdis h hp h (List.mem_cons_self ..) rfl, (List.nodup_cons.1 hpost).1⟩
  refine ⟨pre.foldl f s, .foldl pre s fun t k hk => helse t k fun he => hno.1 (he ▸ hk), ?_, ?_⟩
  · have := foldl_upTo hposts pre s
    unfold postsUpTo at *
    rw [List.length_append, List.length_cons]
    omega
  · rw [List.foldl_append, List.foldl_cons]
    exact .foldl post _ fun t k hk => helse t k fun he => hno.2 (he ▸ hk)

/-! ### The round of the group itself -/

theorem existsSet_of_elsewhere {h : Nat} {s t : State} (e : Elsewhere h s t) (g : Nat) : existsSet t g = existsSet s g := by
  unfold existsSet
  rw [e.id, e.table]

theorem all_joined_iff (l : List Nat) (joined : Table Report) :
    l.all joined.has = true ↔ ∀ i ∈ l, joined.find i ≠ none := by
  simp only [List.all_eq_true, Table.has, Option.isSome_iff_ne_none]

/-- The completion check of a group (R184), after a change of its record, and with what comes after it for others. -/
theorem completionCheck_checked {h : Nat} {s u t : State} {o : OpenRound} {joined : Table Report}
    (hu : u.corr.find h = some (.opened { o with joined := joined })) (cfg : u.cfg = s.cfg) (now : u.clock.now = s.clock.now)
    (tod : u.clock.tod = s.clock.tod)
    (room : s.notices.fifo.length + s.corr.length + 2 ≤ Config.fifoSize → u.notices.fifo.length < 32)
    (e : Elsewhere h (completionCheck u h) t) : checkedForCompletion s t h o joined := by
  have hset : existsSet t h = existsSet u h := by
    rw [existsSet_of_elsewhere e]
    unfold existsSet
    simp only [completionCheck_keeps]
  have hcheck : completionCheck u h =
      if (existsSet u h).all joined.has then issueVerdict u h { o with joined := joined } false else u := by
    rw [completionCheck, hu]
  unfold checkedForCompletion
  rw [hset]
  by_cases hall : (existsSet u h).all joined.has = true
  · rw [hcheck, if_pos hall, issueVerdict_eq] at e
    have hall' := (all_joined_iff _ _).1 hall
    refine ⟨fun _ => ?_, fun ⟨i, hi, hnone⟩ => absurd hnone (hall' i hi)⟩
    unfold verdictIssued
    rw [hset]
    refine ⟨?_, fun hroom => e.fifo.subset ?_⟩
    · rw [e.record]
      show (u.corr.put h _).find h = _
      rw [Table.find_put_same, now, cfg]
    · rw [← cfg, ← tod, post_fifo u _ (room hroom)]
      exact List.mem_append_right _ (List.mem_singleton_self _)
  · rw [hcheck, if_neg hall] at e
    refine ⟨fun h' => absurd ((all_joined_iff _ _).2 h') hall, fun _ => ?_⟩
    rw [e.record, hu]

/-! ### Peer-table changes (R152, R183, R184) -/

theorem peerChangeRound_eq {s : State} {h : Nat} {o : OpenRound} (ho : s.corr.find h = some (.opened o)) (added : List Nat) :
    peerChangeRound added s h = completionCheck (if h ∈ added then reOffer s h o else s) h := by
  rw [peerChangeRound, ho]

theorem reOffer_reports (s : State) (h : Nat) (o : OpenRound) : Reports s (reOffer s h o) := by
  unfold reOffer
  split
  · exact .ite (fun _ => .offerFinding ..) fun _ => .refl s
  · exact .refl s

theorem reOffer_eq (s : State) (h : Nat) (o : OpenRound) : reOffer s h o = { s with line := (reOffer s h o).line } := by
  unfold reOffer
  split
  · split
    · exact offer_eq ..
    · rfl
  · rfl

theorem peerChangeRound_upTo (added : List Nat) (s : State) (h : Nat) : postsUpTo 1 s (peerChangeRound added s h) := by
  have hnotices : ∀ o, (if h ∈ added then reOffer s h o else s).notices = s.notices := fun o => by
    split
    · rw [reOffer_eq]
    · rfl
  unfold peerChangeRound
  split
  · next o _ =>
    have := completionCheck_upTo (if h ∈ added then reOffer s h o else s) h
    unfold postsUpTo at *
    rwa [hnotices] at this
  all_goals exact Nat.le_add_right ..

/-- A peer-table change reaches an OPEN record (R152). -/
theorem peerTableChange_checked {s0 s : State} {h : Nat} {o : OpenRound} (added : List Nat) (hwf : Table.wf s.corr)
    (ho : s.corr.find h = some (.opened o)) (cfg : s.cfg = s0.cfg) (now : s.clock.now = s0.clock.now) (tod : s.clock.tod = s0.clock.tod)
    (corr : s.corr = s0.corr) (posts : postsUpTo 2 s0 s) {t : State} (e : Elsewhere h (peerTableChange s added) t) :
    checkedForCompletion s0 t h o o.joined ∧
    (∀ rep, h ∈ added → o.joined.find s.line.id = some rep → rep.kind.isFault = true → s.onLine →
      t.hasFrame 3 (.finding h rep.kind.code (rep.dist.getD 0))) := by
  have hkeys : s.corr.keys.Nodup := hwf.imp Nat.ne_of_lt
  have hmem : h ∈ s.corr.keys := List.mem_map.2 ⟨_, Table.mem_of_find ho, rfl⟩
  obtain ⟨u, he, hposts, hafter⟩ := foldl_keys_split (f := peerChangeRound added) hkeys hmem s
    (fun t k hk => .peerChangeRound t hk added) (peerChangeRound_upTo added)
  have hu : u.corr.find h = some (.opened o) := he.record.trans ho
  have hother := hafter.trans e
  rw [peerChangeRound_eq hu] at hother
  have hre : ∀ v, v = (if h ∈ added then reOffer u h o else u) → v = { u with line := v.line } := fun v hv => by
    rw [hv]
    split
    · exact reOffer_eq ..
    · rfl
  have hv := hre _ rfl
  refine ⟨completionCheck_checked (u := if h ∈ added then reOffer u h o else u) ?_ ?_ ?_ ?_ (fun hroom => ?_) hother,
    fun rep hadded hjoined hfault hon => ?_⟩
  · rw [hv]
    exact hu
  · rw [hv]
    exact he.cfg.trans cfg
  · rw [hv]
    exact he.now.trans now
  · rw [hv]
    exact he.tod.trans tod
  · rw [hv]
    unfold postsUpTo at hposts posts
    have hlen : s.corr.keys.length = s0.corr.length := by rw [Table.keys, List.length_map, corr]
    have hsize : s0.notices.fifo.length + s0.corr.length + 2 ≤ 32 := hroom
    have hpos : 0 < s.corr.keys.length := List.length_pos_of_mem hmem
    show u.notices.fifo.length < 32
    omega
  · have honu : u.onLine := ⟨he.live hon.1, by rw [he.station]; exact hon.2⟩
    have hoffer : reOffer u h o = offer u 3 (.finding h rep.kind.code (rep.dist.getD 0)) := by
      rw [reOffer, he.id, hjoined]
      simp only [hfault, if_true, offerFinding]
    rw [if_pos hadded, hoffer] at hother
    refine hother.frames ?_ _ _ _ ?_
    · simp only [completionCheck_keeps]
      exact offer_busy _ _ _ honu
    · unfold State.hasFrame
      simp only [completionCheck_keeps]
      exact offer_hasFrame _ _ _ honu (.inr rfl)

/-- With no OPEN record a peer-table change changes nothing more. -/
theorem peerTableChange_noRound {s : State} (hno : ∀ h r, (h, CorrRecord.opened r) ∉ s.corr) (added : List Nat) :
    peerTableChange s added = s := by
  have hround : ∀ k, peerChangeRound added s k = s := fun k => by
    unfold peerChangeRound
    split
    · next r hr => exact absurd (Table.mem_of_find hr) (hno k r)
    all_goals rfl
  unfold peerTableChange
  induction s.corr.keys with
  | nil => rfl
  | cons k l ih => rw [List.foldl_cons, hround, ih]

end Sys2Proof.Machine

/-! ## Peers: PRESENCE, and the timers of the peer unit (R147 to R153) -/

namespace Sys2Proof.Machine

-- The kernel checks the lemmas one after another: many at once take a thread each.
set_option Elab.async false

/-! ### What a peer-table change leaves (R152) -/

theorem offer_inbox (s : State) (u : Nat) (b : FrameBody) : (offer s u b).line.inbox = s.line.inbox := by
  have hstart : ∀ t : State, (startAttempt t).line.inbox = t.line.inbox := fun t => by
    unfold startAttempt
    split
    · split <;> rfl
    · rfl
  unfold offer
  split
  · exact hstart _
  · rfl

theorem peerChangeRound_fields (added : List Nat) (s : State) (h : Nat) : peerChangeRound added s h = { s with
    line := (peerChangeRound added s h).line, notices := (peerChangeRound added s h).notices
    corr := (peerChangeRound added s h).corr } ∧ (peerChangeRound added s h).line.inbox = s.line.inbox := by
  have hreoffer : ∀ o, ∃ l, (if h ∈ added then reOffer s h o else s) = { s with line := l } ∧ l.inbox = s.line.inbox := fun o => by
    by_cases hh : h ∈ added
    · rw [if_pos hh]
      refine ⟨_, reOffer_eq s h o, ?_⟩
      unfold reOffer
      split
      · split
        · exact offer_inbox ..
        · rfl
      · rfl
    · rw [if_neg hh]
      exact ⟨s.line, rfl, rfl⟩
  have hcheck : ∀ u : State, completionCheck u h =
      { u with notices := (completionCheck u h).notices, corr := (completionCheck u h).corr } := fun u => by
    unfold completionCheck
    split
    · split
      · rw [issueVerdict_eq]
      · rfl
    all_goals rfl
  unfold peerChangeRound
  split
  · next o _ =>
    obtain ⟨l, hl, hinbox⟩ := hreoffer o
    rw [hl, hcheck]
    exact ⟨rfl, hinbox⟩
  all_goals exact ⟨rfl, rfl⟩

theorem peerTableChange_fields (added : List Nat) (s : State) : peerTableChange s added = { s with
    line := (peerTableChange s added).line, notices := (peerTableChange s added).notices
    corr := (peerTableChange s added).corr } ∧ (peerTableChange s added).line.inbox = s.line.inbox := by
  unfold peerTableChange
  generalize s.corr.keys = l
  induction l generalizing s with
  | nil => exact ⟨rfl, rfl⟩
  | cons k l ih =>
    obtain ⟨heq, hinbox⟩ := peerChangeRound_fields added s k
    obtain ⟨heq', hinbox'⟩ := ih (peerChangeRound added s k)
    rw [List.foldl_cons]
    generalize l.foldl (peerChangeRound added) (peerChangeRound added s k) = v at heq' hinbox' ⊢
    rw [heq'] at *
    rw [heq] at *
    exact ⟨rfl, hinbox'.trans hinbox⟩

theorem offerPresence_fields (s : State) : offerPresence s = { s with
    peers := { s.peers with presence := (offerPresence s).peers.presence }, line := (offerPresence s).line } ∧
    (offerPresence s).line.inbox = s.line.inbox := by
  unfold offerPresence
  split
  · exact ⟨rfl, rfl⟩
  · rw [offer_eq]
    exact ⟨rfl, offer_inbox ..⟩

theorem peerTableChange_reports (added : List Nat) (s : State) : Reports s (peerTableChange s added) := by
  refine Reports.foldl (fun t k => ?_) _ s
  unfold peerChangeRound
  split
  · next o _ => exact (Reports.ite (fun _ => reOffer_reports t k o) fun _ => .refl t).trans (.completionCheck ..)
  all_goals exact .refl t

/-- What the end of a row can change, when nothing is selected. -/
theorem settle_fields (s : State) : settle s = { s with
    clock := (settle s).clock, peers := { s.peers with presence := (settle s).peers.presence }, line := (settle s).line } ∧
    (settle s).line.inbox = s.line.inbox := by
  have hwake : wakeForCandidate s = { s with
      clock := (wakeForCandidate s).clock
      peers := { s.peers with presence := (wakeForCandidate s).peers.presence }
      line := (wakeForCandidate s).line } ∧ (wakeForCandidate s).line.inbox = s.line.inbox := by
    unfold wakeForCandidate wake
    split
    · split
      · have hclock : (offerPresence (woken s)).clock = (woken s).clock := by simp
        have h := offerPresence_fields (woken s)
        refine ⟨?_, h.2⟩
        show offerPresence (woken s) = { s with
          clock := (offerPresence (woken s)).clock
          peers := { s.peers with presence := (offerPresence (woken s)).peers.presence }
          line := (offerPresence (woken s)).line }
        rw [hclock]
        exact h.1
      · exact ⟨rfl, rfl⟩
    · exact ⟨rfl, rfl⟩
  obtain ⟨heq, hinbox⟩ := hwake
  have hdoze : settle s = { wakeForCandidate s with clock := (settle s).clock } := by
    unfold settle refreshDoze
    split
    · split <;> rfl
    · rfl
  rw [hdoze]
  generalize (settle s).clock = k
  generalize wakeForCandidate s = w at heq hinbox ⊢
  refine ⟨?_, hinbox⟩
  rw [heq]

/-! ### LEARNING_TIMER_EXPIRY (R153) -/

/-- The station is RUNNING once its learning is over. -/
def learned (s : State) : State := { stopLearning s with port := { s.port with station := .running } }

theorem exec_learningTimer {s : State} {e : Nat} (he : s.peers.learning = some e) (hle : e ≤ s.clock.now) :
    exec .learningTimerExpiry s =
      .next (if s.port.station = .learning then settleSelect (offerPresence (learned s)) else stopLearning s) :=
  congrArg Host.Outcome.next (if_pos (by rw [he, isDue_some]; simpa using hle))

theorem learned_announces (s : State) : offerPresence (learned s) = { learned s with
    peers := { s.peers with learning := none, presence := some (s.clock.now + 1000) }
    line := (offerPresence (learned s)).line } := offerPresence_eq (learned s) nofun

theorem presenceState_learned {s : State} (h : s.clock.state ≠ .dozing) : presenceState (learned s) = .running := if_neg h

/-- Of the peer unit the end of a row changes the presence timer at most, which it restarts (R147). -/
theorem settleSelect_peers (s : State) : (settleSelect s).peers = s.peers ∨
    (settleSelect s).peers = { s.peers with presence := some (s.clock.now + 1000) } := by
  have hselect : (select s).peers = s.peers ∧ (select s).clock.now = s.clock.now := ⟨by simp, by rw [select_clock]⟩
  have hwake : (wakeForCandidate (select s)).peers = (select s).peers ∨
      (wakeForCandidate (select s)).peers = { (select s).peers with presence := some ((select s).clock.now + 1000) } := by
    unfold wakeForCandidate wake
    split
    · split
      · unfold offerPresence
        split
        · exact .inl rfl
        · rw [offer_eq]
          exact .inr rfl
      · exact .inl rfl
    · exact .inl rfl
  rw [hselect.1, hselect.2] at hwake
  rw [settleSelect, settle, (refreshDoze_keeps _).2.2.2.2.2.2.2.2.2.2.2.2.2.1]
  exact hwake

/-! ### AGE_TIMER_EXPIRY (R151) -/

/-- The peer table without a peer that was not heard for its lifetime, with the notice. -/
def agedOut (s : State) (x : Nat) : State :=
  post { s with peers := { s.peers with table := s.peers.table.erase x } } (.peerChange x .agedOut)

theorem exec_ageTimer {s : State} {x : Nat} {p : Peer} (hp : s.peers.table.find x = some p) : exec (.ageTimerExpiry x) s =
    .next (if p.ageExpiry ≤ s.clock.now then settle (peerTableChange (agedOut s x) []) else s) := by
  show Host.Outcome.next (if ageDue s x then _ else _) = _
  simp only [ageDue, hp, decide_eq_true_eq]
  rfl

theorem agedOut_eq (s : State) (x : Nat) : agedOut s x = { s with
    peers := { s.peers with table := s.peers.table.erase x }, notices := (post s (.peerChange x .agedOut)).notices } := by
  refine post_same (s := s) ?_ ?_ _ <;> rfl

/-! ### PRESENCE_DELIVERED (R149) -/

/-- The peer table with the sender's entry, and the notices of what changed. -/
def presenceTaken (s : State) (x : Nat) (p : Peer) : State :=
  match s.peers.table.find x with
  | none => post (putPeer s x p) (.peerChange x .joined)
  | some old => postAll (putPeer s x p) (changeNotices x old p)

/-- The groups whose exists set a PRESENCE adds its sender to. -/
def groupsAdded (s : State) (x : Nat) (p : Peer) : List Nat :=
  match s.peers.table.find x with
  | none => p.groups
  | some old => p.groups.filter fun g => decide (g ∉ old.groups)

theorem takePresence_eq (s : State) (x : Nat) (p : Peer) : takePresence s x p =
    if ∃ old, s.peers.table.find x = some old ∧ old.groups = p.groups then presenceTaken s x p
    else peerTableChange (presenceTaken s x p) (groupsAdded s x p) := by
  unfold takePresence presenceTaken groupsAdded
  cases s.peers.table.find x with
  | none => exact (if_neg (fun ⟨_, h, _⟩ => by cases h)).symm
  | some old =>
    by_cases hg : old.groups = p.groups
    · rw [if_pos ⟨old, rfl, hg⟩]
      exact if_pos hg
    · rw [if_neg fun ⟨_, h, he⟩ => by cases h; exact hg he]
      exact if_neg hg

theorem presenceTaken_fields (s : State) (x : Nat) (p : Peer) : presenceTaken s x p = { s with
    peers := { s.peers with table := s.peers.table.put x p }, notices := (presenceTaken s x p).notices } := by
  have hpost : ∀ (bs : List NoticeBody) (t : State), postAll t bs = { t with notices := (postAll t bs).notices } := fun bs => by
    induction bs with
    | nil => exact fun t => rfl
    | cons b l ih =>
      intro t
      show postAll (post t b) l = { t with notices := (postAll (post t b) l).notices }
      have h := ih (post t b)
      rw [post_eq] at h
      rw [post_eq]
      exact h
  unfold presenceTaken
  split
  · exact post_eq ..
  · exact hpost ..

theorem presenceTaken_posts (s : State) (x : Nat) (p : Peer) : postsUpTo 2 s (presenceTaken s x p) := by
  have hall : ∀ (bs : List NoticeBody) (t : State), postsUpTo bs.length t (postAll t bs) := fun bs => by
    induction bs with
    | nil => exact fun t => Nat.le_refl _
    | cons b l ih =>
      intro t
      have h1 := post_upTo t b
      have h2 := ih (post t b)
      unfold postsUpTo at *
      show (postAll (post t b) l).notices.fifo.length ≤ _
      rw [List.length_cons]
      omega
  unfold presenceTaken
  split
  · have := post_upTo (putPeer s x p) (.peerChange x .joined)
    unfold postsUpTo at *
    exact Nat.le_succ_of_le this
  · next old _ =>
    have h := hall (changeNotices x old p) (putPeer s x p)
    have hlen : (changeNotices x old p).length ≤ 2 := by
      unfold changeNotices
      split <;> split <;> simp
    unfold postsUpTo at *
    exact Nat.le_trans h (Nat.add_le_add_left hlen _)

theorem post_notices {s t : State} (hn : t.notices = s.notices) (ht : t.clock.tod = s.clock.tod) (b : NoticeBody) :
    (post t b).notices = (post s b).notices := by rw [post_same hn ht]

theorem post_putPeer (s : State) (x : Nat) (p : Peer) (b : NoticeBody) :
    (post (putPeer (popInbox s) x p) b).notices = (post s b).notices := by
  refine post_notices ?_ ?_ b <;> rfl

theorem takePresence_noRound {s : State} (hno : ∀ h r, (h, CorrRecord.opened r) ∉ s.corr) {x : Nat} {p : Peer} :
    takePresence (popInbox s) x p = presenceTaken (popInbox s) x p := by
  rw [takePresence_eq]
  split
  · rfl
  · exact peerTableChange_noRound (by rw [presenceTaken_fields]; exact hno) _

theorem presenceTaken_new {s : State} {x : Nat} {p : Peer} (h : s.peers.table.find x = none) :
    presenceTaken (popInbox s) x p = post (putPeer (popInbox s) x p) (.peerChange x .joined) := by
  rw [presenceTaken, show (popInbox s).peers.table = s.peers.table from rfl, h]

theorem presenceTaken_known {s : State} {x : Nat} {p old : Peer} (h : s.peers.table.find x = some old) :
    presenceTaken (popInbox s) x p = postAll (putPeer (popInbox s) x p) (changeNotices x old p) := by
  rw [presenceTaken, show (popInbox s).peers.table = s.peers.table from rfl, h]

theorem changeNotices_peerOf (f : RxFrame) (st : PresenceState) (gs : List Nat) (old : Peer) :
    changeNotices f.sender old (peerOf f st gs) =
      (if old.state = st then [] else [.peerChange f.sender .stateChanged]) ++
      (if old.groups = gs then [] else [.peerChange f.sender .groupsChanged]) := rfl

theorem exec_presenceDelivered {s : State} {f : RxFrame} {rest : List RxFrame} {st : PresenceState} {gs : List Nat}
    (hin : s.line.inbox = f :: rest) (hb : f.body = .presence st gs) :
    exec .presenceDelivered s = .next (settle (takePresence (popInbox s) f.sender (peerOf f st (ascSet gs)))) := by
  show Host.Outcome.next _ = _
  rw [hin]
  dsimp only
  rw [hb]

end Sys2Proof.Machine

namespace Sys2Proof

open Machine

/-- Settles O54: the three timers of the peer unit, before and at their expiry. -/
theorem peerTimersExpire : Obligations.PeerTimersExpire := by
  refine ⟨fun s => ⟨fun h => ?_, fun h => ?_, fun e he hlt => ?_, fun e he hlt => ?_, fun e he hle hiso => ?_, fun e he hle => ⟨fun hst => ?_,
    fun hst => ?_, fun hst hdoze => ?_⟩⟩, fun s x => ⟨fun h => ?_, fun p hp hlt => ?_, fun p hp hle => ?_⟩⟩
  · exact congrArg Host.Outcome.next (if_neg (by rw [h]; nofun))
  · exact congrArg Host.Outcome.next (if_neg (by rw [h]; nofun))
  · exact congrArg Host.Outcome.next (if_neg (by rw [he, isDue_some]; simpa using hlt))
  · exact congrArg Host.Outcome.next (if_neg (by rw [he, isDue_some]; simpa using hlt))
  · have hexec : exec .presenceTimerExpiry s = .next (offerPresence s) :=
      congrArg Host.Outcome.next (if_pos (by rw [he, isDue_some]; simpa using hle))
    have heq := offerPresence_eq s hiso
    refine ⟨_, hexec, by rw [heq], fun hl hidle => ?_, by rw [heq]⟩
    rw [offerPresence, if_neg hiso]
    exact offer_presence { s with peers := { s.peers with presence := some (s.clock.now + 1000) } } 0 _ _ hl hiso hidle
  · rw [exec_learningTimer he hle, if_neg hst]
    rfl
  · rw [exec_learningTimer he hle, if_pos hst]
    have heq := learned_announces s
    refine ⟨_, rfl, ?_, ?_, fun hl hidle hawake hbusy => ?_⟩
    · rw [(settleSelect_keeps _).2.2.1, heq]
      rfl
    · rcases settleSelect_peers (offerPresence (learned s)) with h | h
      · rw [h, heq]
      · rw [h, heq]
        rfl
    · have hocc : (offerPresence (learned s)).occupied := by rw [heq]; exact ⟨hbusy, hawake⟩
      rw [settleSelect_occupied _ hocc]
      show ∃ f ∈ (offerPresence (learned s)).line.queue, _
      rw [offerPresence, if_neg nofun, presenceState_learned (by rw [hawake]; nofun)]
      exact offer_presence { learned s with peers := { (learned s).peers with presence := some (s.clock.now + 1000) } } 0 _ _
        hl nofun hidle
  · rw [exec_learningTimer he hle, if_pos hst]
    refine ⟨_, rfl, fun hl => ?_, learned_announces s⟩
    have hframe := offerPresence_hasFrame (learned s) nofun hl
    rwa [presenceState_learned hdoze] at hframe
  · show Host.Outcome.next (if ageDue s x then _ else _) = _
    rw [ageDue, h]
    rfl
  · rw [exec_ageTimer hp, if_neg (Nat.not_le.2 hlt)]
  · have hexec := exec_ageTimer hp
    rw [if_pos hle] at hexec
    have hout := agedOut_eq s x
    obtain ⟨hchange, -⟩ := peerTableChange_fields [] (agedOut s x)
    obtain ⟨hsettle, -⟩ := settle_fields (peerTableChange (agedOut s x) [])
    have htable : (settle (peerTableChange (agedOut s x) [])).peers.table = s.peers.table.erase x := by
      rw [hsettle, hchange, hout]
    refine ⟨_, hexec, by rw [htable, Table.find_erase, if_pos rfl], fun y hy => by rw [htable, Table.find_erase, if_neg hy],
      fun hroom => ?_, fun h o hwf ho => ?_, fun hno => ?_, ?_⟩
    · have htold : ⟨.peerChange x .agedOut, s.clock.tod⟩ ∈ (agedOut s x).notices.fifo := by
        rw [agedOut, post_fifo { s with peers := { s.peers with table := s.peers.table.erase x } } _ hroom]
        exact List.mem_append_right _ (List.mem_singleton_self _)
      rw [hsettle]
      exact (peerTableChange_reports [] (agedOut s x)).fifo.subset htold
    · exact (peerTableChange_checked (s0 := s) (s := agedOut s x) [] (by rw [hout]; exact hwf) (by rw [hout]; exact ho)
        (by rw [hout]) (by rw [hout]) (by rw [hout]) (by rw [hout])
        (Nat.le_succ_of_le (post_upTo { s with peers := { s.peers with table := s.peers.table.erase x } } _)) (.settle _)).1
    · rw [hsettle, peerTableChange_noRound (s := agedOut s x) (by rw [hout]; exact hno), hout]
      exact ⟨rfl, rfl⟩
    · rw [hsettle, hchange, hout]

/-- Settles O53: `takePresence`, then the peer-table change group by group. -/
theorem presenceUpdatesThePeerTable : Obligations.PresenceUpdatesThePeerTable := by
  intro s
  refine ⟨fun h => ?_, fun f rest st gs hin hb => ?_⟩
  · show Host.Outcome.next _ = _
    rw [h]
  · have hexec := exec_presenceDelivered hin hb
    have htaken := presenceTaken_fields (popInbox s) f.sender (peerOf f st (ascSet gs))
    have hposts := presenceTaken_posts (popInbox s) f.sender (peerOf f st (ascSet gs))
    have htake := takePresence_eq (popInbox s) f.sender (peerOf f st (ascSet gs))
    have hsame : ∀ v, takePresence (popInbox s) f.sender (peerOf f st (ascSet gs)) = v → v = { s with
        peers := { s.peers with table := s.peers.table.put f.sender (peerOf f st (ascSet gs)) }
        line := v.line, notices := v.notices, corr := v.corr } ∧ v.line.inbox = rest := fun v hv => by
      obtain ⟨hchange, hinbox⟩ := peerTableChange_fields
        (groupsAdded (popInbox s) f.sender (peerOf f st (ascSet gs)))
        (presenceTaken (popInbox s) f.sender (peerOf f st (ascSet gs)))
      have hrest : (popInbox s).line.inbox = rest := by
        show s.line.inbox.drop 1 = rest
        rw [hin]
        rfl
      rw [← hv, htake]
      split
      · rw [htaken]
        exact ⟨rfl, hrest⟩
      · rw [hinbox, hchange, htaken]
        exact ⟨rfl, hrest⟩
    obtain ⟨hv, hinbox⟩ := hsame _ rfl
    obtain ⟨hsettle, hsettleInbox⟩ := settle_fields (takePresence (popInbox s) f.sender (peerOf f st (ascSet gs)))
    have htable : (settle (takePresence (popInbox s) f.sender (peerOf f st (ascSet gs)))).peers.table =
        s.peers.table.put f.sender (peerOf f st (ascSet gs)) := by rw [hsettle, hv]
    have hcorr : (settle (takePresence (popInbox s) f.sender (peerOf f st (ascSet gs)))).corr =
        (takePresence (popInbox s) f.sender (peerOf f st (ascSet gs))).corr := by simp
    have hnotices : (settle (takePresence (popInbox s) f.sender (peerOf f st (ascSet gs)))).notices =
        (takePresence (popInbox s) f.sender (peerOf f st (ascSet gs))).notices := by simp
    refine ⟨_, hexec, by rw [htable, Table.find_put_same]; rfl, fun y hy => by rw [htable, Table.find_put_other _ _ _ _ hy],
      hsettleInbox.trans hinbox, by rw [hsettle, hv], by rw [hsettle, hv], by rw [hsettle, hv], fun old hold hg => ?_,
      fun h o hwf ho hchanged => ?_, fun hno => ⟨?_, fun hnone => ?_, fun old hold => ?_⟩, by rw [hsettle, hv]⟩
    · rw [hcorr, htake, if_pos ⟨old, hold, hg⟩, htaken]
      rfl
    · rw [if_neg (fun ⟨old, hold, hg⟩ => hchanged old hold hg)] at htake
      have hafter : Elsewhere h (takePresence (popInbox s) f.sender (peerOf f st (ascSet gs)))
          (settle (takePresence (popInbox s) f.sender (peerOf f st (ascSet gs)))) := .settle _
      rw [htake] at hafter
      obtain ⟨hchecked, hreoffer⟩ := peerTableChange_checked (s0 := s)
        (s := presenceTaken (popInbox s) f.sender (peerOf f st (ascSet gs))) (h := h) (o := o) _ (by rw [htaken]; exact hwf)
        (by rw [htaken]; exact ho) (by rw [htaken]; rfl) (by rw [htaken]; rfl) (by rw [htaken]; rfl) (by rw [htaken]; rfl)
        hposts hafter
      rw [← htake] at hchecked hreoffer
      refine ⟨hchecked, fun k d hh hnew hjoined hk hon => ?_⟩
      refine hreoffer ⟨k, some d⟩ ?_ (by rw [htaken]; exact hjoined) ((isFault_iff k).2 hk) (by rw [htaken]; exact hon)
      unfold groupsAdded
      rw [show (popInbox s).peers.table = s.peers.table from rfl]
      cases hold : s.peers.table.find f.sender with
      | none => exact (mem_ascSet h gs).2 hh
      | some old => exact List.mem_filter.2 ⟨(mem_ascSet h gs).2 hh, decide_eq_true (hnew old hold)⟩
    · rw [hcorr, takePresence_noRound hno, htaken]
      rfl
    · rw [hnotices, takePresence_noRound hno, presenceTaken_new hnone]
      exact post_putPeer ..
    · rw [hnotices, takePresence_noRound hno, presenceTaken_known hold]
      refine ⟨fun h1 h2 => ?_, fun h1 h2 => ?_, fun h1 h2 => ?_, fun h1 h2 => ?_⟩
      · rw [changeNotices_peerOf, if_pos h1, if_pos h2]
        rfl
      · rw [changeNotices_peerOf, if_neg h1, if_pos h2]
        exact post_putPeer ..
      · rw [changeNotices_peerOf, if_pos h1, if_neg h2]
        exact post_putPeer ..
      · rw [changeNotices_peerOf, if_neg h1, if_neg h2]
        exact post_notices (post_putPeer ..) (by simp) _

end Sys2Proof

/-! ## The rack line: access states, attempts and what ends them (R133 to R138, R159, R168) -/

namespace Sys2Proof.Machine

-- The kernel checks the lemmas one after another: many at once take a thread each.
set_option Elab.async false

/-! ### The head of the queue (R137) -/

/-- Frame f goes before frame g, or is g: higher urgency, then earlier age. -/
def goesBefore (f g : TxFrame) : Prop := g.urgency < f.urgency ∨ (g.urgency = f.urgency ∧ f.age ≤ g.age)

theorem goesBefore_trans {f g h : TxFrame} (a : goesBefore f g) (b : goesBefore g h) : goesBefore f h := by
  unfold goesBefore at *
  omega

theorem betterFrame_goesBefore (b : Option TxFrame) (g : TxFrame) : ∃ f, betterFrame b g = some f ∧ goesBefore f g ∧
    ∀ x, b = some x → goesBefore f x := by
  cases b with
  | none => exact ⟨g, rfl, .inr ⟨rfl, Nat.le_refl _⟩, nofun⟩
  | some x =>
    unfold betterFrame goesBefore
    by_cases h : x.urgency < g.urgency ∨ (x.urgency = g.urgency ∧ g.age < x.age)
    · exact ⟨g, if_pos h, .inr ⟨rfl, Nat.le_refl _⟩, fun y hy => by cases hy; omega⟩
    · exact ⟨x, if_neg h, by omega, fun y hy => by cases hy; exact .inr ⟨rfl, Nat.le_refl _⟩⟩

theorem foldl_betterFrame {f : TxFrame} : ∀ {q : List TxFrame} {b : Option TxFrame}, q.foldl betterFrame b = some f →
    (∀ g ∈ q, goesBefore f g) ∧ ∀ x, b = some x → goesBefore f x
  | [], b, h => ⟨nofun, fun x hx => by
      rw [List.foldl_nil, hx] at h
      cases h
      exact .inr ⟨rfl, Nat.le_refl _⟩⟩
  | g :: q, b, h => by
    obtain ⟨y, hy, hyg, hyb⟩ := betterFrame_goesBefore b g
    obtain ⟨hq, hfirst⟩ := foldl_betterFrame (q := q) h
    have hfy := hfirst y hy
    refine ⟨fun x hx => ?_, fun x hx => goesBefore_trans hfy (hyb x hx)⟩
    rcases List.mem_cons.1 hx with rfl | hx
    · exact goesBefore_trans hfy hyg
    · exact hq x hx

variable (s : State)

/-! ### Attempts (R133, R134) -/

theorem startAttempt_head {t : State} {f : TxFrame} (hidle : t.line.state = .idle) (hiso : t.port.station ≠ .isolated)
    (hf : queueHead t.line.queue = some f) : startAttempt t = { t with line := { t.line with
      state := .arbitrating, attempt := some f, attemptDropped := false
      queue := t.line.queue.filter fun x => decide (x ≠ f)
      driving := Frame.lineBits ⟨f.urgency, t.line.id, f.body⟩ } } := by
  have hlive : t.line.state ≠ .passive := by rw [hidle]; nofun
  rw [startAttempt, if_pos (by simp [canSend, hidle, hiso]), hf]
  rfl

theorem startAttempt_silent {t : State} (h : t.line.queue = [] ∨ t.port.station = .isolated) : startAttempt t = t := by
  unfold startAttempt
  split
  · next hgo =>
    rcases h with h | h
    · rw [h]
      rfl
    · simp [canSend, h] at hgo
  · rfl

/-! ### A CLAIM transmitted (R159, R168) -/

theorem exec_frameTransmitted {f : TxFrame} (hst : s.line.state = .sending) (hf : s.line.attempt = some f) :
    exec .frameTransmitted s = .next (reportTransmitted (endAttempt s .gap) f.body) := by
  show Host.Outcome.next _ = _
  rw [hst, hf]

theorem exec_arbitrationLost {f : TxFrame} (hst : s.line.state = .arbitrating) (hf : s.line.attempt = some f) :
    exec .arbitrationLost s = .next (loseArbitration s f) := by
  show Host.Outcome.next _ = _
  rw [hst, hf]

theorem claimTransmitted_unlisted {g : Nat} (h : s.claims.find g = none) : claimTransmitted s g = s := by
  rw [claimTransmitted, h]

theorem claimTransmitted_current {g y : Nat} (h : s.claims.find g = some ⟨.claiming y none, none⟩) :
    claimTransmitted s g = setClaim s g (.claiming y (some (s.clock.now + s.cfg.block.holdOff))) := by
  rw [claimTransmitted, h]
  rfl

theorem claimTransmitted_withdrawn {g y : Nat} {st : ClaimState} (h : s.claims.find g = some ⟨st, some (.withdrawn, y)⟩) :
    claimTransmitted s g = setStale s g none := by rw [claimTransmitted, h]

theorem claimTransmitted_givenUp {g y : Nat} {st : ClaimState} (h : s.claims.find g = some ⟨st, some (.givenUp, y)⟩) :
    claimTransmitted s g = if ownClaim st then setStale s g none else offer (setStale s g none) y (.release g y) := by
  rw [claimTransmitted, h]
  cases st <;> rfl

/-- Whatever the entry, the transmitted CLAIM changes claims and line alone, and leaves the line not IDLE. -/
theorem claimTransmitted_frame (g : Nat) : claimTransmitted s g = { s with
    claims := (claimTransmitted s g).claims, line := (claimTransmitted s g).line } ∧
    (∀ k, k ≠ g → (claimTransmitted s g).claims.find k = s.claims.find k) ∧
    (s.line.state ≠ .idle → (claimTransmitted s g).line.state = s.line.state ∧
      (claimTransmitted s g).line.attempt = s.line.attempt) := by
  have hstale : ∀ m k, k ≠ g → (setStale s g m).claims.find k = s.claims.find k := fun m k hk => by
    rw [find_setStale, if_neg hk]
  unfold claimTransmitted
  split
  · exact ⟨rfl, hstale none, fun _ => ⟨rfl, rfl⟩⟩
  · exact ⟨rfl, hstale none, fun _ => ⟨rfl, rfl⟩⟩
  · exact ⟨rfl, hstale none, fun _ => ⟨rfl, rfl⟩⟩
  · next l _ _ _ =>
    have heq := offer_eq (setStale s g none) l (.release g l)
    refine ⟨by rw [heq]; rfl, by rw [heq]; exact hstale none, fun hbusy => ?_⟩
    rw [offer_line_busy (setStale s g none) _ _ hbusy]
    split <;> exact ⟨rfl, rfl⟩
  · exact ⟨rfl, fun k hk => by rw [find_setClaim, if_neg hk], fun _ => ⟨rfl, rfl⟩⟩
  · exact ⟨rfl, fun _ _ => rfl, fun _ => ⟨rfl, rfl⟩⟩

theorem reportTransmitted_other {b : FrameBody} (h : ∀ g l, b ≠ .claim g l) : reportTransmitted s b = s := by
  cases b with
  | claim g l => exact absurd rfl (h g l)
  | _ => rfl

/-! ### A lost arbitration (R135, R138, R140) -/

theorem loseArbitration_dropped {f : TxFrame} (h : s.line.attemptDropped = true) :
    loseArbitration s f = clearStaleOf (endAttempt s .busy) f.body := if_pos h

theorem loseArbitration_returns {f : TxFrame} (h : s.line.attemptDropped = false) : loseArbitration s f = { s with
    line := { s.line with
      state := .busy, attempt := none, driving := [], queue := queueReturn s.line.queue f } } := by
  rw [loseArbitration, if_neg (by rw [h]; nofun)]
  simp [endAttempt, h]

theorem queueReturn_replaced {q : List TxFrame} {f : TxFrame} (h : ∃ g ∈ q, sameFrame g.body f.body = true) :
    queueReturn q f = q := if_pos (List.any_eq_true.2 h)

theorem queueReturn_enters {q : List TxFrame} {f : TxFrame} (h : ∀ g ∈ q, sameFrame g.body f.body = false)
    (hroom : isClaimFrame f.body = false ∨ (claimFrames q).length < 2) : queueReturn q f = insertByAge f q := by
  have hno : ¬ (q.any fun x => sameFrame x.body f.body) = true := by
    rw [List.any_eq_true]
    rintro ⟨x, hx, hs⟩
    rw [h x hx] at hs
    cases hs
  rw [queueReturn, if_neg hno]
  split
  · next hc =>
    rcases hroom with hn | hn
    · rw [hn] at hc
      cases hc
    · rw [enterClaimFrame, if_neg (Nat.not_le.2 hn)]
  · rfl

end Sys2Proof.Machine

namespace Sys2Proof

open Machine

/-- Settles O51: the line access states row by row, and the two ends of an attempt. -/
theorem lineAccessFollowsTheLine : Obligations.LineAccessFollowsTheLine := by
  refine ⟨fun q f hf => ⟨queueHead_mem hf, (foldl_betterFrame hf).1⟩, fun q => ⟨queueHead_eq_none, fun h => by rw [h]; rfl⟩, fun s => ?_⟩
  refine ⟨fun h1 h2 => congrArg Host.Outcome.next (if_neg (not_or.2 ⟨h1, h2⟩)), fun h => ⟨fun hsilent => ?_, fun f hf hiso => ?_⟩,
    fun h => ?_, fun h => ?_, fun f hidle hf hiso => ?_, fun h => congrArg Host.Outcome.next (if_pos h),
    fun h => ⟨congrArg Host.Outcome.next (if_neg h), ?_⟩,
    fun f hst hf => ⟨fun hd hsame => ?_, fun hd hnone hroom => ?_, fun hd => ?_⟩, fun h => ?_,
    fun f hst hf => ⟨fun hother => ?_, fun g l e hb he => ?_⟩⟩
  · show Host.Outcome.next _ = _
    rw [if_pos h, startAttempt_silent (t := setLine s .idle) hsilent]
    rfl
  · show Host.Outcome.next _ = _
    rw [if_pos h, startAttempt_head (t := setLine s .idle) rfl hiso hf]
    rfl
  · show Host.Outcome.next _ = _
    simp only [List.mem_cons, List.not_mem_nil, or_false] at h
    rcases h with h | h | h | h <;> rw [h]
  · show Host.Outcome.next _ = _
    rcases h with h | ⟨h, hsilent⟩
    · rw [h]
      rfl
    · rw [h]
      refine congrArg Host.Outcome.next (if_neg ?_)
      rcases hsilent with hq | hq
      · simp [hq]
      · simp [canSend, hq]
  · show Host.Outcome.next _ = _
    rw [hidle]
    have hne : s.line.queue ≠ [] := fun h => by rw [h] at hf; cases hf
    have hgo : (canSend s && !s.line.queue.isEmpty) = true := by simp [canSend, hidle, hiso, hne]
    dsimp only
    rw [joinOrBusy, if_pos hgo, startAttempt_head hidle hiso hf]
  · show Host.Outcome.next _ = _
    split
    · next he _ => exact absurd he h
    · rfl
  · rw [exec_arbitrationLost s hst hf, loseArbitration_returns s hd, queueReturn_replaced hsame]
  · rw [exec_arbitrationLost s hst hf, loseArbitration_returns s hd, queueReturn_enters hnone hroom]
  · rw [exec_arbitrationLost s hst hf, loseArbitration_dropped s hd]
    cases hb : f.body with
    | claim g l =>
      refine ⟨_, rfl, rfl, fun g' l' e hg he => ?_, nofun, rfl⟩
      cases hg
      refine (find_setStale ..).trans ?_
      rw [if_pos rfl, show (endAttempt s .busy).claims = s.claims from rfl, he]
      rfl
    | _ => exact ⟨_, rfl, rfl, nofun, fun _ => rfl, rfl⟩
  · show Host.Outcome.next _ = _
    split
    · next he _ => exact absurd he h
    · rfl
  · rw [exec_frameTransmitted s hst hf]
    rcases hother with h | ⟨g, l, hb, hn⟩
    · rw [reportTransmitted_other _ h]
      rfl
    · rw [hb]
      exact congrArg Host.Outcome.next (claimTransmitted_unlisted (endAttempt s .gap) hn)
  · have hexec := exec_frameTransmitted s hst hf
    rw [hb] at hexec
    obtain ⟨hframe, hclaims, hline⟩ := claimTransmitted_frame (endAttempt s .gap) g
    obtain ⟨hstate, hattempt⟩ := hline nofun
    have hstale : ∀ st m, e = ⟨st, m⟩ → (setStale (endAttempt s .gap) g none).claims.find g = some ⟨st, none⟩ := fun st m h => by
      rw [find_setStale, if_pos rfl, show (endAttempt s .gap).claims = s.claims from rfl, he, h]
      rfl
    refine ⟨claimTransmitted (endAttempt s .gap) g, hexec, hstate, hattempt, hclaims, fun y h => ?_, fun st y h => ?_,
      fun st y h hown => ?_, fun st y h hown => ?_, hframe⟩
    · rw [h] at he
      rw [claimTransmitted_current (endAttempt s .gap) he]
      refine ⟨?_, rfl⟩
      rw [find_setClaim, if_pos rfl, show (endAttempt s .gap).claims = s.claims from rfl, he]
      rfl
    · rw [claimTransmitted_withdrawn (endAttempt s .gap) (h ▸ he)]
      exact ⟨hstale st _ h, rfl⟩
    · rw [claimTransmitted_givenUp (endAttempt s .gap) (h ▸ he), if_pos hown]
      exact ⟨hstale st _ h, rfl⟩
    · rw [claimTransmitted_givenUp (endAttempt s .gap) (h ▸ he), if_neg (by rw [hown]; nofun)]
      refine ⟨?_, fun hiso => ?_⟩
      · rw [offer_eq]
        exact hstale st _ h
      · exact offer_release (setStale (endAttempt s .gap) g none) y g y nofun hiso nofun

end Sys2Proof

/-! ## Duplicate ids: the station leaves the line (R141 to R145) -/

namespace Sys2Proof.Machine

-- The kernel checks the lemmas one after another: many at once take a thread each.
set_option Elab.async false

/-! ### A station that is ISOLATED sends nothing (R136, R145) -/

/-- The station is ISOLATED, and no frame of it waits or is in an attempt. -/
def lineSilent (s : State) : Prop :=
  s.port.station = .isolated ∧ s.line.queue = [] ∧ s.line.attempt = none ∧ s.line.attemptDropped = false

/-- From a silent line on, neither line nor station state changes. -/
structure Silently (s t : State) : Prop where
  same : lineSilent s → t.line = s.line ∧ t.port = s.port

namespace Silently

theorem of_eq {s t : State} (line : t.line = s.line := by simp) (port : t.port = s.port := by simp) : Silently s t :=
  ⟨fun _ => ⟨line, port⟩⟩

theorem refl (s : State) : Silently s s := of_eq rfl rfl

theorem trans {s t u : State} (a : Silently s t) (b : Silently t u) : Silently s u where
  same h := by
    obtain ⟨hl, hp⟩ := a.same h
    obtain ⟨hl', hp'⟩ := b.same (by unfold lineSilent at *; rwa [hl, hp])
    exact ⟨hl'.trans hl, hp'.trans hp⟩

theorem foldl {α : Type} {f : State → α → State} (hf : ∀ t a, Silently t (f t a)) :
    ∀ (l : List α) (s : State), Silently s (l.foldl f s)
  | [], s => refl s
  | a :: l, s => (hf s a).trans (foldl hf l _)

theorem ite {p : Prop} [Decidable p] {s t u : State} (ht : p → Silently s t) (hu : ¬ p → Silently s u) :
    Silently s (if p then t else u) := by
  split
  · exact ht ‹_›
  · exact hu ‹_›

variable (s : State)

theorem offer (u : Nat) (b : FrameBody) : Silently s (offer s u b) where
  same h := by
    rw [offer_discarded s u b (.inr h.1)]
    exact ⟨rfl, rfl⟩

theorem askRemove (p : FrameBody → Bool) : Silently s (askRemove s p) where
  same := fun ⟨_, hq, ha, hd⟩ => by
    refine ⟨?_, rfl⟩
    simp only [Machine.askRemove, hq, ha, hd]
    cases hl : s.line
    simp_all

theorem releaseClaim (g : Nat) : Silently s (releaseClaim s g) := by
  unfold Machine.releaseClaim
  split
  · refine Silently.trans ?_ (offer _ _ _)
    exact of_eq rfl rfl
  · exact refl s

theorem giveUpClaim (g : Nat) : Silently s (giveUpClaim s g) := by
  unfold Machine.giveUpClaim
  split
  · refine Silently.trans ?_ (offer _ _ _)
    exact of_eq rfl rfl
  · have hask := askRemove s (isClaimOrHold g)
    exact ite (fun _ => hask.trans (of_eq rfl rfl)) fun _ => hask.trans (of_eq rfl rfl)
  · exact refl s

theorem dropClaim (n : Nat) : Silently s (dropClaim s n) := ite (fun _ => giveUpClaim s _) fun _ => releaseClaim s _

theorem makeReport (h : Nat) (r : OpenRound) : Silently s (makeReport s h r) := by
  refine Silently.trans (t := offerFinding s h (ownReportOf r)) (offer ..) (of_eq ?_ ?_)
  · simp only [Machine.makeReport, completionCheck_keeps]
    rfl
  · simp only [Machine.makeReport, completionCheck_keeps]
    rfl

theorem decideSpan (n : Nat) (t h : Option Nat) (found : Option (List Best)) : Silently s (decideSpan s n t h found) := by
  unfold Machine.decideSpan
  split
  · split
    · refine ite (fun _ => ite (fun _ => makeReport ..) fun _ => ?_) fun _ => refl s
      exact of_eq rfl rfl
    all_goals exact refl s
  · exact refl s

theorem confirmReport (c : Ctx) (w : Option Comparison) : Silently s (confirmReport s c w) := by
  unfold Machine.confirmReport
  split
  · split
    · exact decideSpan ..
    · exact refl s
  · exact refl s

theorem unableBegins : Silently s (unableBegins s) := by
  refine foldl (fun t h => ?_) _ s
  unfold unableRound
  split
  · exact ite (fun _ => refl t) fun _ => makeReport ..
  all_goals exact refl t

/-- An end without a comparison (R85). -/
theorem endSweep {c : Ctx} (hc : s.engine.ctx = some c) {o : SweepOutcome} (hw : writtenPart s o = none)
    (pre : List NoticeBody) : Silently s (endSweep s o pre) := by
  rw [endSweep_eq hc, sweepClosed, hw]
  refine Silently.trans (t := postAll (writeResult s c o s.acc.current.lit) (pre ++ [.sweepDone c.span o])) of_eq ?_
  refine (confirmReport _ c none).trans ?_
  generalize Machine.confirmReport _ c none = u
  show Silently u (clearEngine (sweepOver u c))
  exact Silently.trans (t := sweepOver u c) of_eq (of_eq rfl rfl)

theorem abort (o : SweepOutcome) (pre : List NoticeBody) : Silently s (abort s o pre) := by
  cases hc : s.engine.ctx with
  | none =>
    rw [Machine.abort, hc]
    exact refl s
  | some c =>
    rw [abort_eq s hc]
    refine (dropClaim s c.span).trans (Silently.trans ?_ (endSweep (c := c) _ ?_ (writtenPart_stopReduction _ o) _))
    · exact of_eq (by simp [stopReduction]) (by simp [stopReduction])
    · simp [stopReduction, hc]

theorem stopSweep (o : SweepOutcome) (pre : List NoticeBody) : Silently s (stopSweep s o pre) := by
  rcases stopSweep_cases s o pre with ⟨n, _, _, h⟩ | ⟨c, _, _, h⟩ | ⟨h, _⟩ <;> rw [h]
  · exact (giveUpClaim s (lightGroupOf s n)).trans of_eq
  · exact abort s o pre
  · exact refl s

end Silently

theorem wake_isolated {s : State} (h : s.port.station = .isolated) :
    wake s = { s with clock := (wake s).clock } ∧ (wake s).clock.state = awakened s ∧ (wake s).clock.now = s.clock.now := by
  by_cases hd : s.clock.state = .dozing
  · rw [wake_dozing s hd, offerPresence_isolated (woken s) h, awakened, if_pos hd]
    exact ⟨rfl, rfl, rfl⟩
  · rw [wake_awake s hd, awakened, if_neg hd]
    exact ⟨rfl, rfl, rfl⟩

/-! ### Claims that are left behind (R145) -/

/-- No entry carries a stale CLAIM mark. -/
def unmarked (s : State) : Prop := ∀ e ∈ s.claims, e.2.stale = none

theorem unmarked_clearStale (s : State) : unmarked (clearStale s) := by
  intro e he
  obtain ⟨d, _, rfl⟩ := List.mem_map.1 he
  rfl

theorem unmarked_setClaim {s : State} (h : unmarked s) (g : Nat) (st : ClaimState) : unmarked (setClaim s g st) := by
  intro e he
  obtain ⟨d, hd, rfl⟩ := List.mem_map.1 he
  split
  · exact h d hd
  · exact h d hd

theorem unmarked_giveUpClaim {s : State} (h : unmarked s) (ha : s.line.attempt = none) (g : Nat) : unmarked (giveUpClaim s g) := by
  unfold giveUpClaim
  split
  · rw [offer_eq]
    exact unmarked_setClaim h g .free
  · dsimp only
    rw [if_neg (by simp [currentInAttempt, inAttempt, ha])]
    exact unmarked_setClaim h g .free
  · exact h

theorem unmarked_releaseClaim {s : State} (h : unmarked s) (g : Nat) : unmarked (releaseClaim s g) := by
  unfold releaseClaim
  split
  · rw [offer_eq]
    exact unmarked_setClaim h g .free
  · exact h

theorem abort_claims {s : State} {c : Ctx} (hc : s.engine.ctx = some c) (hsel : s.sched.selection = none) (o : SweepOutcome)
    (pre : List NoticeBody) : (abort s o pre).claims = (releaseClaim s (lightGroupOf s c.span)).claims := by
  have h := (Reports.abort s hc o pre).claims
  rwa [dropClaim, if_neg (by rw [isUntaken, hsel]; nofun)] at h

/-- After a stop that finds no attempt, the station claims nothing, and no mark is left. -/
theorem stopSweep_claims {s : State} (hstand : Stand s) (hwf : Table.wf s.claims) (hmark : unmarked s)
    (ha : s.line.attempt = none) (o : SweepOutcome) (pre : List NoticeBody) :
    ∀ e ∈ (stopSweep s o pre).claims, ownKind e.2.state = none ∧ e.2.stale = none := by
  have hboth : ∀ t u : State, t.claims = u.claims → noClaim u → unmarked u →
      ∀ e ∈ t.claims, ownKind e.2.state = none ∧ e.2.stale = none := fun t u h hn hm e he => by
    rw [h] at he
    exact ⟨hn e he, hm e he⟩
  cases hstand with
  | rest state ctx selection claims =>
    rw [stopSweep_taken s selection, abort, ctx]
    exact hboth s s rfl claims hmark
  | slot n r state ctx selection enabled found selected claims =>
    rw [stopSweep_untaken s (n := n) (by rw [selection]; nofun) (by rw [engineSpan, ctx, selectedSlot, selection])]
    exact hboth _ (giveUpClaim s (lightGroupOf s n)) (by simp) (noClaim_giveUpClaim hwf claims) (unmarked_giveUpClaim hmark ha _)
  | save c state ctx selection resumed path claims =>
    rw [stopSweep_untaken s (n := c.span) (by rw [selection]; nofun) (by rw [engineSpan, ctx])]
    exact hboth _ (giveUpClaim s (lightGroupOf s c.span)) (by simp) (noClaim_giveUpClaim hwf claims)
      (unmarked_giveUpClaim hmark ha _)
  | taken c state ctx selection path claims ended =>
    rw [stopSweep_taken s selection]
    exact hboth _ (releaseClaim s (lightGroupOf s c.span)) (abort_claims ctx selection o pre) (noClaim_releaseClaim hwf claims)
      (unmarked_releaseClaim hmark _)

/-! ### The steps of R145 -/

variable (s : State)

/-- The station has left the line, with its notice; the engine has not heard of it yet. -/
def dupNoted (s : State) (cause : DupCause) : State := post (isolate s) (.dupId s.line.id cause)

theorem detectDup_eq (cause : DupCause) :
    detectDup s cause = settle (unableBegins (wake (stopSweep (dupNoted s cause) .aborted []))) := rfl

theorem dupNoted_eq (cause : DupCause) : dupNoted s cause = { s with
    notices := (post s (.dupId s.line.id cause)).notices
    line := { s.line with
      dupId := true, attempt := none, attemptDropped := false, driving := [], queue := []
      state := stopDriving s.line.state }
    port := { s.port with station := .isolated }
    peers := { s.peers with presence := none, learning := none }
    claims := (clearStale s).claims } := by
  refine post_same (s := s) ?_ ?_ _ <;> rfl

theorem dupNoted_silent (cause : DupCause) : lineSilent (dupNoted s cause) := by
  rw [dupNoted_eq]
  exact ⟨rfl, rfl, rfl, rfl⟩

/-- The sweep is stopped, and the rest of R145 adds nothing but decisions and a wake. -/
theorem detectDup_facts (cause : DupCause) : ∃ t, detectDup s cause = t ∧
    t.engine = (stopSweep (dupNoted s cause) .aborted []).engine ∧ t.sched = (stopSweep (dupNoted s cause) .aborted []).sched ∧
    t.acc = (stopSweep (dupNoted s cause) .aborted []).acc ∧ t.comp = (stopSweep (dupNoted s cause) .aborted []).comp ∧
    t.store = (stopSweep (dupNoted s cause) .aborted []).store ∧ t.alerts = (stopSweep (dupNoted s cause) .aborted []).alerts ∧
    t.claims = (stopSweep (dupNoted s cause) .aborted []).claims ∧
    Reports (stopSweep (dupNoted s cause) .aborted []) t ∧
    t.port = { s.port with station := .isolated } ∧
    t.line = { s.line with
      dupId := true, attempt := none, attemptDropped := false, driving := [], queue := []
      state := stopDriving s.line.state } ∧
    t.peers = { s.peers with presence := none, learning := none } ∧ t.clock.state = awakened s := by
  have hsilent := (Silently.stopSweep (dupNoted s cause) .aborted []).same (dupNoted_silent s cause)
  have hclock := stopSweep_clock (dupNoted s cause) .aborted []
  have hpeers : (stopSweep (dupNoted s cause) .aborted []).peers = (dupNoted s cause).peers := by simp
  rw [detectDup_eq]
  generalize stopSweep (dupNoted s cause) .aborted [] = v at *
  obtain ⟨hline, hport⟩ := hsilent
  have hsil : lineSilent v := by
    have h := dupNoted_silent s cause
    unfold lineSilent at h ⊢
    rwa [hline, hport]
  obtain ⟨hwake, hstate, _⟩ := wake_isolated hsil.1
  have hreports : Reports v (unableBegins (wake v)) := (Reports.wake v).trans (.unableBegins _)
  have hsilw : lineSilent (wake v) := by rw [hwake]; exact hsil
  obtain ⟨hline', hport'⟩ := (Silently.unableBegins (wake v)).same hsilw
  have hsettle : settle (unableBegins (wake v)) = stopDoze (unableBegins (wake v)) :=
    settle_not_running _ (by rw [hport', hsilw.1]; nofun)
  have hawk : awakened v = awakened s := by
    unfold awakened
    rw [hclock, dupNoted_eq]
  rw [hsettle]
  refine ⟨_, rfl, ?_, ?_, ?_, ?_, ?_, ?_, ?_, hreports.trans (.of_eq rfl rfl rfl), ?_, ?_, ?_, ?_⟩
  · simp [stopDoze]
  · simp [stopDoze]
  · simp [stopDoze]
  · simp [stopDoze]
  · simp [stopDoze]
  · simp [stopDoze]
  · simp [stopDoze]
  · show (unableBegins (wake v)).port = _
    rw [hport', hwake]
    show v.port = _
    rw [hport, dupNoted_eq]
  · show (unableBegins (wake v)).line = _
    rw [hline', hwake]
    show v.line = _
    rw [hline, dupNoted_eq]
  · show (unableBegins (wake v)).peers = _
    simp only [unableBegins_keeps]
    rw [hwake]
    show v.peers = _
    rw [hpeers, dupNoted_eq]
  · show (unableBegins (wake v)).clock.state = _
    simp only [unableBegins_keeps]
    rw [hstate, hawk]

theorem stopSweep_fifo (o : SweepOutcome) (pre : List NoticeBody) : s.notices.fifo <+: (stopSweep s o pre).notices.fifo := by
  rcases stopSweep_cases s o pre with ⟨n, _, _, h⟩ | ⟨c, _, hc, h⟩ | ⟨h, _⟩ <;> rw [h]
  · simp
  · have hp := (Reports.abort s hc o pre).fifo
    simpa using hp

theorem stand_dupNoted (h : Stand s) (cause : DupCause) : Stand (dupNoted s cause) := by
  have hq : Quiet s (dupNoted s cause) := (quiet_isolate s).trans (.post _ _)
  have heq := dupNoted_eq s cause
  have hgroup : ∀ n, lightGroupOf (dupNoted s cause) n = lightGroupOf s n := fun n => by rw [heq]; rfl
  have hen : ∀ n, isEnabled (dupNoted s cause) n = isEnabled s n := fun n => by rw [heq]; rfl
  have hengine : (dupNoted s cause).engine = s.engine := by rw [heq]
  have hsched : (dupNoted s cause).sched = s.sched := by rw [heq]
  cases h with
  | rest state ctx selection claims =>
    exact .rest (by rw [hengine, state]) (by rw [hengine, ctx]) (by rw [hsched, selection]) (hq.noClaim claims)
  | slot n r state ctx selection enabled found selected claims =>
    exact .slot n r (by rw [hengine, state]) (by rw [hengine, ctx]) (by rw [hsched, selection]) (by rw [hen, enabled])
      (by rw [hsched, found]) selected (by rw [hgroup]; exact hq.claimsOnly claims)
  | save c state ctx selection resumed path claims =>
    exact .save c (by rw [hengine, state]) (by rw [hengine, ctx]) (by rw [hsched, selection]) resumed path
      (by rw [hgroup]; exact hq.claimsOnly claims)
  | taken c state ctx selection path claims ended =>
    exact .taken c (by rw [hengine, state]) (by rw [hengine, ctx]) (by rw [hsched, selection]) (by rw [hengine]; exact path)
      (by rw [hgroup]; exact hq.claimsOnly claims) fun hm => hq.noClaim (ended (by rwa [hengine] at hm))

theorem ownClaim_of_ownKind {st : ClaimState} (h : ownKind st = none) : ownClaim st = false := by
  cases st with
  | free => rfl
  | held => rfl
  | claiming => cases h
  | opened => cases h

/-- The station that isolates itself, from the row that brought the evidence. -/
theorem detectDup_isolates {s : State} (cause : DupCause) {g : LineState} (hg : stopDriving s.line.state = g)
    (hsound : s.engineSound) (hwf : Table.wf s.claims) : ∃ t, detectDup s cause = t ∧
      t.port = { s.port with station := .isolated } ∧
      t.line = { s.line with
        dupId := true, attempt := none, attemptDropped := false, driving := [], queue := [], state := g } ∧
      t.peers = { s.peers with presence := none, learning := none } ∧
      (s.notices.fifo.length < 32 → ⟨.dupId s.line.id cause, s.clock.tod⟩ ∈ t.notices.fifo) ∧
      atRest t.engine.state = true ∧ t.engine.ctx = none ∧ t.sched.selection = none ∧
      (∀ e ∈ t.claims, ownClaim e.2.state = false ∧ e.2.stale = none) ∧
      t.clock.state = (if s.clock.state = .dozing then .locking else s.clock.state) ∧
      (s.sched.selection = none → t.sched.save = s.sched.save ∧ t.sched.resumeExpiry = s.sched.resumeExpiry) ∧
      (∀ c, s.engine.ctx = some c → s.sched.selection = some .save → resumeReturned s t c) ∧
      (∀ c, s.engine.ctx = some c → s.sched.selection = none → sweepEnded s t c ∧
        (∀ x, s.comp.results.find c.span = some x → t.comp.results.find c.span = some { x with
          latest := some ⟨.aborted, c.kind, c.level, s.clock.tod, s.acc.current.lit, c.darkLevel⟩ }) ∧
        (s.notices.fifo.length + (if s.engine.state = .storing then 3 else 2) ≤ 32 →
          ⟨.sweepDone c.span .aborted, s.clock.tod⟩ ∈ t.notices.fifo)) ∧
      (s.engine.state ≠ .storing → t.store = s.store) ∧
      (∀ c r, s.engine.ctx = some c → s.sched.selection = none → s.engine.state = .storing →
        enabledRec s c.span = some r → writeWasCut s t c.span r ∧
        (s.notices.fifo.length < 31 → ⟨.fpLost c.span .writeCut, s.clock.tod⟩ ∈ t.notices.fifo)) := by
  obtain ⟨t, ht, hengine, hsched, hacc, hcomp, hstore, halerts, hclaims, hreports, hport, hline, hpeers, hclock⟩ :=
    detectDup_facts s cause
  have heq := dupNoted_eq s cause
  have hposts : (dupNoted s cause).notices.fifo.length ≤ s.notices.fifo.length + 1 := by
    rw [heq]
    exact post_upTo s _
  have hheld : engineHeld (dupNoted s cause) := by
    rw [heq]
    exact engineHeld_of_sound s hsound
  obtain ⟨hctx, hselection, hatRest⟩ := stopSweep_rests (dupNoted s cause) hheld .aborted []
  have hspanOf : ∀ n, lightGroupOf (dupNoted s cause) n = lightGroupOf s n := fun n => by rw [heq]; rfl
  have htaken : s.sched.selection = none →
      stopSweep (dupNoted s cause) .aborted [] = abort (dupNoted s cause) .aborted [] :=
    fun hsel => stopSweep_taken (dupNoted s cause) (by rw [heq]; exact hsel) .aborted []
  have hb : ∀ {c : Ctx}, s.engine.ctx = some c → BeforeEnd (dupNoted s cause) (dupNoted s cause) c c := fun hc =>
    .of_same (by rw [heq]; exact hc) rfl rfl rfl rfl rfl rfl
  have htod : (dupNoted s cause).clock.tod = s.clock.tod := by rw [heq]
  have hcut : ∀ n, (writeCutNotice (dupNoted s cause) n).length = if s.engine.state = .storing then 1 else 0 := fun n => by
    unfold writeCutNotice
    rw [show (dupNoted s cause).engine = s.engine by rw [heq]]
    split <;> rfl
  refine ⟨t, ht, hport, by rw [hline, hg], hpeers, fun hroom => ?_, by rw [hengine, hatRest], by rw [hengine, hctx],
    by rw [hsched, hselection], ?_, hclock, fun hsel => ?_, fun c hc hsel => ?_, fun c hc hsel => ⟨?_, fun x hx => ?_, fun hroom => ?_⟩,
    fun hst => ?_, fun c r hc hsel hst hr => ⟨?_, fun hroom => ?_⟩⟩
  · refine (stopSweep_fifo (dupNoted s cause) .aborted [] |>.trans hreports.fifo).subset ?_
    rw [dupNoted, post_fifo (isolate s) _ hroom]
    exact List.mem_append_right _ (List.mem_singleton_self _)
  · intro e he
    rw [hclaims] at he
    obtain ⟨_, _, hstand⟩ := (engineSound_iff s).1 hsound
    have hwf' : Table.wf (dupNoted s cause).claims := by
      rw [heq]
      show ((s.claims.map fun e => (e.1, { e.2 with stale := none })).map (·.1)).Pairwise (· < ·)
      rw [List.map_map]
      exact hwf
    have hmark : unmarked (dupNoted s cause) := by
      rw [heq]
      exact unmarked_clearStale s
    obtain ⟨hkind, hstale⟩ := stopSweep_claims (stand_dupNoted s hstand cause) hwf' hmark (dupNoted_silent s cause).2.2.1 .aborted [] e he
    exact ⟨ownClaim_of_ownKind hkind, hstale⟩
  · rw [hsched]
    have h := stopSweep_save (dupNoted s cause) .aborted [] (by rw [heq]; show s.sched.selection ≠ _; rw [hsel]; nofun)
    rw [heq] at h ⊢
    exact h
  · have hback := giveBack_save (giveUpClaim (dupNoted s cause) (lightGroupOf s c.span)) c (by simpa [heq] using hsel)
      (by simpa [heq] using hc)
    have hstop : stopSweep (dupNoted s cause) .aborted [] = giveBack (giveUpClaim (dupNoted s cause) (lightGroupOf s c.span)) := by
      rw [← hspanOf]
      exact stopSweep_untaken (dupNoted s cause) (n := c.span) (by rw [heq]; show s.sched.selection ≠ _; rw [hsel]; nofun)
        (by rw [engineSpan, show (dupNoted s cause).engine = s.engine by rw [heq], hc]) .aborted []
    rw [← hstop] at hback
    exact resumeReturned_congr hback (by simp [heq]) (by simp [heq]) (by simp [heq]) hsched hengine hacc
  · refine sweepEnded_congr (s := dupNoted s cause) ?_ (by rw [heq]) (by rw [heq]) (by rw [heq]) (by rw [heq]) halerts hengine hsched
      hacc hcomp
    rw [htaken hsel]
    exact (abort_facts (hb hc) .aborted []).1
  · have h := (abort_facts (hb hc) .aborted []).2.1 x (by rw [heq]; exact hx)
    rw [hcomp, htaken hsel, h, htod, show (dupNoted s cause).acc = s.acc by rw [heq]]
  · refine hreports.fifo.subset ?_
    have h := (abort_facts (hb hc) .aborted []).2.2.1
    rw [hcut, htod, List.length_nil] at h
    rw [htaken hsel]
    refine h ?_
    split at hroom
    · next hst => rw [if_pos hst]; omega
    · next hst => rw [if_neg hst]; omega
  · rw [hstore, stopSweep_store (dupNoted s cause) .aborted [] (by rw [heq]; exact hst), heq]
  · refine writeWasCut_congr (s := dupNoted s cause) ?_ (by rw [heq]) (by rw [heq]) hstore
    rw [htaken hsel]
    exact abort_cut (dupNoted s cause) (by rw [heq]; exact hc) (by rw [heq]; exact hst) (by rw [heq]; exact hr) .aborted []
  · refine hreports.fifo.subset ?_
    have h := (abort_facts (hb hc) .aborted []).2.2.2 (.fpLost c.span .writeCut)
    rw [hcut, htod, List.length_nil, if_pos hst] at h
    rw [htaken hsel]
    refine h ?_ (by omega)
    rw [writeCutNotice, if_pos (show (dupNoted s cause).engine.state = .storing by rw [heq]; exact hst)]
    exact List.mem_singleton_self _

/-! ### The two rows -/

theorem exec_frameReceived_frame {s : State} {bits : List Bool} {f : Sys2Proof.Frame} (hst : s.line.state = .busy)
    (hf : parseFrame bits = some f) : exec (.frameReceived bits) s = .next (takeFrame (setLine s .gap) f) := by
  show execFrameReceived bits s = _
  rw [execFrameReceived, if_pos hst, hf]

theorem detectsDup_iff (s : State) :
    detectsDup s = true ↔ s.port.station = .learning ∨ s.port.station = .running ∨ s.port.station = .halted := by
  simp [detectsDup, or_assoc]

theorem not_detectsDup {s : State} (h : s.port.station = .unconfigured ∨ s.port.station = .isolated) :
    detectsDup s = false := by
  rcases h with h | h <;> simp [detectsDup, h]

theorem takeFrame_own {s : State} {f : Sys2Proof.Frame} (hf : f.sender = s.line.id) :
    takeFrame s f = if detectsDup s then detectDup s .received else s := if_pos hf

theorem takeFrame_other {s : State} {f : Sys2Proof.Frame} (hf : f.sender ≠ s.line.id) : takeFrame s f = enterInbox s f := if_neg hf

theorem exec_readbackError (s : State) : exec .readbackError s =
    .next (if s.line.state = .sending ∧ detectsDup s = true then detectDup s .readback else s) := rfl

end Sys2Proof.Machine

namespace Sys2Proof

open Machine

/-- Settles O52: evidence of a duplicate id, whichever row gives it, is the one isolation of `detectDup_isolates`. -/
theorem framesArriveAndDuplicatesIsolate : Obligations.FramesArriveAndDuplicatesIsolate := by
  intro s bits
  refine ⟨fun hst => congrArg Host.Outcome.next (if_neg hst), fun hst hnone => ?_, fun f hst hf hother => ?_,
    fun f hst hf hown hport => ?_, fun hquiet => ?_, fun i cause g hi hport hsound hwf => ?_⟩
  · show execFrameReceived bits s = _
    rw [execFrameReceived, if_pos hst, hnone]
    rfl
  · rw [exec_frameReceived_frame hst hf, takeFrame_other (show f.sender ≠ (setLine s .gap).line.id from hother)]
    exact ⟨fun h => congrArg Host.Outcome.next (if_pos h), fun h => congrArg Host.Outcome.next (if_neg (Nat.not_lt.mpr h))⟩
  · rw [exec_frameReceived_frame hst hf, takeFrame_own (show f.sender = (setLine s .gap).line.id from hown),
      not_detectsDup (show (setLine s .gap).port.station = _ ∨ (setLine s .gap).port.station = _ from hport)]
    rfl
  · rw [exec_readbackError, if_neg]
    rintro ⟨hst, hdup⟩
    rcases hquiet with h | h
    · exact h hst
    · rw [not_detectsDup h] at hdup
      exact absurd hdup nofun
  · rcases hi with ⟨f, rfl, hst, hf, hown, rfl, rfl⟩ | ⟨rfl, hst, rfl, rfl⟩
    · obtain ⟨t, ht, hfacts⟩ := detectDup_isolates (s := setLine s .gap) .received (g := .gap) rfl hsound hwf
      refine ⟨t, ?_, hfacts⟩
      rw [exec_frameReceived_frame hst hf, takeFrame_own (show f.sender = (setLine s .gap).line.id from hown),
        if_pos ((detectsDup_iff (setLine s .gap)).2 hport), ht]
    · obtain ⟨t, ht, hfacts⟩ := detectDup_isolates (s := s) .readback (g := .busy) (by rw [hst]; rfl) hsound hwf
      refine ⟨t, ?_, hfacts⟩
      rw [exec_readbackError, if_pos ⟨hst, (detectsDup_iff s).2 hport⟩, ht]

end Sys2Proof

/-! ## Spans out of service and back (R51, R52) -/

namespace Sys2Proof.Machine

-- The kernel checks the lemmas one after another: many at once take a thread each.
set_option Elab.async false

variable (s : State)

/-! ### The rows -/

theorem spanRefusal_state {n : Nat} (h : s.port.station = .unconfigured) : spanRefusal s n = some .refusedState := if_pos h

theorem spanRefusal_param {n : Nat} (h : s.port.station ≠ .unconfigured) (hn : n = 0 ∨ 48 < n ∨ isEnabled s n = false) :
    spanRefusal s n = some .refusedParam := by
  refine (if_neg h).trans (if_pos ?_)
  rw [Bool.or_eq_true, Bool.not_eq_true', Bool.not_eq_true', ← Bool.not_eq_true, within_iff, show Config.spans = 48 from rfl]
  rcases hn with h | h | h
  · exact .inl (by omega)
  · exact .inl (by omega)
  · exact .inr h

theorem spanRefusal_none {n : Nat} (h : s.port.station ≠ .unconfigured) (h1 : 1 ≤ n) (h48 : n ≤ 48) (hen : isEnabled s n = true) :
    spanRefusal s n = none := by
  refine (if_neg h).trans (if_neg ?_)
  rw [hen, (within_iff 1 Config.spans n).2 ⟨h1, h48⟩]
  nofun

theorem exec_spanOff_refused {n : Nat} {k : ReplyKind} (h : spanRefusal s n = some k) :
    exec (.spanOff n) s = .next (answer s k []) := by
  show execSpanOff n s = _
  rw [execSpanOff, h]
  rfl

theorem exec_spanOn_refused {n : Nat} {k : ReplyKind} (h : spanRefusal s n = some k) :
    exec (.spanOn n) s = .next (answer s k []) := by
  show execSpanOn n s = _
  rw [execSpanOn, h]
  rfl

theorem exec_spanOff {n : Nat} (h : spanRefusal s n = none) : exec (.spanOff n) s =
    .next (if n ∈ s.sched.off then answer s .accepted [] else answer (settleSelect (spanOff s n)) .accepted []) := by
  show execSpanOff n s = _
  rw [execSpanOff, h]
  simp only [isOff, decide_eq_true_eq]
  rfl

theorem exec_spanOn {n : Nat} (h : spanRefusal s n = none) : exec (.spanOn n) s =
    .next (if n ∈ s.sched.off then answer (settleSelect (spanOn s n)) .accepted [] else answer s .accepted []) := by
  show execSpanOn n s = _
  rw [execSpanOn, h]
  simp only [isOff, decide_eq_true_eq]
  rfl

/-! ### SPAN-ON -/

/-- The off mark of a span is cleared. -/
def returned (s : State) (n : Nat) : State :=
  { s with sched := { s.sched with off := s.sched.off.filter fun m => decide (m ≠ n) } }

theorem spanOn_eq (n : Nat) : spanOn s n =
    if levelHolds (returned s n) n then putSlot (returned s n) n (alertRequest s n) else returned s n :=
  levelTest_eq (returned s n) n

theorem levelHolds_returned (n : Nat) : levelHolds (returned s n) n ↔
    alertModeOfSpan s n = .level ∧ n ∈ s.alerts.asserted ∧ s.sched.slots.find n = none ∧ ctxIs s.engine.ctx n = false ∧
    ctxIs s.sched.save n = false ∧ s.alerts.timers.find n = none := by
  have hoff : isOff (returned s n) n = false := by simp [returned, isOff]
  unfold levelHolds
  rw [hoff]
  exact ⟨fun ⟨hmode, _, h⟩ => ⟨hmode, h⟩, fun ⟨hmode, h⟩ => ⟨hmode, rfl, h⟩⟩

theorem spanOn_ok {n : Nat} (h : spanRefusal s n = none) (hoff : n ∈ s.sched.off) :
    exec (.spanOn n) s = .next (answer (settleSelect
      (if levelHolds (returned s n) n then putSlot (returned s n) n (alertRequest s n) else returned s n)) .accepted []) := by
  rw [exec_spanOn s h, if_pos hoff, spanOn_eq]

/-! ### What the removal of a request tells -/

/-- Between s and t a request was withdrawn in the unit's tables: at most one notice, FINDINGs at most, and no change to
claims, spans, engine or store. -/
structure Tells (s t : State) : Prop where
  reports : Reports s t
  posts : postsUpTo 1 s t
  attempt : s.line.state ≠ .idle → t.line.attempt = s.line.attempt
  pending : t.pending = s.pending := by simp
  reference : t.reference = s.reference := by simp
  port : t.port = s.port := by simp
  cfg : t.cfg = s.cfg := by simp
  clock : t.clock = s.clock := by simp
  alerts : t.alerts = s.alerts := by simp
  sched : t.sched = s.sched := by simp
  engine : t.engine = s.engine := by simp
  acc : t.acc = s.acc := by simp
  trace : t.trace = s.trace := by simp
  comp : t.comp = s.comp := by simp
  store : t.store = s.store := by simp

namespace Tells

theorem refl (s : State) : Tells s s where
  reports := .refl s
  posts := Nat.le_add_right ..
  attempt := fun _ => rfl

theorem post (s : State) (b : NoticeBody) : Tells s (post s b) where
  reports := .post s b
  posts := post_upTo s b
  attempt := fun _ => by simp

theorem decideSpan (s : State) (n : Nat) (t h : Option Nat) (found : Option (List Best)) :
    Tells s (decideSpan s n t h found) where
  reports := .decideSpan ..
  posts := by
    have hmake : ∀ (g : Nat) (o : OpenRound), postsUpTo 1 s (makeReport s g o) := fun g o => by
      refine (completionCheck_upTo (putRound (offerFinding s g (ownReportOf o)) g _) g).trans_eq ?_
      exact congrArg (·.fifo.length + 1) (show (offerFinding s g (ownReportOf o)).notices = s.notices by simp)
    unfold Machine.decideSpan
    repeat' split
    · exact hmake ..
    all_goals exact Nat.le_add_right ..
  attempt := fun hbusy => by
    have hmake : ∀ (g : Nat) (o : OpenRound), (makeReport s g o).line.attempt = s.line.attempt := fun g o => by
      simp [makeReport, offerFinding, offer_line_busy s _ _ hbusy]
      split <;> rfl
    unfold Machine.decideSpan
    repeat' split
    · exact hmake ..
    all_goals rfl

end Tells

theorem tells_tellRemoved (n : Nat) (r : Request) : Tells s (tellRemoved s n r) := by
  unfold tellRemoved
  split
  · exact .post ..
  · exact .decideSpan ..
  all_goals exact .refl s

theorem tellRemoved_baseline {n : Nat} {r : Request} (hk : r.kind = .baseline) (hroom : s.notices.fifo.length < 32) :
    ⟨.baselineCancelled n .spanOff, s.clock.tod⟩ ∈ (tellRemoved s n r).notices.fifo := by
  rw [tellRemoved, hk, post_fifo s _ hroom]
  exact List.mem_append_right _ (List.mem_singleton_self _)

/-! ### The stages of SPAN-OFF (R51) -/

/-- A span carries the off mark. -/
def offMarked (s : State) (n : Nat) : State := { s with sched := { s.sched with off := insertAsc n s.sched.off } }

/-- The off mark is set and the span's slot removed. -/
def slotRemoved (s : State) (n : Nat) : State := removeRequest (offMarked s n) n

theorem spanOff_eq (n : Nat) :
    spanOff s n = clearLatch (stopSuspended (stopRunning (slotRemoved s n) n) n) n := rfl

/-- The engine prepares for the request in the span's slot. -/
abbrev preparesSlot (s : State) (n : Nat) : Prop := s.sched.selection = some (.slot n) ∧ s.sched.slots.find n ≠ none

/-- The state in which the preparation for a removed request is given up. -/
def slotTold (s : State) (n : Nat) : State :=
  match s.sched.slots.find n with
  | some r => tellRemoved (emptySlotOf (offMarked s n) n) n r
  | none => emptySlotOf (offMarked s n) n

theorem tells_slotTold (n : Nat) : Tells (emptySlotOf (offMarked s n) n) (slotTold s n) := by
  unfold slotTold
  split
  · exact tells_tellRemoved ..
  · exact .refl _

theorem Table.erase_absent {α : Type} {t : Table α} {k : Nat} (h : t.find k = none) : t.erase k = t :=
  List.filter_eq_self.2 fun e he => decide_eq_true fun hk => by
    have hhas := (Table.has_iff t k).2 (List.mem_map.2 ⟨e, he, hk⟩)
    rw [Table.has, h] at hhas
    cases hhas

/-- Step 2 of R51: the request is removed, and a preparation for it is given up. -/
theorem slotRemoved_eq (n : Nat) : slotRemoved s n =
    if preparesSlot s n then
      { giveUpClaim (slotTold s n) (lightGroupOf s n) with
        sched := { (slotTold s n).sched with selection := none }
        engine := { s.engine with state := .idle, ctx := none } }
    else slotTold s n := by
  have htells := tells_slotTold s n
  have hgroup : lightGroupOf (slotTold s n) n = lightGroupOf s n := by rw [lightGroupOf, enabledRec, htells.cfg]; rfl
  have hselection : (slotTold s n).sched.selection = s.sched.selection := by rw [htells.sched]; rfl
  have hengine : (slotTold s n).engine = s.engine := by rw [htells.engine]; rfl
  have hremoved : slotRemoved s n = if s.sched.slots.find n = none then slotTold s n else dropPreparation (slotTold s n) n := by
    rw [slotRemoved, removeRequest, slotTold, show (offMarked s n).sched.slots = s.sched.slots from rfl]
    cases hr : s.sched.slots.find n with
    | none =>
      rw [if_pos rfl]
      exact (congrArg (fun t => ({ offMarked s n with sched := { (offMarked s n).sched with slots := t } } : State))
        (Table.erase_absent hr)).symm
    | some r => rw [if_neg nofun]
  rw [hremoved, dropPreparation, hselection, hgroup]
  by_cases hfind : s.sched.slots.find n = none
  · rw [if_pos hfind, if_neg fun h => h.2 hfind]
  · by_cases hsel : s.sched.selection = some (.slot n)
    · rw [if_neg hfind, if_pos hsel, if_pos ⟨hsel, hfind⟩]
      simp only [giveUpClaim_keeps, hengine]
    · rw [if_neg hfind, if_neg hsel, if_neg fun h => hsel h.1]

theorem ctxIs_iff (c : Option Ctx) (n : Nat) : ctxIs c n = true ↔ ∃ x, c = some x ∧ x.span = n := by
  cases c <;> simp [ctxIs]

/-- What the removal of the slot leaves as it is. -/
theorem slotRemoved_rest (n : Nat) : (slotRemoved s n).pending = s.pending ∧ (slotRemoved s n).reference = s.reference ∧
    (slotRemoved s n).port = s.port ∧ (slotRemoved s n).cfg = s.cfg ∧ (slotRemoved s n).clock = s.clock ∧
    (slotRemoved s n).alerts = s.alerts ∧ (slotRemoved s n).acc = s.acc ∧ (slotRemoved s n).trace = s.trace ∧
    (slotRemoved s n).comp = s.comp ∧ (slotRemoved s n).store = s.store ∧
    (slotRemoved s n).notices = (slotTold s n).notices := by
  have h := tells_slotTold s n
  rw [slotRemoved_eq]
  split
  · simp [h.pending, h.reference, h.port, h.cfg, h.clock, h.alerts, h.acc, h.trace, h.comp, h.store, emptySlotOf, offMarked]
  · exact ⟨h.pending, h.reference, h.port, h.cfg, h.clock, h.alerts, h.acc, h.trace, h.comp, h.store, rfl⟩

theorem slotRemoved_sched (n : Nat) : (slotRemoved s n).sched = { s.sched with
    off := insertAsc n s.sched.off
    slots := s.sched.slots.erase n
    selection := if preparesSlot s n then none else s.sched.selection } := by
  rw [slotRemoved_eq]
  split <;> simp only [(tells_slotTold s n).sched] <;> rfl

theorem slotRemoved_engine (n : Nat) : (slotRemoved s n).engine =
    if preparesSlot s n then { s.engine with state := .idle, ctx := none } else s.engine := by
  rw [slotRemoved_eq]
  split
  · rfl
  · exact (tells_slotTold s n).engine

/-- What the end of the running sweep leaves as it is. -/
theorem stopRunning_rest (n : Nat) : (stopRunning s n).pending = s.pending ∧ (stopRunning s n).reference = s.reference ∧
    (stopRunning s n).port = s.port ∧ (stopRunning s n).cfg = s.cfg ∧ (stopRunning s n).clock = s.clock := by
  unfold stopRunning
  split
  · next h =>
    obtain ⟨c, hc, _⟩ := (ctxIs_iff _ n).1 h
    simp [(abort_quiet s hc .aborted []).1]
  · exact ⟨rfl, rfl, rfl, rfl, rfl⟩

/-- The slots, the off marks and the save slot after the running sweep's end. -/
theorem stopRunning_sched (n : Nat) : (stopRunning (slotRemoved s n) n).sched = { s.sched with
    off := insertAsc n s.sched.off
    slots := s.sched.slots.erase n
    selection := if preparesSlot s n ∨ ctxIs s.engine.ctx n = true then none else s.sched.selection } := by
  have hstop : (stopRunning (slotRemoved s n) n).sched = { (slotRemoved s n).sched with
      selection := if ctxIs (slotRemoved s n).engine.ctx n = true then none else (slotRemoved s n).sched.selection } := by
    unfold stopRunning
    split
    · next h =>
      obtain ⟨c, hc, _⟩ := (ctxIs_iff _ n).1 h
      rw [(abort_quiet (slotRemoved s n) hc .aborted []).2.1]
    · rfl
  rw [hstop, slotRemoved_sched, slotRemoved_engine]
  by_cases hp : preparesSlot s n
  · rw [if_pos hp, if_pos (Or.inl hp), ite_self]
  · rw [if_neg hp, if_neg hp]
    simp only [hp, false_or]

theorem stopRunning_engine (n : Nat) : (stopRunning (slotRemoved s n) n).engine =
    if preparesSlot s n ∨ ctxIs s.engine.ctx n = true then { s.engine with state := .idle, ctx := none } else s.engine := by
  have hstop : (stopRunning (slotRemoved s n) n).engine = if ctxIs (slotRemoved s n).engine.ctx n = true then
      { (slotRemoved s n).engine with state := .idle, ctx := none } else (slotRemoved s n).engine := by
    unfold stopRunning
    split
    · next h =>
      obtain ⟨c, hc, _⟩ := (ctxIs_iff _ n).1 h
      exact abort_engine _ hc ..
    · rfl
  rw [hstop, slotRemoved_engine]
  by_cases hp : preparesSlot s n
  · rw [if_pos hp, if_pos (Or.inl hp), ite_self]
  · rw [if_neg hp]
    simp only [hp, false_or]

/-- What the end of the suspended sweep leaves as it is. -/
theorem stopSuspended_rest (n : Nat) : (stopSuspended s n).pending = s.pending ∧
    (stopSuspended s n).reference = s.reference ∧ (stopSuspended s n).port = s.port ∧ (stopSuspended s n).cfg = s.cfg ∧
    (stopSuspended s n).clock = s.clock ∧ (stopSuspended s n).comp.working = s.comp.working := by
  unfold stopSuspended
  split
  · next h =>
    obtain ⟨c, hc, _⟩ := (ctxIs_iff _ n).1 h
    simp [endSuspended_eq hc, saveEmptied, writeResult, adjustResult]
  · exact ⟨rfl, rfl, rfl, rfl, rfl, rfl⟩

theorem stopSuspended_engine (n : Nat) : (stopSuspended s n).engine = s.engine := by
  unfold stopSuspended
  split <;> simp

theorem stopSuspended_store (n : Nat) : (stopSuspended s n).store = s.store := by
  unfold stopSuspended
  split <;> simp

theorem stopSuspended_sched (n : Nat) : (stopSuspended s n).sched = if ctxIs s.sched.save n = true then
    { s.sched with save := none, resumeExpiry := none, resumeLeft := 0 } else s.sched := by
  unfold stopSuspended
  split
  · next h =>
    obtain ⟨c, hc, _⟩ := (ctxIs_iff _ n).1 h
    simp [endSuspended_eq hc, saveEmptied]
  · rfl

theorem stopSuspended_acc (n : Nat) :
    (stopSuspended s n).acc = if ctxIs s.sched.save n = true then s.acc.discardSaved else s.acc := by
  unfold stopSuspended
  split
  · next h =>
    obtain ⟨c, hc, _⟩ := (ctxIs_iff _ n).1 h
    simp [endSuspended_eq hc, saveEmptied]
  · rfl

/-- An asked claim given up after a withdrawal was told is given up from the state before it. -/
theorem claimGivenUp_before {v t : State} {g : Nat} (h : Tells s v)
    (hidle : s.line.state = .idle → s.line.queue = [] ∧ s.line.attempt = none) (hg : claimGivenUp v t g) :
    claimGivenUp s t g := by
  obtain ⟨hother, hwait, hask⟩ := hg
  rw [h.reports.claims] at hother hwait hask
  have hattempt : inAttempt v (isClaimOf g) = inAttempt s (isClaimOf g) := by
    by_cases hst : s.line.state = .idle
    · obtain ⟨hq, ha⟩ := hidle hst
      have hnone : ∀ f, v.line.attempt = some f → isClaimOf g f.body = false := fun f hf => by
        rw [← Bool.not_eq_true]
        intro hc
        have hmem := h.reports.all f (by rw [hf]; simp) (isClaimFrame_of_isClaimOf hc)
        rw [hq, ha] at hmem
        cases hmem
      cases hv : v.line.attempt with
      | none => simp [inAttempt, hv, ha]
      | some f => simp [inAttempt, hv, ha, hnone f hv]
    · simp only [inAttempt, h.attempt hst]
  refine ⟨hother, fun l e m hf => ?_, fun l m hf => ?_⟩
  · obtain ⟨hfree, hframe⟩ := hwait l e m hf
    exact ⟨hfree, fun hon => hframe ⟨h.reports.live hon.1, by rw [h.port]; exact hon.2⟩⟩
  · obtain ⟨hfree, hqueue, hrelease⟩ := hask l m hf
    rw [hattempt] at hfree
    refine ⟨hfree, hqueue, fun f hf hr => h.reports.all f (hrelease f hf hr) (isClaimFrame_of_isReleaseOf hr)⟩

/-! ### What SPAN-OFF leaves to the rest of its row -/

theorem Reports.stopSuspended (n : Nat) : Reports s (stopSuspended s n) :=
  .ite (fun _ => .endSuspended ..) fun _ => .refl s

theorem spanOff_reports (n : Nat) : Reports (stopRunning (slotRemoved s n) n) (spanOff s n) :=
  (Reports.stopSuspended _ n).trans (.of_eq rfl rfl rfl)

/-- The end of the span's own sweep, with its claim dropped. -/
theorem spanOff_aborts {n : Nat} {c : Ctx} (hc : s.engine.ctx = some c) (hn : c.span = n) (hp : ¬ preparesSlot s n) :
    (slotRemoved s n) = slotTold s n ∧ (slotTold s n).engine.ctx = some c ∧
    stopRunning (slotRemoved s n) n = abort (slotTold s n) .aborted [] ∧
    Reports (dropClaim (slotTold s n) n) (spanOff s n) := by
  have htold : slotRemoved s n = slotTold s n := by rw [slotRemoved_eq, if_neg hp]
  have hctx : (slotTold s n).engine.ctx = some c := by rw [(tells_slotTold s n).engine]; exact hc
  have hrun : stopRunning (slotRemoved s n) n = abort (slotTold s n) .aborted [] := by
    rw [htold]
    exact if_pos ((ctxIs_iff _ n).2 ⟨c, hctx, hn⟩)
  refine ⟨htold, hctx, hrun, ?_⟩
  have habort := Reports.abort (slotTold s n) hctx .aborted []
  rw [hn, ← hrun] at habort
  exact habort.trans (spanOff_reports s n)

/-- A preparation for the span's slot is given up with its claim. -/
theorem spanOff_givesUp {n : Nat} (hp : preparesSlot s n)
    (hidle : s.line.state = .idle → s.line.queue = [] ∧ s.line.attempt = none) :
    (spanOff s n).claims = (giveUpClaim (slotTold s n) (lightGroupOf s n)).claims ∧
    ∀ {t : State}, Reports (spanOff s n) t → claimGivenUp s t (lightGroupOf s n) := by
  have hremoved := slotRemoved_eq s n
  rw [if_pos hp] at hremoved
  have hrun : stopRunning (slotRemoved s n) n = slotRemoved s n := by
    refine if_neg ?_
    rw [hremoved]
    nofun
  have hreports := spanOff_reports s n
  rw [hrun] at hreports
  have hsame : Reports (giveUpClaim (slotTold s n) (lightGroupOf s n)) (slotRemoved s n) := by
    rw [hremoved]
    exact .of_eq rfl rfl rfl
  refine ⟨(hsame.trans hreports).claims, fun {t} ht => ?_⟩
  have hgiven := claimGivenUp_then _ ((hsame.trans hreports).trans ht)
  exact claimGivenUp_of_source (claimGivenUp_before _ (tells_slotTold s n) hidle hgiven) rfl rfl rfl

theorem spanOff_dropped {n : Nat} {c : Ctx} (hc : s.engine.ctx = some c) (hn : c.span = n) :
    (s.sched.selection = some .save → (s.line.state = .idle → s.line.queue = [] ∧ s.line.attempt = none) →
      claimGivenUp s (spanOff s n) (lightGroupOf s n)) ∧
    (s.sched.selection = none → claimReleased s (spanOff s n) (lightGroupOf s n)) := by
  have htells := tells_slotTold s n
  have hgroup : lightGroupOf (slotTold s n) n = lightGroupOf s n := by rw [lightGroupOf, enabledRec, htells.cfg]; rfl
  have huntaken : isUntaken (slotTold s n) = s.sched.selection.isSome := by rw [isUntaken, htells.sched]; rfl
  refine ⟨fun hsel hidle => ?_, fun hsel => ?_⟩ <;>
    obtain ⟨_, _, _, hreports⟩ := spanOff_aborts s hc hn (fun h => nomatch hsel.symm.trans h.1) <;>
    rw [dropClaim, huntaken, hsel, hgroup] at hreports
  · exact claimGivenUp_of_source (claimGivenUp_before _ htells hidle (claimGivenUp_then _ hreports)) rfl rfl rfl
  · refine claimReleased_of_source (claimReleased_then hreports) htells.reports.claims.symm fun hon => ?_
    exact ⟨htells.reports.live hon.1, by rw [htells.port]; exact hon.2⟩

/-! ### Fields after SPAN-OFF -/

theorem spanOff_rest (n : Nat) : (spanOff s n).pending = s.pending ∧ (spanOff s n).reference = s.reference ∧
    (spanOff s n).port = s.port ∧ (spanOff s n).cfg = s.cfg ∧ (spanOff s n).clock = s.clock := by
  obtain ⟨hp, hr, hport, hcfg, hclock, _⟩ := slotRemoved_rest s n
  obtain ⟨hp', hr', hport', hcfg', hclock'⟩ := stopRunning_rest (slotRemoved s n) n
  obtain ⟨hp'', hr'', hport'', hcfg'', hclock'', _⟩ := stopSuspended_rest (stopRunning (slotRemoved s n) n) n
  exact ⟨hp''.trans (hp'.trans hp), hr''.trans (hr'.trans hr), hport''.trans (hport'.trans hport),
    hcfg''.trans (hcfg'.trans hcfg), hclock''.trans (hclock'.trans hclock)⟩

theorem spanOff_sched (n : Nat) : (spanOff s n).sched.slots = s.sched.slots.erase n ∧
    (spanOff s n).sched.off = insertAsc n s.sched.off ∧
    (spanOff s n).sched.selection =
      (if preparesSlot s n ∨ ctxIs s.engine.ctx n = true then none else s.sched.selection) ∧
    (spanOff s n).sched.save = (if ctxIs s.sched.save n = true then none else s.sched.save) ∧
    (spanOff s n).sched.resumeExpiry = (if ctxIs s.sched.save n = true then none else s.sched.resumeExpiry) := by
  have hu : (spanOff s n).sched = (stopSuspended (stopRunning (slotRemoved s n) n) n).sched := rfl
  rw [hu, stopSuspended_sched, stopRunning_sched]
  by_cases h : ctxIs s.sched.save n = true
  · simp only [if_pos h, and_self]
  · simp only [if_neg h, and_self]

theorem spanOff_engine (n : Nat) : (spanOff s n).engine =
    if preparesSlot s n ∨ ctxIs s.engine.ctx n = true then { s.engine with state := .idle, ctx := none } else s.engine :=
  (stopSuspended_engine _ n).trans (stopRunning_engine s n)

theorem spanOff_store (n : Nat) : (spanOff s n).store = (stopRunning (slotRemoved s n) n).store := stopSuspended_store _ n

/-- The store after SPAN-OFF differs at most by a cut baseline write of the span. -/
theorem spanOff_store_kept {n : Nat} (h : s.engine.state ≠ .storing ∨ ctxIs s.engine.ctx n = false) :
    (spanOff s n).store = s.store := by
  obtain ⟨_, _, _, _, _, _, _, _, _, hstore, _⟩ := slotRemoved_rest s n
  have hengine := slotRemoved_engine s n
  rw [spanOff_store, stopRunning]
  split
  · next hctx =>
    obtain ⟨c, hc, _⟩ := (ctxIs_iff _ n).1 hctx
    have hst : (slotRemoved s n).engine.state ≠ .storing := by
      by_cases hp : preparesSlot s n
      · rw [hengine, if_pos hp]
        nofun
      · rw [if_neg hp] at hengine
        rw [hengine] at hctx ⊢
        exact h.resolve_right (by rw [hctx]; nofun)
    rw [(abort_quiet _ hc .aborted []).2.2, stopWrite_not_storing _ (by simpa using hst)]
    simpa using hstore
  · exact hstore

theorem spanOff_cut {n : Nat} {c : Ctx} {r : SpanRecord} (hc : s.engine.ctx = some c) (hn : c.span = n)
    (hp : ¬ preparesSlot s n) (hst : s.engine.state = .storing) (hr : enabledRec s n = some r) :
    writeWasCut s (spanOff s n) n r := by
  obtain ⟨_, hctx, hrun, _⟩ := spanOff_aborts s hc hn hp
  have htells := tells_slotTold s n
  have hcut := abort_cut (slotTold s n) (r := r) hctx (by rw [htells.engine]; exact hst)
    (by rw [hn, enabledRec, htells.cfg]; exact hr) .aborted []
  rw [hn, ← hrun] at hcut
  exact writeWasCut_congr hcut htells.store.symm htells.trace.symm (spanOff_store s n)

/-! ### Alert inputs, notices and results after SPAN-OFF -/

/-- Between s and t no latch and no re-raise timer changed but those of span n. -/
structure InputsKept (n : Nat) (s t : State) : Prop where
  latches : ∀ m, m ≠ n → (m ∈ t.alerts.latches ↔ m ∈ s.alerts.latches)
  timers : ∀ m, m ≠ n → t.alerts.timers.find m = s.alerts.timers.find m

namespace InputsKept

theorem refl (n : Nat) (s : State) : InputsKept n s s := ⟨fun _ _ => .rfl, fun _ _ => rfl⟩

theorem trans {n : Nat} {s t u : State} (h : InputsKept n s t) (h' : InputsKept n t u) : InputsKept n s u :=
  ⟨fun m hm => (h'.latches m hm).trans (h.latches m hm), fun m hm => (h'.timers m hm).trans (h.timers m hm)⟩

theorem of_answered {s t : State} {c : Ctx} (h : alertAnswered s t c) : InputsKept c.span s t := by
  obtain ⟨_, hlatches, htimers⟩ := h
  exact ⟨fun m hm => (hlatches m).trans (and_iff_left fun h => hm h.2), fun m hm => (htimers m).trans (if_neg fun h => hm h.1)⟩

end InputsKept

theorem BeforeEnd.refl {c : Ctx} (hc : s.engine.ctx = some c) : BeforeEnd s s c c := .of_same hc rfl rfl rfl rfl rfl rfl

theorem inputsKept_stopRunning (n : Nat) : InputsKept n s (stopRunning s n) := by
  unfold stopRunning
  split
  · next h =>
    obtain ⟨c, hc, rfl⟩ := (ctxIs_iff _ n).1 h
    obtain ⟨⟨hans, _⟩, _⟩ := abort_facts (.refl s hc) .aborted []
    exact .of_answered hans
  · exact .refl n s

theorem inputsKept_stopSuspended (n : Nat) : InputsKept n s (stopSuspended s n) := by
  unfold stopSuspended
  split
  · next h =>
    obtain ⟨c, hc, rfl⟩ := (ctxIs_iff _ n).1 h
    obtain ⟨_, _, _, hans⟩ := endSuspended_facts s hc (o := .aborted) rfl
    exact .of_answered hans
  · exact .refl n s

theorem spanOff_inputs (n : Nat) : (∀ m, m ∈ (spanOff s n).alerts.latches ↔ m ∈ s.alerts.latches ∧ m ≠ n) ∧
    ∀ m, m ≠ n → (spanOff s n).alerts.timers.find m = s.alerts.timers.find m := by
  obtain ⟨_, _, _, _, _, halerts, _⟩ := slotRemoved_rest s n
  obtain ⟨hlatches, htimers⟩ := (inputsKept_stopRunning (slotRemoved s n) n).trans (inputsKept_stopSuspended _ n)
  rw [halerts] at hlatches htimers
  refine ⟨fun m => ?_, htimers⟩
  rw [spanOff_eq, clearLatch, removeFrom, List.mem_filter, decide_eq_true_eq]
  exact and_congr_left fun hm => hlatches m hm

theorem slotTold_posts (n : Nat) : (slotRemoved s n).notices.fifo.length ≤ s.notices.fifo.length + 1 := by
  obtain ⟨_, _, _, _, _, _, _, _, _, _, hnotices⟩ := slotRemoved_rest s n
  rw [hnotices]
  exact (tells_slotTold s n).posts

theorem spanOff_cancels {n : Nat} {q : Request} (hq : s.sched.slots.find n = some q) (hk : q.kind = .baseline)
    (hroom : s.notices.fifo.length < 32) : ⟨.baselineCancelled n .spanOff, s.clock.tod⟩ ∈ (spanOff s n).notices.fifo := by
  obtain ⟨_, _, _, _, _, _, _, _, _, _, hnotices⟩ := slotRemoved_rest s n
  have hrun : (slotRemoved s n).notices.fifo <+: (stopRunning (slotRemoved s n) n).notices.fifo := by
    unfold stopRunning
    split
    · next h =>
      obtain ⟨c, hc, _⟩ := (ctxIs_iff _ n).1 h
      have habort := (Reports.abort _ hc .aborted []).fifo
      simpa using habort
    · exact List.prefix_rfl
  refine ((hrun.trans (spanOff_reports s n).fifo).subset ?_)
  rw [hnotices, slotTold, hq]
  exact tellRemoved_baseline (emptySlotOf (offMarked s n) n) hk hroom

theorem writeCutNotice_length (n : Nat) : (writeCutNotice s n).length ≤ 1 := by
  unfold writeCutNotice
  split <;> simp

theorem alertModeOfSpan_congr {s t : State} (h : t.cfg = s.cfg) (n : Nat) : alertModeOfSpan t n = alertModeOfSpan s n := by
  simp only [alertModeOfSpan, enabledRec, h]

/-- The re-raise timer of span n after an end of its sweep: a LEVEL input's runs for the whole interval. -/
def reRaised (s t : State) (n : Nat) : Prop := t.alerts.timers.find n =
  if alertModeOfSpan s n = .level then some (s.clock.now + s.cfg.block.alertInterval * 1000) else s.alerts.timers.find n

/-- Two ends of one span's sweeps start its re-raise timer as one does. -/
theorem reRaised_again {s u v t : State} {n : Nat} (h : reRaised s u n) (h' : reRaised v t n) (alerts : v.alerts = u.alerts)
    (cfg : v.cfg = s.cfg) (now : v.clock.now = s.clock.now) : reRaised s t n := by
  unfold reRaised at h h' ⊢
  rw [h', alertModeOfSpan_congr cfg, now, cfg, alerts, h]
  split <;> rfl

theorem reRaised_of_answered {s t : State} {c : Ctx} (h : alertAnswered s t c) : reRaised s t c.span := by
  obtain ⟨_, _, htimers⟩ := h
  rw [reRaised, htimers]
  simp only [true_and]

theorem reRaised_stopSuspended {s u : State} {n : Nat} (h : reRaised s u n) (cfg : u.cfg = s.cfg)
    (now : u.clock.now = s.clock.now) : reRaised s (stopSuspended u n) n := by
  unfold stopSuspended
  split
  · next hx =>
    obtain ⟨c, hc, rfl⟩ := (ctxIs_iff _ n).1 hx
    obtain ⟨_, _, _, hans⟩ := endSuspended_facts u hc (o := .aborted) rfl
    exact reRaised_again h (reRaised_of_answered hans) rfl cfg now
  · exact h

/-- What SPAN-OFF leaves of the span's running sweep (R51 step 3, R85). -/
theorem spanOff_running {n : Nat} {c : Ctx} (hc : s.engine.ctx = some c) (hn : c.span = n) (hp : ¬ preparesSlot s n) :
    (s.notices.fifo.length < 30 → ⟨.sweepDone n .aborted, s.clock.tod⟩ ∈ (stopRunning (slotRemoved s n) n).notices.fifo) ∧
    (s.notices.fifo.length < 31 → s.engine.state = .storing →
      ⟨.fpLost n .writeCut, s.clock.tod⟩ ∈ (stopRunning (slotRemoved s n) n).notices.fifo) ∧
    (stopRunning (slotRemoved s n) n).acc.active = s.acc.active ∧
    (stopRunning (slotRemoved s n) n).acc.current.owner = .none ∧
    (stopRunning (slotRemoved s n) n).acc.slot (stopRunning (slotRemoved s n) n).acc.saved = s.acc.slot s.acc.saved ∧
    (stopRunning (slotRemoved s n) n).comp.working = none ∧ reRaised s (stopRunning (slotRemoved s n) n) n ∧
    ∀ x, s.comp.results.find n = some x → (stopRunning (slotRemoved s n) n).comp.results.find n = some { x with
      latest := some ⟨.aborted, c.kind, c.level, s.clock.tod, s.acc.current.lit, c.darkLevel⟩ } := by
  obtain ⟨htold, hctx, hrun, _⟩ := spanOff_aborts s hc hn hp
  have htells := tells_slotTold s n
  have hposts : (slotTold s n).notices.fifo.length ≤ s.notices.fifo.length + 1 := htells.posts
  have hcut := writeCutNotice_length (slotTold s n) n
  have htod : (slotTold s n).clock.tod = s.clock.tod := by rw [htells.clock]; rfl
  obtain ⟨hended, hrecord, hdone, hpre⟩ := abort_facts (.refl _ hctx) .aborted []
  obtain ⟨hans, _, _, _, hactive, howner, hsaved, hworking⟩ := hended
  have hacc : (slotTold s n).acc = s.acc := htells.acc
  have hcomp : (slotTold s n).comp = s.comp := htells.comp
  rw [hn, htod] at hrecord hdone hpre
  rw [hacc] at hactive hsaved hrecord
  rw [hcomp] at hrecord
  rw [List.length_nil] at hdone hpre
  rw [hrun]
  refine ⟨fun hroom => hdone (by omega), fun hroom hst => hpre _ ?_ (by omega), hactive, howner, hsaved, hworking, ?_, hrecord⟩
  · rw [List.nil_append, writeCutNotice, if_pos (show (slotTold s n).engine.state = .storing by rw [htells.engine]; exact hst)]
    exact List.mem_singleton_self _
  · have hre := reRaised_of_answered hans
    rw [hn] at hre
    unfold reRaised at hre ⊢
    rw [hre, alertModeOfSpan_congr (s := s) htells.cfg, htells.clock, htells.cfg, htells.alerts]
    rfl

/-- What SPAN-OFF leaves of the span's suspended sweep (R51 step 4, R62). -/
theorem stopSuspended_ends {n : Nat} {c : Ctx} (hc : s.sched.save = some c) (hn : c.span = n) :
    (stopSuspended s n).acc.slot (stopSuspended s n).acc.saved = emptySlot ∧
    (s.notices.fifo.length < 32 → ⟨.sweepDone n .aborted, s.clock.tod⟩ ∈ (stopSuspended s n).notices.fifo) ∧
    reRaised s (stopSuspended s n) n ∧
    ∀ x, s.comp.results.find n = some x → (stopSuspended s n).comp.results.find n = some { x with
      latest := some ⟨.aborted, c.kind, c.level, s.clock.tod, c.litDone, c.darkLevel⟩ } := by
  obtain ⟨hparts, hrecord, hdone, hans⟩ := endSuspended_facts s hc (o := .aborted) rfl
  have hstop : stopSuspended s n = endSuspended s .aborted := if_pos ((ctxIs_iff _ n).2 ⟨c, hc, hn⟩)
  have hre := reRaised_of_answered hans
  rw [hn] at hrecord hdone hre
  rw [hstop]
  exact ⟨congrArg (fun p => p.2.2) hparts, hdone, hre, hrecord⟩

theorem Acc.discardSaved_current (a : Acc) : a.discardSaved.active = a.active ∧ a.discardSaved.current = a.current := by
  by_cases h : a.active = 0 <;> simp [Acc.discardSaved, Acc.adjust, Acc.saved, Acc.current, Acc.slot, h]

/-! ### The selection after SPAN-OFF -/

/-- No sweep and no request of span n stands anywhere, and the off marks are those given. -/
structure OutOfWork (n : Nat) (off : List Nat) (s : State) : Prop where
  off : s.sched.off = off
  slot : s.sched.slots.find n = none
  ctx : ctxIs s.engine.ctx n = false
  save : ctxIs s.sched.save n = false

namespace OutOfWork

variable {s} {n : Nat} {off : List Nat}

theorem of_same {t : State} (h : OutOfWork n off s) (sched : t.sched = s.sched := by simp)
    (ctx : ctxIs t.engine.ctx n = ctxIs s.engine.ctx n := by simp) : OutOfWork n off t := by
  obtain ⟨hoff, hslot, hctx, hsave⟩ := h
  exact ⟨by rw [sched]; exact hoff, by rw [sched]; exact hslot, by rw [ctx]; exact hctx, by rw [sched]; exact hsave⟩

theorem find_adjust_none {α : Type} {t : Table α} {k : Nat} (h : t.find k = none) (m : Nat) (f : α → α) :
    (t.adjust m f).find k = none := by
  rw [Table.find_adjust, h]
  split <;> simp_all

theorem ctxIs_map (o : Option Ctx) (f : Ctx → Ctx) (hf : ∀ c, (f c).span = c.span) : ctxIs (o.map f) n = ctxIs o n := by
  cases o <;> simp [ctxIs, hf]

theorem checkPrepared (h : OutOfWork n off s) : OutOfWork n off (checkPrepared s) := by
  unfold Machine.checkPrepared
  split
  · split
    · split <;> exact h.of_same rfl (ctxIs_map _ _ fun _ => rfl)
    · exact h
  · exact h

theorem takeSlot (h : OutOfWork n off s) (m : Nat) : OutOfWork n off (takeSlot s m) := by
  unfold Machine.takeSlot
  split
  · next r rec hr _ =>
    have hm : m ≠ n := fun hm => by rw [hm, h.slot] at hr; cases hr
    exact ⟨h.off, by rw [Table.find_erase, h.slot, ite_self], decide_eq_false hm, h.save⟩
  · exact h

theorem adjustSlot (h : OutOfWork n off s) (m : Nat) (f : Request → Request) : OutOfWork n off (adjustSlot s m f) where
  off := h.off
  slot := find_adjust_none h.slot m f
  ctx := h.ctx
  save := h.save

theorem giveBack (h : OutOfWork n off s) : OutOfWork n off (giveBack s) := by
  have hback : ctxIs (s.engine.ctx.map fun c => { c with phase := .full }) n = false :=
    (ctxIs_map _ (fun c => { c with phase := .full }) fun _ => rfl).trans h.ctx
  unfold Machine.giveBack
  split
  · next m _ =>
    have hslot := h.adjustSlot m fun r => { r with selected := false }
    exact ⟨h.off, hslot.slot, rfl, h.save⟩
  · exact ⟨h.off, h.slot, rfl, hback⟩
  · exact h

theorem seekClaim (h : OutOfWork n off s) (g l : Nat) : OutOfWork n off (seekClaim s g l) := by
  have hask : OutOfWork n off (askClaim s g l) := h.of_same
  unfold Machine.seekClaim
  dsimp only
  split
  · exact hask.giveBack
  · exact hask

theorem beginSlot (h : OutOfWork n off s) (m l : Nat) : OutOfWork n off (beginSlot s m l) := by
  have hselected : OutOfWork n off (slotSelected s m) := by
    refine ⟨?_, ?_, ?_, ?_⟩
    · simpa [slotSelected, Machine.adjustSlot] using h.off
    · simpa [slotSelected, Machine.adjustSlot] using find_adjust_none h.slot m fun r => { r with selected := true }
    · simpa [slotSelected, Machine.adjustSlot, stopDoze] using h.ctx
    · simpa [slotSelected, Machine.adjustSlot] using h.save
  rw [beginSlot_eq]
  split
  · exact (hselected.takeSlot m).checkPrepared
  · exact hselected.seekClaim ..

theorem beginResume (h : OutOfWork n off s) {c : Ctx} (hc : c.span ≠ n) : OutOfWork n off (beginResume s c) := by
  have hselected : OutOfWork n off (resumeSelected s c) := by
    refine ⟨?_, ?_, ?_, ?_⟩
    · simpa [resumeSelected] using h.off
    · simpa [resumeSelected] using h.slot
    · simp [resumeSelected, resumedCtx, ctxIs, hc]
    · simp [resumeSelected, ctxIs]
  rw [beginResume_eq]
  split
  · exact OutOfWork.checkPrepared ⟨hselected.off, hselected.slot, hselected.ctx, hselected.save⟩
  · exact hselected.seekClaim ..

theorem settleSelect (h : OutOfWork n off s) : OutOfWork n off (settleSelect s) := by
  have hselect : OutOfWork n off (select s) := by
    rcases select_cases s with hs | ⟨c, hc, hs⟩ | ⟨m, l, hs⟩ <;> rw [hs]
    · exact h
    · refine h.beginResume fun hn => ?_
      have hsave := h.save
      rw [hc, ctxIs, decide_eq_false_iff_not] at hsave
      exact hsave hn
    · exact h.beginSlot m l
  exact hselect.of_same (by simp [Machine.settleSelect]) (by simp [Machine.settleSelect])

end OutOfWork

theorem spanOff_outOfWork (n : Nat) : OutOfWork n (insertAsc n s.sched.off) (spanOff s n) := by
  obtain ⟨hslots, hoff, _, hsave, _⟩ := spanOff_sched s n
  refine ⟨hoff, by rw [hslots, Table.find_erase, if_pos rfl], ?_, ?_⟩
  · rw [spanOff_engine]
    by_cases h : preparesSlot s n ∨ ctxIs s.engine.ctx n = true
    · rw [if_pos h]
      rfl
    · rw [if_neg h]
      exact Bool.eq_false_iff.2 fun hx => h (.inr hx)
  · rw [hsave]
    split
    · rfl
    · next h => exact Bool.eq_false_iff.2 h

theorem isHeld_giveUpClaim (g k : Nat) : isHeld (giveUpClaim s g) k = isHeld s k := by
  by_cases hk : k = g
  · subst hk
    have hset : ∀ {e : ClaimEntry}, s.claims.find k = some e → (setClaim s k .free).claims.find k = some { e with state := .free } :=
      fun he => by rw [find_setClaim, if_pos rfl, he]; rfl
    unfold giveUpClaim
    split
    · next he => simp only [isHeld, offer_keeps, hset he, he]
    · next he =>
      have hfree := (giveUpClaim_asking s he).2 k
      rw [if_pos rfl, giveUpClaim, he] at hfree
      simp only [isHeld, hfree, he]
    · rfl
  · simp only [isHeld, giveUpClaim_claims s g hk]

/-- What could not be selected beside a request that the engine prepares for cannot be selected after its removal. -/
theorem selectable_spanOff {n m l : Nat} (hp : preparesSlot s n) (hctx : s.engine.ctx = none)
    (hidle : s.line.state = .idle → s.line.queue = [] ∧ s.line.attempt = none) (h : selectable (spanOff s n) l m = true) :
    selectable s l m = true ∧ m ≠ n := by
  obtain ⟨_, _, hport, hcfg, hclock⟩ := spanOff_rest s n
  obtain ⟨_, hoff, _⟩ := spanOff_sched s n
  have hengine := spanOff_engine s n
  have hstore := spanOff_store_kept s (n := n) (.inr (by rw [hctx]; rfl))
  have hheld : ∀ g, isHeld (spanOff s n) g = isHeld s g := fun g => by
    have hgive := isHeld_giveUpClaim (slotTold s n) (lightGroupOf s n) g
    rw [isHeld, ← (spanOff_givesUp s hp hidle).1] at hgive
    rw [isHeld, hgive, isHeld, (tells_slotTold s n).reports.claims]
    rfl
  rw [selectable_iff] at h ⊢
  obtain ⟨hmask, hen, hon, hfp, hgroup, hfault, hrun⟩ := h
  rw [isOff, hoff, decide_eq_false_iff_not, mem_insertAsc, not_or] at hon
  rw [hengine, if_pos (.inl hp)] at hfault
  rw [hheld] at hgroup
  simp only [lightGroupOf, isEnabled, enabledRec, fpOf, hclock, hcfg, hstore, hport] at hmask hen hfp hgroup hrun
  exact ⟨⟨hmask, hen, decide_eq_false hon.2, hfp, hgroup, hfault, hrun⟩, hon.1⟩

theorem select_spanOff {n : Nat} (hp : preparesSlot s n) (hctx : s.engine.ctx = none)
    (hidle : s.line.state = .idle → s.line.queue = [] ∧ s.line.attempt = none)
    (hslots : ∀ e ∈ s.sched.slots, e.1 ≠ n → slotCandidate s e.1 e.2 = false) (hsave : saveCandidate s = false) :
    select (spanOff s n) = spanOff s n := by
  obtain ⟨hs, _, _, hsaved, _⟩ := spanOff_sched s n
  refine select_none _ (fun e he => ?_) ?_
  · rw [← Bool.not_eq_true, slotCandidate_iff]
    rintro ⟨hsel, hable, hctxSave⟩
    obtain ⟨hable', hne⟩ := selectable_spanOff s hp hctx hidle hable
    rw [hs] at he
    have hcand := hslots e (List.mem_filter.1 he).1 hne
    rw [← Bool.not_eq_true, slotCandidate_iff] at hcand
    refine hcand ⟨hsel, hable', ?_⟩
    rw [hsaved] at hctxSave
    split at hctxSave
    · next hn =>
      obtain ⟨c, hc, hspan⟩ := (ctxIs_iff _ n).1 hn
      rw [hc]
      exact decide_eq_false fun h => hne (h.symm.trans hspan)
    · exact hctxSave
  · rw [← Bool.not_eq_true, saveCandidate, hsaved]
    split
    · next c hc =>
      intro hable
      split at hc
      · cases hc
      · rw [saveCandidate, hc] at hsave
        have hno : selectable s c.level c.span = false := hsave
        exact absurd (hno.symm.trans (selectable_spanOff s hp hctx hidle hable).1) nofun
    · nofun

/-- What SPAN-OFF leaves of the span's running sweep, at the end of the row (R51 steps 3 and 4). -/
theorem spanOff_ended {n : Nat} {c : Ctx} (hc : s.engine.ctx = some c) (hn : c.span = n) (hp : ¬ preparesSlot s n) :
    (s.notices.fifo.length < 30 → ⟨.sweepDone n .aborted, s.clock.tod⟩ ∈ (spanOff s n).notices.fifo) ∧
    (s.notices.fifo.length < 31 → s.engine.state = .storing →
      ⟨.fpLost n .writeCut, s.clock.tod⟩ ∈ (spanOff s n).notices.fifo) ∧
    (spanOff s n).acc.active = s.acc.active ∧ (spanOff s n).acc.current.owner = .none ∧
    (spanOff s n).comp.working = none ∧ reRaised s (spanOff s n) n ∧
    (ctxIs s.sched.save n = false → (spanOff s n).acc.slot (spanOff s n).acc.saved = s.acc.slot s.acc.saved ∧
      ∀ x, s.comp.results.find n = some x → (spanOff s n).comp.results.find n = some { x with
        latest := some ⟨.aborted, c.kind, c.level, s.clock.tod, s.acc.current.lit, c.darkLevel⟩ }) := by
  obtain ⟨hdone, hlost, hactive, howner, hsaved, hworking, hre, hrecord⟩ := spanOff_running s hc hn hp
  obtain ⟨_, _, _, hcfg, hclock, _⟩ := slotRemoved_rest s n
  obtain ⟨_, _, _, hcfg', hclock'⟩ := stopRunning_rest (slotRemoved s n) n
  have hsave : (stopRunning (slotRemoved s n) n).sched.save = s.sched.save := by rw [stopRunning_sched]
  generalize hw : stopRunning (slotRemoved s n) n = w at *
  have hu : spanOff s n = clearLatch (stopSuspended w n) n := by rw [spanOff_eq, hw]
  have hfifo : w.notices.fifo <+: (spanOff s n).notices.fifo := by rw [← hw]; exact (spanOff_reports s n).fifo
  have hacc : (spanOff s n).acc.active = w.acc.active ∧ (spanOff s n).acc.current = w.acc.current := by
    rw [hu, show (clearLatch (stopSuspended w n) n).acc = (stopSuspended w n).acc from rfl, stopSuspended_acc]
    split
    · exact w.acc.discardSaved_current
    · exact ⟨rfl, rfl⟩
  obtain ⟨_, _, _, _, _, hstays⟩ := stopSuspended_rest w n
  refine ⟨fun hroom => hfifo.subset (hdone hroom), fun hroom hst => hfifo.subset (hlost hroom hst), hacc.1.trans hactive,
    by rw [hacc.2, howner], by rw [hu]; exact hstays.trans hworking, ?_, fun hx => ?_⟩
  · have hend := reRaised_stopSuspended hre (hcfg'.trans hcfg) (by rw [hclock', hclock])
    rw [hu]
    exact hend
  · have hkeeps : stopSuspended w n = w := if_neg (by rw [hsave, hx]; nofun)
    rw [hu, hkeeps]
    exact ⟨hsaved, hrecord⟩

/-- What SPAN-OFF leaves of the span's suspended sweep, at the end of the row (R51 step 4). -/
theorem spanOff_endsSuspended {n : Nat} {c : Ctx} (hc : s.sched.save = some c) (hn : c.span = n) :
    (spanOff s n).acc.slot (spanOff s n).acc.saved = emptySlot ∧
    (s.notices.fifo.length < 30 → ⟨.sweepDone n .aborted, s.clock.tod⟩ ∈ (spanOff s n).notices.fifo) ∧
    reRaised s (spanOff s n) n ∧
    ∀ x, s.comp.results.find n = some x → (spanOff s n).comp.results.find n = some { x with
      latest := some ⟨.aborted, c.kind, c.level, s.clock.tod, c.litDone, c.darkLevel⟩ } := by
  obtain ⟨_, _, _, hcfg, hclock, halerts, _, _, hcomp, _⟩ := slotRemoved_rest s n
  obtain ⟨_, _, _, hcfg', hclock'⟩ := stopRunning_rest (slotRemoved s n) n
  have hsave : (stopRunning (slotRemoved s n) n).sched.save = some c := by rw [stopRunning_sched]; exact hc
  obtain ⟨hslot, hdone, hre, hrecord⟩ := stopSuspended_ends _ hsave hn
  by_cases hx : ∃ e, s.engine.ctx = some e ∧ e.span = n ∧ ¬ preparesSlot s n
  · obtain ⟨e, he, hen, hp⟩ := hx
    obtain ⟨hdone', _, _, _, _, hre', _⟩ := spanOff_ended s he hen hp
    obtain ⟨_, _, _, _, _, _, _, hrecord'⟩ := spanOff_running s he hen hp
    refine ⟨hslot, hdone', hre', fun x hx => ?_⟩
    rw [hclock', hclock] at hrecord
    exact (hrecord _ (hrecord' x hx)).trans rfl
  · have hkeeps : stopRunning (slotRemoved s n) n = slotRemoved s n := by
      refine if_neg fun hctx => hx ?_
      rw [slotRemoved_engine] at hctx
      by_cases hp : preparesSlot s n
      · rw [if_pos hp] at hctx
        cases hctx
      · rw [if_neg hp] at hctx
        obtain ⟨e, he, hen⟩ := (ctxIs_iff _ n).1 hctx
        exact ⟨e, he, hen, hp⟩
    have hposts := slotTold_posts s n
    rw [hkeeps] at hslot hdone hre hrecord
    rw [hclock] at hdone hrecord
    rw [hcomp] at hrecord
    rw [spanOff_eq, hkeeps]
    refine ⟨hslot, fun hroom => hdone (by omega), ?_, hrecord⟩
    unfold reRaised at hre ⊢
    rw [alertModeOfSpan_congr (s := s) hcfg, hclock, hcfg, halerts] at hre
    exact hre

theorem spanOff_claims {n : Nat} (hctx : ctxIs s.engine.ctx n = false) (hp : ¬ preparesSlot s n) :
    (spanOff s n).claims = s.claims := by
  have htold : slotRemoved s n = slotTold s n := by rw [slotRemoved_eq, if_neg hp]
  have hkeeps : stopRunning (slotRemoved s n) n = slotRemoved s n :=
    if_neg (by rw [slotRemoved_engine, if_neg hp, hctx]; nofun)
  rw [(spanOff_reports s n).claims, hkeeps, htold, (tells_slotTold s n).reports.claims]
  rfl

theorem state_eq_of_rest {s t : State} (h : t.pending = s.pending ∧ t.reference = s.reference ∧ t.cfg = s.cfg) :
    t = { s with port := t.port, clock := t.clock, alerts := t.alerts, sched := t.sched, engine := t.engine,
                 switch := t.switch, acc := t.acc, trace := t.trace, comp := t.comp, store := t.store,
                 line := t.line, peers := t.peers, claims := t.claims, corr := t.corr, notices := t.notices,
                 free := t.free } := by
  obtain ⟨hpending, hreference, hcfg⟩ := h
  rw [← hpending, ← hreference, ← hcfg]

theorem idle_of_lineSound {s : State} (h : s.lineSound) (hidle : s.line.state = .idle) :
    s.line.queue = [] ∧ s.line.attempt = none := by
  obtain ⟨hattempt, hqueue, _⟩ := h
  refine ⟨hqueue hidle, by_contra fun ha => ?_⟩
  rcases hattempt.1 ha with h | h <;> rw [hidle] at h <;> cases h

end Sys2Proof.Machine

namespace Sys2Proof

open Machine

/-- Settles O17: the stages of `spanOff`, each by what it changes, and `spanOn` by the test of R45. -/
theorem spansLeaveAndReturnToService : Obligations.SpansLeaveAndReturnToService := by
  refine ⟨fun s n => ⟨fun h => exec_spanOff_refused s (spanRefusal_state s h),
    fun h hn => exec_spanOff_refused s (spanRefusal_param s h hn), fun h h1 h48 hen => ⟨fun hoff => ?_, fun hoff => ?_⟩⟩,
    fun s n => ⟨fun h => exec_spanOn_refused s (spanRefusal_state s h),
    fun h hn => exec_spanOn_refused s (spanRefusal_param s h hn), fun h h1 h48 hen => ?_⟩⟩
  · rw [exec_spanOff s (spanRefusal_none s h h1 h48 hen), if_pos hoff]
  · obtain ⟨hpending, hreference, hport, hcfg, hclock⟩ := spanOff_rest s n
    obtain ⟨hslots, _, hselection, hsave, hexpiry⟩ := spanOff_sched s n
    obtain ⟨hlatches, htimers⟩ := spanOff_inputs s n
    obtain ⟨hworkOff, hworkSlot, hworkCtx, hworkSave⟩ := (spanOff_outOfWork s n).settleSelect
    have hengine := spanOff_engine s n
    have hstops : ∀ {c : Ctx}, s.engine.ctx = some c → c.span = n →
        (spanOff s n).engine = { s.engine with state := .idle, ctx := none } ∧ (spanOff s n).sched.selection = none :=
      fun hc hn => by
        have hx := (ctxIs_iff _ n).2 ⟨_, hc, hn⟩
        exact ⟨by rw [hengine, if_pos (.inr hx)], by rw [hselection, if_pos (.inr hx)]⟩
    have hquiet : s.sched.selection ≠ some (.slot n) → ¬ preparesSlot s n := fun hsel hp => hsel hp.1
    have hstore : (answer (settleSelect (spanOff s n)) .accepted []).store = (spanOff s n).store := by
      show (settleSelect (spanOff s n)).store = _
      simp
    have hnotices : (answer (settleSelect (spanOff s n)) .accepted []).notices = (spanOff s n).notices := by
      show (settleSelect (spanOff s n)).notices = _
      simp
    have hgives : preparesSlot s n → (spanOff s n).engine = { s.engine with state := .idle, ctx := none } ∧
        (spanOff s n).sched.selection = none := fun hp =>
      ⟨by rw [hengine, if_pos (.inl hp)], by rw [hselection, if_pos (.inl hp)]⟩
    refine ⟨_, (exec_spanOff s (spanRefusal_none s h h1 h48 hen)).trans (congrArg _ (if_neg hoff)), ?_, fun m => ?_, hworkSlot,
      ?_, hworkCtx, hworkSave, fun hst => ?_, fun hst hsel c hc => ⟨fun hn => ?_, fun r hn hr => ⟨?_, fun hroom => ?_⟩⟩,
      fun hsel hctx hfind hcand hnosave hidle => ?_, fun c hc hn => ⟨spanOff s n, rfl, ?_, ?_, ?_, fun hsel hl => ?_, fun hsel => ?_⟩,
      ⟨spanOff s n, rfl, fun m => ?_, hlatches, htimers, fun hctx hsel => ?_, fun hx => ?_, fun q hq hk hroom => ?_,
        fun hsel hctx hfind hl => ?_, fun c hc hn hsel => ?_, fun c hc hn => ?_⟩, ?_⟩
    · show ({ (settleSelect (spanOff s n)).port with reply := _, inProgress := none } : Port) = _
      simp [hport]
    · exact (Eq.to_iff (congrArg (m ∈ ·) hworkOff)).trans (mem_insertAsc ..)
    · show n ∉ (settleSelect (spanOff s n)).alerts.latches
      simp [hlatches]
    · exact hstore.trans (spanOff_store_kept s (.inl hst))
    · exact hstore.trans (spanOff_store_kept s (.inr (by rw [hc]; exact decide_eq_false hn)))
    · exact writeWasCut_congr (spanOff_cut s hc hn (hquiet (by rw [hsel]; nofun)) hst hr) rfl rfl hstore
    · obtain ⟨_, hlost, _⟩ := spanOff_ended s hc hn (hquiet (by rw [hsel]; nofun))
      rw [hnotices]
      exact hlost hroom hst
    · refine (spanOff_givesUp s ⟨hsel, hfind⟩ hidle).2 ?_
      have hselect := select_spanOff s ⟨hsel, hfind⟩ hctx hidle hcand hnosave
      refine Reports.trans (t := settleSelect (spanOff s n)) ?_ (.of_eq rfl rfl rfl)
      rw [settleSelect, hselect]
      exact .settle _
    · exact congrArg Engine.state (hstops hc hn).1
    · exact congrArg Engine.ctx (hstops hc hn).1
    · exact (hstops hc hn).2
    · exact (spanOff_dropped s hc hn).1 hsel (idle_of_lineSound hl)
    · exact (spanOff_dropped s hc hn).2 hsel
    · rw [hslots, Table.find_erase]
    · have hneither : ¬ (preparesSlot s n ∨ ctxIs s.engine.ctx n = true) :=
        not_or.2 ⟨hquiet hsel, by rw [hctx]; nofun⟩
      exact ⟨by rw [hengine, if_neg hneither], spanOff_claims s hctx (hquiet hsel), by rw [hselection, if_neg hneither]⟩
    · rw [hsave, hexpiry, hx]
      exact ⟨rfl, rfl⟩
    · exact spanOff_cancels s hq hk hroom
    · obtain ⟨heng, hsel'⟩ := hgives ⟨hsel, hfind⟩
      exact ⟨congrArg Engine.state heng, congrArg Engine.ctx heng, hsel',
        (spanOff_givesUp s ⟨hsel, hfind⟩ (idle_of_lineSound hl)).2 (.refl _)⟩
    · obtain ⟨hdone, _, hactive, howner, hworking, hre, hkept⟩ := spanOff_ended s hc hn (hquiet hsel)
      exact ⟨hdone, hactive, howner, hworking, hre, hkept⟩
    · obtain ⟨hslot, hdone, hre, hrecord⟩ := spanOff_endsSuspended s hc hn
      have hx := (ctxIs_iff _ n).2 ⟨c, hc, hn⟩
      exact ⟨by rw [hsave, if_pos hx], by rw [hexpiry, if_pos hx], hslot, hdone, hre, hrecord⟩
    · have hrest : (answer (settleSelect (spanOff s n)) .accepted []).pending = s.pending ∧
          (answer (settleSelect (spanOff s n)) .accepted []).reference = s.reference ∧
          (answer (settleSelect (spanOff s n)) .accepted []).cfg = s.cfg := by
        show (settleSelect (spanOff s n)).pending = _ ∧ (settleSelect (spanOff s n)).reference = _ ∧
          (settleSelect (spanOff s n)).cfg = _
        simp [hpending, hreference, hcfg]
      exact state_eq_of_rest hrest
  · have hok := spanOn_ok s (spanRefusal_none s h h1 h48 hen)
    have hno : (alertModeOfSpan s n ≠ .level ∨ n ∉ s.alerts.asserted ∨ s.sched.slots.find n ≠ none ∨
        ctxIs s.engine.ctx n = true ∨ ctxIs s.sched.save n = true ∨ s.alerts.timers.find n ≠ none) →
        ¬ levelHolds (returned s n) n := fun hbar => by
      rw [levelHolds_returned]
      rintro ⟨hmode, hasserted, hslot, hctx, hsave, htimer⟩
      simp [hmode, hasserted, hslot, hctx, hsave, htimer] at hbar
    refine ⟨fun hoff => ?_, fun hoff hbusy hawake hmode => ?_,
      fun hoff hbusy hawake hmode hasserted hslot hctx hsave htimer => ?_,
      fun hoff hmode hasserted hslot hctx hsave htimer => ?_, fun hoff hbar => ?_⟩
    · rw [exec_spanOn s (spanRefusal_none s h h1 h48 hen), if_neg hoff]
    · rw [hok hoff, if_neg (hno (.inl hmode)), settleSelect_occupied (returned s n) ⟨hbusy, hawake⟩]
      rfl
    · rw [hok hoff, if_pos ((levelHolds_returned s n).2 ⟨hmode, hasserted, hslot, hctx, hsave, htimer⟩),
        settleSelect_occupied (putSlot (returned s n) n (alertRequest s n)) ⟨hbusy, hawake⟩]
      rfl
    · rw [hok hoff, if_pos ((levelHolds_returned s n).2 ⟨hmode, hasserted, hslot, hctx, hsave, htimer⟩)]
      rfl
    · rw [hok hoff, if_neg (hno hbar)]
      rfl

end Sys2Proof

/-! ## The codec of host commands (12.2) -/

namespace Sys2Proof

-- The kernel checks the lemmas one after another: many at once take a thread each.
set_option Elab.async false

/-! ### Numbers in bytes -/

theorem fitsBytes_iff (n v : Nat) : fitsBytes n v = true ↔ v < 256 ^ n := decide_eq_true_iff

theorem foldl_beBytes (n v a : Nat) :
    (beBytes n v).foldl (fun a b => a * 256 + b.toNat) a = a * 256 ^ n + v % 256 ^ n := by
  induction n generalizing a with
  | zero => simp [beBytes, Nat.mod_one]
  | succ n ih =>
    rw [beBytes, List.foldl_cons, ih, BitVec.toNat_ofNat, show 256 ^ (n + 1) = 256 ^ n * 256 from rfl, Nat.mod_mul]
    ring

theorem beNat_beBytes {n v : Nat} (h : fitsBytes n v = true) : beNat (beBytes n v) = v := by
  rw [beNat, foldl_beBytes, Nat.zero_mul, Nat.zero_add, Nat.mod_eq_of_lt ((fitsBytes_iff n v).1 h)]

theorem foldl_bytes_lt (bs : List Byte) (a : Nat) :
    bs.foldl (fun a b => a * 256 + b.toNat) a < (a + 1) * 256 ^ bs.length := by
  induction bs generalizing a with
  | nil => simp
  | cons b bs ih =>
    have hb : b.toNat < 256 := b.isLt
    refine (ih _).trans_le ?_
    rw [List.length_cons, Nat.pow_succ, Nat.mul_comm (256 ^ _) 256, ← Nat.mul_assoc]
    exact Nat.mul_le_mul_right _ (show a * 256 + b.toNat + 1 ≤ (a + 1) * 256 by omega)

theorem fitsBytes_beNat {bs : List Byte} {n : Nat} (h : bs.length = n) : fitsBytes n (beNat bs) = true := by
  have hlt := foldl_bytes_lt bs 0
  rw [Nat.zero_add, Nat.one_mul, h] at hlt
  exact (fitsBytes_iff ..).2 hlt

/-! ### Fields, joined and split -/

/-- Each value fits the bytes of its field. -/
def fieldsFit (ns vs : List Nat) : Prop := List.Forall₂ (fun n v => fitsBytes n v = true) ns vs

theorem splitFields_joinFields {ns vs : List Nat} (h : fieldsFit ns vs) : splitFields ns (joinFields (ns.zip vs)) = some vs := by
  induction h with
  | nil => rfl
  | @cons n v ns vs hv _ ih =>
    have hlen : (beBytes n v).length = n := Machine.length_beBytes n v
    rw [List.zip_cons_cons, joinFields, splitFields, if_neg (by rw [List.length_append]; omega),
      List.drop_left' hlen, List.take_left' hlen, ih, beNat_beBytes hv]
    rfl

theorem splitFields_fit {ns vs : List Nat} {bs : List Byte} (h : splitFields ns bs = some vs) : fieldsFit ns vs := by
  induction ns generalizing bs vs with
  | nil =>
    rw [splitFields] at h
    split at h
    · cases h
      exact .nil
    · cases h
  | cons n ns ih =>
    rw [splitFields] at h
    split at h
    · cases h
    · next hlen =>
      obtain ⟨ws, hws, rfl⟩ := Option.map_eq_some_iff.1 h
      exact .cons (fitsBytes_beNat (List.length_take_of_le (by omega))) (ih hws)

/-- One field, as the commands with one parameter carry it. -/
theorem parseOne_beBytes {n v : Nat} (h : fitsBytes n v = true) (mk : Nat → Instr) : parseOne n mk (beBytes n v) = some (mk v) := by
  have hsplit := splitFields_joinFields (.cons h .nil)
  rw [List.zip_cons_cons, List.zip_nil_left, joinFields, joinFields, List.append_nil] at hsplit
  rw [parseOne, hsplit]

theorem parseOne_some {n : Nat} {mk : Nat → Instr} {ps : List Byte} {i : Instr} (h : parseOne n mk ps = some i) :
    ∃ v, fitsBytes n v = true ∧ i = mk v := by
  unfold parseOne at h
  split at h
  · next v hv =>
    cases h
    cases splitFields_fit hv with
    | cons hfit _ => exact ⟨v, hfit, rfl⟩
  · cases h

theorem parseNone_some {i j : Instr} {ps : List Byte} (h : parseNone i ps = some j) : j = i := by
  rw [parseNone] at h
  split at h
  · exact (Option.some.inj h).symm
  · cases h

theorem flagOf_toNat (b : Bool) : flagOf b.toNat = b := by cases b <;> rfl

/-! ### The codes with several fields -/

theorem joinFields_fields (l : List (Nat × Nat)) : joinFields l = joinFields ((l.map (·.1)).zip (l.map (·.2))) := by
  rw [List.zip_map', List.map_id']

theorem splitFields_fields {l : List (Nat × Nat)} (h : ∀ p ∈ l, fitsBytes p.1 p.2 = true) :
    splitFields (l.map (·.1)) (joinFields l) = some (l.map (·.2)) := by
  rw [joinFields_fields]
  refine splitFields_joinFields ?_
  rw [fieldsFit, List.forall₂_map_left_iff, List.forall₂_map_right_iff, List.forall₂_same]
  exact h

theorem parse_span {s : Nat} {r : SpanRecord} (h : (Instr.configWriteSpan s r).wellFormed = true) :
    (splitFields spanSizes (joinFields (spanSizes.zip (spanFields s r)))).bind parseSpan = some (.configWriteSpan s r) := by
  have hflag : fitsBytes 1 r.enabled.toNat = true := by cases r.enabled <;> rfl
  have hfit : fieldsFit spanSizes (spanFields s r) := by
    simp only [Instr.wellFormed, SpanRecord.wellFormed, Bool.and_eq_true, and_assoc] at h
    simp only [fieldsFit, spanSizes, spanFields, List.forall₂_cons, List.forall₂_nil_left_iff, hflag, h, and_self]
  rw [splitFields_joinFields hfit]
  simp only [Option.bind_some, spanFields, parseSpan, flagOf_toNat]

theorem parse_station {b : StationBlock} (h : b.wellFormed = true) :
    (splitFields stationSizes (joinFields (stationSizes.zip (stationFields b)))).bind parseStation =
      some (.configWriteStation b) := by
  have hflag : fitsBytes 1 b.dozeEnable.toNat = true := by cases b.dozeEnable <;> rfl
  have hbanks : fitsBytes 1 b.retention.toNat = true := (fitsBytes_iff ..).2 b.retention.isLt
  have hfit : fieldsFit stationSizes (stationFields b) := by
    simp only [StationBlock.wellFormed, Bool.and_eq_true, and_assoc] at h
    simp only [fieldsFit, stationSizes, stationFields, List.forall₂_cons, List.forall₂_nil_left_iff, hflag, hbanks, h, and_self]
  rw [splitFields_joinFields hfit]
  simp only [Option.bind_some, stationFields, parseStation, flagOf_toNat, BitVec.ofNat_toNat, BitVec.setWidth_eq]

theorem parse_trace {q : TraceRequest} (h : q.wellFormed = true) :
    (splitFields traceSizes (joinFields (traceSizes.zip [q.source, q.span, q.first, q.count, q.burst, q.group]))).bind
      parseTrace = some (.readTrace q) := by
  have hfit : fieldsFit traceSizes [q.source, q.span, q.first, q.count, q.burst, q.group] := by
    simp only [TraceRequest.wellFormed, Bool.and_eq_true, and_assoc] at h
    simp only [fieldsFit, traceSizes, List.forall₂_cons, List.forall₂_nil_left_iff, h, and_self]
  rw [splitFields_joinFields hfit]
  rfl

theorem parseSweep_fields {s k l : Nat} (h : (Instr.sweep s k l).wellFormed = true) :
    parseSweep (joinFields [(1, s), (1, k), (1, l)]) = some (.sweep s k l) := by
  simp only [Instr.wellFormed, Bool.and_eq_true, and_assoc] at h
  have hsplit := splitFields_fields (l := [(1, s), (1, k), (1, l)]) (by simp [h])
  rw [parseSweep]
  simp only [List.map_cons, List.map_nil] at hsplit
  rw [hsplit]

theorem parseData_fields {s : Nat} {ls : List Nat} (h : (Instr.fpData s ls).wellFormed = true) :
    parseData (joinFields ((1, s) :: (2, ls.length) :: ls.map (2, ·))) = some (.fpData s ls) := by
  simp only [Instr.wellFormed, Bool.and_eq_true, and_assoc, List.all_eq_true] at h
  obtain ⟨hs, hlen, hls⟩ := h
  have hlevels : splitFields (List.replicate ls.length 2) (joinFields (ls.map (2, ·))) = some ls := by
    have hsplit := splitFields_fields (l := ls.map (2, ·)) (by simpa using hls)
    simpa [List.map_const', Function.comp_def] using hsplit
  have h1 : (beBytes 1 s).length = 1 := Machine.length_beBytes ..
  have h2 : (beBytes 2 ls.length).length = 2 := Machine.length_beBytes ..
  rw [joinFields, joinFields, parseData, if_neg (by simp only [List.length_append]; omega)]
  simp only [List.take_left' h1, List.drop_left' h1, List.take_left' h2, beNat_beBytes hs, beNat_beBytes hlen]
  rw [← List.append_assoc, List.drop_left' (by rw [List.length_append, h1, h2]), hlevels]
  rfl

/-! ### What bytes spell is well formed -/

/-- A host command that 12.2 can carry. -/
def isHostCommand (i : Instr) : Prop := i.wellFormed = true ∧ encodeCommand i ≠ none

theorem isHostCommand_span {i : Instr} {ps : List Byte} (h : (splitFields spanSizes ps).bind parseSpan = some i) :
    isHostCommand i := by
  obtain ⟨vs, hvs, hparse⟩ := Option.bind_eq_some_iff.1 h
  have hfit := splitFields_fit hvs
  unfold parseSpan at hparse
  split at hparse
  · cases hparse
    simp only [fieldsFit, spanSizes, List.forall₂_cons] at hfit
    exact ⟨by simp [Instr.wellFormed, SpanRecord.wellFormed, hfit], nofun⟩
  · cases hparse

theorem isHostCommand_station {i : Instr} {ps : List Byte} (h : (splitFields stationSizes ps).bind parseStation = some i) :
    isHostCommand i := by
  obtain ⟨vs, hvs, hparse⟩ := Option.bind_eq_some_iff.1 h
  have hfit := splitFields_fit hvs
  unfold parseStation at hparse
  split at hparse
  · cases hparse
    simp only [fieldsFit, stationSizes, List.forall₂_cons] at hfit
    exact ⟨by simp [Instr.wellFormed, StationBlock.wellFormed, hfit], nofun⟩
  · cases hparse

theorem isHostCommand_trace {i : Instr} {ps : List Byte} (h : (splitFields traceSizes ps).bind parseTrace = some i) :
    isHostCommand i := by
  obtain ⟨vs, hvs, hparse⟩ := Option.bind_eq_some_iff.1 h
  have hfit := splitFields_fit hvs
  unfold parseTrace at hparse
  split at hparse
  · cases hparse
    simp only [fieldsFit, traceSizes, List.forall₂_cons] at hfit
    exact ⟨by simp [Instr.wellFormed, TraceRequest.wellFormed, hfit], nofun⟩
  · cases hparse

theorem isHostCommand_sweep {i : Instr} {ps : List Byte} (h : parseSweep ps = some i) : isHostCommand i := by
  unfold parseSweep at h
  split at h
  · next s k l hvs =>
    have hfit := splitFields_fit hvs
    cases h
    simp only [fieldsFit, List.forall₂_cons] at hfit
    exact ⟨by simp [Instr.wellFormed, hfit], nofun⟩
  · cases h

theorem fieldsFit_replicate {c n : Nat} {vs : List Nat} (h : fieldsFit (List.replicate c n) vs) :
    vs.length = c ∧ ∀ v ∈ vs, fitsBytes n v = true := by
  induction c generalizing vs with
  | zero =>
    cases h
    exact ⟨rfl, nofun⟩
  | succ c ih =>
    cases h with
    | cons hv hvs =>
      obtain ⟨hlen, hall⟩ := ih hvs
      exact ⟨congrArg (· + 1) hlen, List.forall_mem_cons.2 ⟨hv, hall⟩⟩

theorem isHostCommand_data {i : Instr} {ps : List Byte} (h : parseData ps = some i) : isHostCommand i := by
  unfold parseData at h
  split at h
  · cases h
  · next hlen =>
    obtain ⟨ls, hls, rfl⟩ := Option.map_eq_some_iff.1 h
    obtain ⟨hcount, hall⟩ := fieldsFit_replicate (splitFields_fit hls)
    have hs : fitsBytes 1 (beNat (ps.take 1)) = true := fitsBytes_beNat (List.length_take_of_le (by omega))
    have hc : fitsBytes 2 ls.length = true := by
      rw [hcount]
      exact fitsBytes_beNat (List.length_take_of_le (by rw [List.length_drop]; omega))
    exact ⟨by simp [Instr.wellFormed, hs, hc, List.all_eq_true.2 hall], nofun⟩

theorem isHostCommand_one {n : Nat} {mk : Nat → Instr} {ps : List Byte} {i : Instr} (h : parseOne n mk ps = some i)
    (hmk : ∀ v, fitsBytes n v = true → isHostCommand (mk v)) : isHostCommand i := by
  obtain ⟨v, hv, rfl⟩ := parseOne_some h
  exact hmk v hv

theorem isHostCommand_none {j i : Instr} {ps : List Byte} (h : parseNone j ps = some i) (hj : isHostCommand j) :
    isHostCommand i := by
  rw [parseNone_some h]
  exact hj

theorem isHostCommand_of_parseCommand {i : Instr} {bs : List Byte} (h : parseCommand bs = some i) : isHostCommand i := by
  unfold parseCommand at h
  split at h
  · cases h
  · split at h
    case h_1 => exact isHostCommand_span h
    case h_2 => exact isHostCommand_station h
    case h_9 => exact isHostCommand_trace h
    case h_10 => exact isHostCommand_sweep h
    case h_15 => exact isHostCommand_data h
    case h_17 => cases h
    case h_4 | h_5 | h_6 | h_7 | h_13 => exact isHostCommand_none h ⟨rfl, nofun⟩
    all_goals exact isHostCommand_one h fun v hv => ⟨hv, nofun⟩

/-- Settles O28: code by code, what `encodeCommand` writes `parseCommand` reads. -/
theorem commandRoundTrip : Obligations.CommandRoundTrip := by
  refine ⟨fun i bs hwf hbs => ?_, fun i bs h => isHostCommand_of_parseCommand h⟩
  cases i <;> cases hbs
  case configWriteSpan => exact parse_span hwf
  case configWriteStation => exact parse_station hwf
  case readTrace => exact parse_trace hwf
  case sweep => exact parseSweep_fields hwf
  case fpData => exact parseData_fields hwf
  case start | readResult | spanOff | spanOn | fpBegin | fpEnd => exact parseOne_beBytes hwf _
  all_goals rfl

end Sys2Proof

/-! ## The codec of rack-line frames (12.1, R203) -/

namespace Sys2Proof

-- The kernel checks the lemmas one after another: many at once take a thread each.
set_option Elab.async false

/-! ### Bit stuffing -/

/-- Removing the stuff bits gives the data bits back. -/
theorem unstuff_stuff (bs : List Bool) (l : Bool) {r : Nat} (hr : r ≤ 4) : unstuff l r (stuff l r bs) = bs := by
  induction bs generalizing l r with
  | nil => rfl
  | cons b bs ih =>
    rw [stuff]
    by_cases hs : (if b = l then r + 1 else 1) = 5 ∧ bs ≠ []
    · rw [if_pos hs, unstuff, if_neg (by omega), hs.1, unstuff, if_pos rfl, if_neg (by cases b <;> nofun), ih _ (by omega)]
    · rw [if_neg hs, unstuff, if_neg (by omega)]
      by_cases hb : bs = []
      · rw [hb]
        rfl
      · have hrun : (if b = l then r + 1 else 1) ≤ 4 := by
          have hne : (if b = l then r + 1 else 1) ≠ 5 := fun h => hs ⟨h, hb⟩
          have hle : (if b = l then r + 1 else 1) ≤ 5 := by split <;> omega
          omega
        rw [ih b hrun]

/-- No run of one level grows beyond five, the run before the bits having length r at level l. -/
def runsFit (l : Bool) (r : Nat) : List Bool → Prop
  | [] => True
  | b :: bs => (if b = l then r + 1 else 1) ≤ 5 ∧ runsFit b (if b = l then r + 1 else 1) bs

theorem runsFit_stuff (bs : List Bool) (l : Bool) {r : Nat} (hr : r ≤ 4) : runsFit l r (stuff l r bs) := by
  induction bs generalizing l r with
  | nil => trivial
  | cons b bs ih =>
    have hrun : (if b = l then r + 1 else 1) ≤ 5 := by split <;> omega
    rw [stuff]
    by_cases hs : (if b = l then r + 1 else 1) = 5 ∧ bs ≠ []
    · rw [if_pos hs]
      refine ⟨hrun, ?_⟩
      rw [runsFit, if_neg (by cases b <;> nofun)]
      exact ⟨by omega, ih _ (by omega)⟩
    · rw [if_neg hs]
      refine ⟨hrun, ?_⟩
      by_cases hb : bs = []
      · rw [hb]
        trivial
      · exact ih b (by have hne : (if b = l then r + 1 else 1) ≠ 5 := fun h => hs ⟨h, hb⟩; omega)

theorem runsFit_append {as bs : List Bool} {l : Bool} {r : Nat} (h : runsFit l r (as ++ bs)) : ∃ l' r', runsFit l' r' bs := by
  induction as generalizing l r with
  | nil => exact ⟨l, r, h⟩
  | cons a as ih => exact ih h.2

theorem runsFit_replicate {n r : Nat} {b : Bool} {bs : List Bool} (h : runsFit b r (List.replicate n b ++ bs)) (hr : r ≤ 5) :
    r + n ≤ 5 := by
  induction n generalizing r with
  | zero => exact hr
  | succ n ih =>
    rw [List.replicate_succ, List.cons_append, runsFit, if_pos rfl] at h
    have := ih h.2 h.1
    omega

theorem not_six_of_runsFit {bs pre post : List Bool} {l b : Bool} {r : Nat} (h : runsFit l r bs) :
    bs ≠ pre ++ List.replicate 6 b ++ post := by
  rintro rfl
  rw [List.append_assoc] at h
  obtain ⟨l', r', h'⟩ := runsFit_append h
  rw [List.replicate_succ, List.cons_append, runsFit] at h'
  obtain ⟨hrun, hrest⟩ := h'
  have hlong := runsFit_replicate hrest hrun
  split at hlong <;> omega

/-! ### Numbers in bits -/

@[simp] theorem length_bitsOf (n v : Nat) : (bitsOf n v).length = n := by
  induction n with
  | zero => rfl
  | succ n ih => rw [bitsOf, List.length_cons, ih]

theorem foldl_bitsOf (n v a : Nat) :
    (bitsOf n v).foldl (fun a b => a * 2 + b.toNat) a = a * 2 ^ n + v % 2 ^ n := by
  induction n generalizing a with
  | zero => simp [bitsOf, Nat.mod_one]
  | succ n ih =>
    rw [bitsOf, List.foldl_cons, ih, Nat.toNat_testBit, Nat.pow_succ, Nat.mod_mul]
    ring

theorem natOfBits_bitsOf {n v : Nat} (h : v < 2 ^ n) : natOfBits (bitsOf n v) = v := by
  rw [natOfBits, foldl_bitsOf, Nat.zero_mul, Nat.zero_add, Nat.mod_eq_of_lt h]

@[simp] theorem length_bytesToBits (bs : List Byte) : (bytesToBits bs).length = 8 * bs.length := by
  induction bs with
  | nil => rfl
  | cons b bs ih =>
    rw [bytesToBits] at ih ⊢
    rw [List.flatMap_cons, List.length_append, length_bitsOf, ih, List.length_cons]
    omega

theorem bitsToNats_bytesToBits (bs : List Byte) (rest : List Bool) :
    bitsToNats bs.length (bytesToBits bs ++ rest) = bs.map (·.toNat) := by
  induction bs with
  | nil => rfl
  | cons b bs ih =>
    have h8 : (bitsOf 8 b.toNat).length = 8 := length_bitsOf 8 _
    rw [bytesToBits] at ih ⊢
    rw [List.flatMap_cons, List.length_cons, bitsToNats, List.append_assoc, List.take_left' h8, List.drop_left' h8,
      natOfBits_bitsOf b.isLt, ih]
    rfl

/-! ### The check sequence -/

/-- Fed with its own bits, the check register shifts out. -/
theorem crcStep_own (r : BitVec 16) {n : Nat} (hn : n ≤ 16) :
    (bitsOf n r.toNat).foldl crcStep (r <<< (16 - n)) = 0#16 := by
  induction n with
  | zero => simp [bitsOf]
  | succ n ih =>
    have hmsb : (r <<< (16 - (n + 1))).msb = r.toNat.testBit n := by
      rw [BitVec.msb_eq_getLsbD_last, BitVec.getLsbD_shiftLeft, ← BitVec.testBit_toNat]
      have h15 : 16 - 1 - (16 - (n + 1)) = n := by omega
      rw [h15]
      simp
    have hstep : crcStep (r <<< (16 - (n + 1))) (r.toNat.testBit n) = r <<< (16 - n) := by
      rw [crcStep, hmsb, Bool.xor_self, if_neg (by nofun), ← BitVec.shiftLeft_add]
      congr 1
      omega
    rw [bitsOf, List.foldl_cons, hstep, ih (by omega)]

theorem crc_checked (bs : List Bool) : crc (bs ++ bitsOf 16 (crc bs).toNat) = 0#16 := by
  rw [crc, List.foldl_append]
  have hown := crcStep_own (crc bs) (Nat.le_refl 16)
  rwa [Nat.sub_self, BitVec.shiftLeft_zero] at hown

/-! ### Frames -/

theorem bodyLength_bytes {b : FrameBody} (h : ∀ p gs, b = .presence p gs → gs.length ≤ 8) :
    bodyLength b.kindCode = some b.bytes.length := by
  cases b with
  | presence p gs =>
    have hgs := h p gs rfl
    have hflat : (gs.flatMap (beBytes 1)).length = gs.length := by simp [List.length_flatMap]
    have hlen : (FrameBody.presence p gs).bytes.length = 10 := by
      simp only [FrameBody.bytes, List.length_append, Machine.length_beBytes, List.length_replicate, hflat]
      omega
    rw [hlen]
    rfl
  | claim g l | hold g l | release g l | finding g k d => rfl

theorem map_toNat_beBytes_one {v : Nat} (h : fitsBytes 1 v = true) : (beBytes 1 v).map (·.toNat) = [v] := by
  have hv := (fitsBytes_iff 1 v).1 h
  simp only [beBytes, List.map_cons, List.map_nil, BitVec.toNat_ofNat]
  rw [Nat.pow_zero, Nat.div_one, Nat.mod_eq_of_lt (show v < 2 ^ 8 from hv)]

theorem ofCode_code (p : PresenceState) : PresenceState.ofCode p.code = p := by cases p <;> rfl

theorem map_toNat_flatMap {gs : List Nat} (h : ∀ g ∈ gs, fitsBytes 1 g = true) :
    (gs.flatMap (beBytes 1)).map (·.toNat) = gs := by
  induction gs with
  | nil => rfl
  | cons g gs ih =>
    rw [List.flatMap_cons, List.map_append, map_toNat_beBytes_one (h g (List.mem_cons_self ..)),
      ih fun x hx => h x (List.mem_cons_of_mem _ hx)]
    rfl

theorem parseBody_group {g l : Nat} (hg : fitsBytes 1 g = true) (hl : l ≤ 3) :
    (beBytes 1 g ++ beBytes 1 l).map (·.toNat) = [g, l] ∧ l % 4 = l := by
  have hfit : fitsBytes 1 l = true := (fitsBytes_iff 1 l).2 (by omega)
  rw [List.map_append, map_toNat_beBytes_one hg, map_toNat_beBytes_one hfit]
  exact ⟨rfl, Nat.mod_eq_of_lt (by omega)⟩

theorem parseBody_presence (p : PresenceState) {gs : List Nat} (hlen : gs.length ≤ 8) (hgs : ∀ g ∈ gs, 1 ≤ g ∧ g ≤ 255)
    (hasc : gs.Pairwise (· < ·)) :
    parseBody 1 ((FrameBody.presence p gs).bytes.map (·.toNat)) = some (.presence p gs) := by
  have hcode : fitsBytes 1 p.code = true := by cases p <;> rfl
  have hcount : fitsBytes 1 gs.length = true := (fitsBytes_iff ..).2 (by omega)
  have hfit : ∀ g ∈ gs, fitsBytes 1 g = true := fun g hg => (fitsBytes_iff ..).2 (by have := hgs g hg; omega)
  have hbytes : (FrameBody.presence p gs).bytes.map (·.toNat) =
      p.code :: gs.length :: (gs ++ (List.replicate (8 - gs.length) 0#8).map (·.toNat)) := by
    rw [FrameBody.bytes, List.map_append, List.map_append, List.map_append, map_toNat_beBytes_one hcode,
      map_toNat_beBytes_one hcount, map_toNat_flatMap hfit]
    rfl
  have hnodup : gs.Nodup := hasc.imp fun h => Nat.ne_of_lt h
  have hne : gs.all (· ≠ 0) = true := List.all_eq_true.2 fun g hg => decide_eq_true (by have := hgs g hg; omega)
  rw [hbytes, parseBody, List.take_left' rfl, if_pos ⟨hlen, hne, hnodup⟩, ofCode_code]

theorem parseBody_finding {g k d : Nat} (hg : fitsBytes 1 g = true) (hk : fitsBytes 1 k = true) (hd : fitsBytes 3 d = true) :
    parseBody 5 ((FrameBody.finding g k d).bytes.map (·.toNat)) = some (.finding g k d) := by
  have hdist := beNat_beBytes hd
  rw [FrameBody.bytes, List.map_append, List.map_append, map_toNat_beBytes_one hg, map_toNat_beBytes_one hk]
  simp only [beNat, beBytes, List.foldl_cons, List.foldl_nil, Nat.zero_mul, Nat.zero_add] at hdist
  exact congrArg (fun x => some (FrameBody.finding g k x)) hdist

/-- What a well-formed frame carries, field by field. -/
theorem wellFormed_body {f : Frame} (h : f.wellFormed = true) :
    f.urgency ≤ 3 ∧ 1 ≤ f.sender ∧ f.sender ≤ 31 ∧ bodyLength f.body.kindCode = some f.body.bytes.length ∧
    parseBody f.body.kindCode (f.body.bytes.map (·.toNat)) = some f.body := by
  obtain ⟨u, i, b⟩ := f
  simp only [Frame.wellFormed, inOneTo, Bool.and_eq_true, decide_eq_true_eq, and_assoc] at h
  obtain ⟨hu, hi, hi', hbody⟩ := h
  refine ⟨hu, hi, hi', ?_⟩
  cases b with
  | presence p gs =>
    simp only [Bool.and_eq_true, decide_eq_true_eq, List.all_eq_true] at hbody
    obtain ⟨⟨hlen, hgs⟩, hasc⟩ := hbody
    exact ⟨bodyLength_bytes fun _ _ h => by cases h; exact hlen, parseBody_presence p hlen (fun g hg => of_decide_eq_true (hgs g hg)) hasc⟩
  | claim g l | hold g l | release g l =>
    simp only [Bool.and_eq_true, decide_eq_true_eq] at hbody
    obtain ⟨hmap, hl⟩ := parseBody_group hbody.1 hbody.2
    refine ⟨rfl, ?_⟩
    simp only [FrameBody.bytes, hmap, FrameBody.kindCode, parseBody, hl]
  | finding g k d =>
    simp only [Bool.and_eq_true, and_assoc] at hbody
    obtain ⟨hg, hk, hd⟩ := hbody
    exact ⟨rfl, parseBody_finding hg hk hd⟩

theorem bodyLength_fits {k n : Nat} (h : bodyLength k = some n) : k < 256 ∧ n < 256 := by
  unfold bodyLength at h
  split at h <;> cases h <;> decide

/-- The fields that reception reads from a frame's data bits. -/
theorem dataBits_fields (f : Frame) : f.dataBits.length = 39 + 8 * f.body.bytes.length ∧
    f.dataBits.take 2 = bitsOf 2 (3 - f.urgency) ∧ (f.dataBits.drop 2).take 5 = bitsOf 5 f.sender ∧
    (f.dataBits.drop 7).take 8 = bitsOf 8 f.body.kindCode ∧ (f.dataBits.drop 15).take 8 = bitsOf 8 f.body.bytes.length ∧
    f.dataBits.drop 23 = bytesToBits f.body.bytes ++ bitsOf 16 (crc f.coveredBits).toNat := by
  have hdata : f.dataBits = bitsOf 2 (3 - f.urgency) ++ (bitsOf 5 f.sender ++ (bitsOf 8 f.body.kindCode ++
      (bitsOf 8 f.body.bytes.length ++ (bytesToBits f.body.bytes ++ bitsOf 16 (crc f.coveredBits).toNat)))) := by
    rw [Frame.dataBits, Frame.coveredBits]
    simp only [List.append_assoc]
  have h2 : ∀ l, (bitsOf 2 (3 - f.urgency) ++ l).drop 2 = l := fun l => List.drop_left' (length_bitsOf ..)
  have h5 : ∀ l, (bitsOf 5 f.sender ++ l).drop 5 = l := fun l => List.drop_left' (length_bitsOf ..)
  have h8 : ∀ v l, (bitsOf 8 v ++ l).drop 8 = l := fun v l => List.drop_left' (length_bitsOf ..)
  have hdrop7 : f.dataBits.drop 7 = bitsOf 8 f.body.kindCode ++ (bitsOf 8 f.body.bytes.length ++
      (bytesToBits f.body.bytes ++ bitsOf 16 (crc f.coveredBits).toNat)) := by
    rw [show 7 = 2 + 5 from rfl, ← List.drop_drop, hdata, h2, h5]
  have hdrop15 : f.dataBits.drop 15 = bitsOf 8 f.body.bytes.length ++
      (bytesToBits f.body.bytes ++ bitsOf 16 (crc f.coveredBits).toNat) := by
    rw [show 15 = 7 + 8 from rfl, ← List.drop_drop, hdrop7, h8]
  refine ⟨?_, ?_, ?_, ?_, ?_, ?_⟩
  · rw [hdata]
    simp only [List.length_append, length_bitsOf, length_bytesToBits]
    omega
  · rw [hdata]
    exact List.take_left' (length_bitsOf ..)
  · rw [hdata, h2]
    exact List.take_left' (length_bitsOf ..)
  · rw [hdrop7]
    exact List.take_left' (length_bitsOf ..)
  · rw [hdrop15]
    exact List.take_left' (length_bitsOf ..)
  · rw [show 23 = 15 + 8 from rfl, ← List.drop_drop, hdrop15, h8]

theorem parseFrame_lineBits {f : Frame} (h : f.wellFormed = true) : parseFrame f.lineBits = some f := by
  obtain ⟨hu, hi, hi', hlen, hparse⟩ := wellFormed_body h
  obtain ⟨hkind, hbytes⟩ := bodyLength_fits hlen
  obtain ⟨hlength, hurgency, hsender, hcode, hcount, hrest⟩ := dataBits_fields f
  have hcrc : crc (f.dataBits.take (39 + 8 * f.body.bytes.length)) = 0#16 := by
    rw [List.take_of_length_le (Nat.le_of_eq hlength)]
    exact crc_checked f.coveredBits
  have hback : 3 - (3 - f.urgency) = f.urgency := by omega
  unfold parseFrame
  rw [Frame.lineBits, unstuff_stuff _ _ (by omega)]
  dsimp only
  rw [hurgency, hsender, hcode, hcount, natOfBits_bitsOf (show 3 - f.urgency < 2 ^ 2 by omega),
    natOfBits_bitsOf (show f.sender < 2 ^ 5 by omega), natOfBits_bitsOf (n := 8) (v := f.body.kindCode) hkind, natOfBits_bitsOf (n := 8) (v := f.body.bytes.length) hbytes,
    if_neg (by omega), if_neg (by omega), if_neg (not_not.2 hcrc), hlen]
  dsimp only
  rw [if_neg (not_not.2 rfl), if_neg (by omega), hrest, bitsToNats_bytesToBits, hparse, hback]
  rfl

/-- Settles O29: stuffing undone, the check sequence's residue, and the body read back. -/
theorem frameRoundTrip : Obligations.FrameRoundTrip :=
  ⟨fun _ h => parseFrame_lineBits h, fun f _ _ _ => not_six_of_runsFit (runsFit_stuff f.dataBits false (by omega)),
    fun _ _ h => parseFrame_bounds h⟩

end Sys2Proof

/-! ## The comparator: ranges, runs and event lists (R110 to R124, R180) -/

namespace Sys2Proof

-- The kernel checks the lemmas one after another: many at once take a thread each.
set_option Elab.async false

/-! ### The confirm window (R180) -/

theorem confirmWindow_short {len : Nat} (t : Nat) (h : len ≤ 1024) : confirmWindow len t = (0, len) := if_pos h

theorem confirmWindow_long {len : Nat} (t : Nat) (h : 1024 < len) :
    confirmWindow len t = (min (t - t % 256 - 512) (len - 1024), 1024) := if_neg (Nat.not_le.2 h)

theorem compRange_window (r : SpanRecord) (base count : Nat) :
    compRange r (some (base, count)) = (max (r.anchor + 64) base, min (r.len - 17) (base + count - 1)) := rfl

/-- Settles O32: the clamped base of R180, by linear arithmetic over its block of 256. -/
theorem confirmWindowHoldsTheTarget : Obligations.ConfirmWindowHoldsTheTarget := by
  refine ⟨fun len t h => confirmWindow_short t h, fun len t hlen hblock ht => ⟨_, confirmWindow_long t hlen, ?_⟩,
    fun r t hblock hanchor ht => ?_⟩
  · omega
  · obtain ⟨hlow, hhigh⟩ := of_decide_eq_true ht
    refine ⟨show r.anchor + 64 + 31 ≤ r.len - 17 by omega, ?_⟩
    by_cases hlen : r.len ≤ 1024
    · rw [confirmWindow_short t hlen, compRange_window]
      dsimp only
      omega
    · rw [confirmWindow_long t (by omega), compRange_window]
      dsimp only
      omega

end Sys2Proof

namespace Sys2Proof.Machine

set_option Elab.async false

/-! ### Smoothed values and peaks (R114, R118) -/

theorem Problem.rise_eq_some (p : Problem) (j : Nat) (x : Int) : p.rise j = some x ↔
    p.level j ≠ 2047 ∧ p.level (j - 1) ≠ 2047 ∧ (p.level j : Int) - p.level (j - 1) = x := by
  have hno : Config.noData = 2047 := rfl
  rw [Problem.rise, hno]
  split
  · next h => exact ⟨nofun, fun ⟨h1, h2, _⟩ => absurd h (not_or.2 ⟨h1, h2⟩)⟩
  · next h =>
    obtain ⟨h1, h2⟩ := not_or.1 h
    rw [Option.some.injEq]
    exact ⟨fun hx => ⟨h1, h2, hx⟩, fun hx => hx.2.2⟩

theorem Problem.peak_eq_some (p : Problem) {e d : Nat} (he : 3 ≤ e) : p.peak e = some d ↔ p.rho ≤ d ∧
    (∃ j, e - 2 ≤ j ∧ j ≤ e + 2 ∧ p.rise j = some (d : Int)) ∧
    ∀ j x, e - 2 ≤ j → j ≤ e + 2 → p.rise j = some x → x ≤ d := by
  have hmem : ∀ j, j ∈ List.range' (e - 2) 5 ↔ e - 2 ≤ j ∧ j ≤ e + 2 := fun j => by
    rw [List.mem_range'_1]
    omega
  have hmax : ∀ x : Int, ((List.range' (e - 2) 5).filterMap p.rise).max? = some x ↔
      (∃ j, e - 2 ≤ j ∧ j ≤ e + 2 ∧ p.rise j = some x) ∧ ∀ j y, e - 2 ≤ j → j ≤ e + 2 → p.rise j = some y → y ≤ x := fun x => by
    rw [List.max?_eq_some_iff]
    simp only [List.mem_filterMap, hmem, and_assoc]
    exact and_congr_right fun _ => ⟨fun h j y h1 h2 hy => h y ⟨j, h1, h2, hy⟩, fun h y ⟨j, h1, h2, hy⟩ => h j y h1 h2 hy⟩
  unfold Problem.peak
  constructor
  · intro h
    split at h
    · next m hm =>
      split at h
      · next hrho =>
        cases h
        have hcast : ((m.toNat : Nat) : Int) = m := Int.toNat_of_nonneg (by omega)
        rw [hcast]
        exact ⟨by omega, (hmax m).1 hm⟩
      · cases h
    · cases h
  · rintro ⟨hrho, hall⟩
    rw [(hmax d).2 hall]
    exact (if_pos (by omega)).trans (by rw [Int.toNat_natCast])

/-! ### Runs of bins (R120) -/

/-- Bins lo..hi are a run of R that no further bin extends. -/
structure MaximalRun (R : Nat → Prop) (lo hi : Nat) : Prop where
  all : ∀ j, lo ≤ j → j ≤ hi → R j
  above : ¬ R (hi + 1)
  below : ∀ j, j + 1 = lo → ¬ R j

/-- Bin b is the lowest bin of the largest value among lo..hi. -/
structure IsTop (d : Nat → Int) (lo hi b : Nat) : Prop where
  low : lo ≤ b
  high : b ≤ hi
  before : ∀ j, lo ≤ j → j < b → d j < d b
  after : ∀ j, b < j → j ≤ hi → d j ≤ d b

/-- Bin b tops a maximal run of R. -/
def topsRun (R : Nat → Prop) (d : Nat → Int) (b : Nat) : Prop := ∃ lo hi, MaximalRun R lo hi ∧ IsTop d lo hi b

theorem topsItsRun_iff (p : Problem) (off : Int) (steps : List Event) (brk : Option Nat) (b : Nat) :
    topsItsRun p off steps brk b ↔ topsRun (reflectsAt p off steps brk) (p.departure off) b :=
  ⟨fun ⟨lo, hi, h1, h2, h3, h4, h5, h6, h7⟩ => ⟨lo, hi, ⟨h3, h4, h5⟩, ⟨h1, h2, h6, h7⟩⟩,
    fun ⟨lo, hi, ⟨h3, h4, h5⟩, ⟨h1, h2, h6, h7⟩⟩ => ⟨lo, hi, h1, h2, h3, h4, h5, h6, h7⟩⟩

section
variable {R : Nat → Prop} {d : Nat → Int}

theorem topsRun_holds {b : Nat} (h : topsRun R d b) : R b := by
  obtain ⟨lo, hi, hrun, htop⟩ := h
  exact hrun.all b htop.low htop.high

/-- Two maximal runs that share a bin are one. -/
theorem MaximalRun.unique {lo hi lo' hi' b : Nat} (h : MaximalRun R lo hi) (h' : MaximalRun R lo' hi')
    (hb : lo ≤ b ∧ b ≤ hi) (hb' : lo' ≤ b ∧ b ≤ hi') : lo = lo' ∧ hi = hi' := by
  have low : ∀ {a z a' z' : Nat}, MaximalRun R a z → MaximalRun R a' z' → a' ≤ b → b ≤ z → a ≤ b → b ≤ z' → ¬ a < a' :=
    fun {a z a' z'} hr hr' ha' hz _ _ hlt => hr'.below (a' - 1) (by omega) (hr.all (a' - 1) (by omega) (by omega))
  have high : ∀ {a z a' z' : Nat}, MaximalRun R a z → MaximalRun R a' z' → a ≤ b → b ≤ z' → ¬ z' < z :=
    fun {a z a' z'} hr hr' ha hz' hlt => hr'.above (hr.all (z' + 1) (by omega) (by omega))
  have h1 := low h h' hb'.1 hb.2 hb.1 hb'.2
  have h2 := low h' h hb.1 hb'.2 hb'.1 hb.2
  have h3 := high h h' hb.1 hb'.2
  have h4 := high h' h hb'.1 hb.2
  omega

theorem IsTop.unique {lo hi b c : Nat} (h : IsTop d lo hi b) (h' : IsTop d lo hi c) : b = c := by
  rcases Nat.lt_trichotomy b c with hlt | heq | hlt
  · have h1 := h'.before b h.low hlt
    have h2 := h.after c hlt h'.high
    omega
  · exact heq
  · have h1 := h.before c h'.low hlt
    have h2 := h'.after b hlt h.high
    omega

theorem topsRun_eq_of_mem {lo hi b c : Nat} (hrun : MaximalRun R lo hi) (htop : IsTop d lo hi c) (hb : topsRun R d b)
    (hlow : lo ≤ b) (hhigh : b ≤ hi) : b = c := by
  obtain ⟨lo', hi', hrun', htop'⟩ := hb
  obtain ⟨rfl, rfl⟩ := hrun'.unique hrun ⟨htop'.low, htop'.high⟩ ⟨hlow, hhigh⟩
  exact htop'.unique htop

/-- A run in progress at bins lo..s-1, of which c is the top. -/
structure InProgress (R : Nat → Prop) (d : Nat → Int) (lo s c : Nat) : Prop where
  start : lo < s
  all : ∀ j, lo ≤ j → j < s → R j
  below : ∀ j, j + 1 = lo → ¬ R j
  top : IsTop d lo (s - 1) c

theorem InProgress.ends {lo s c : Nat} (h : InProgress R d lo s c) (hs : ¬ R s) : MaximalRun R lo (s - 1) := by
  have hstart := h.start
  exact ⟨fun j h1 h2 => h.all j h1 (by omega), by rwa [Nat.sub_add_cancel (by omega)], h.below⟩

theorem InProgress.goesOn {lo s c : Nat} (h : InProgress R d lo s c) (hs : R s) :
    InProgress R d lo (s + 1) (if d c < d s then s else c) := by
  obtain ⟨hstart, hall, hbelow, hlow, hhigh, hbefore, hafter⟩ := h
  refine ⟨by omega, fun j h1 h2 => ?_, hbelow, ?_⟩
  · rcases Nat.lt_or_ge j s with hj | hj
    · exact hall j h1 hj
    · rwa [show j = s by omega]
  · rw [Nat.add_sub_cancel]
    split
    · next hlt =>
      refine ⟨by omega, Nat.le_refl s, fun j h1 h2 => ?_, fun j h1 h2 => by omega⟩
      rcases Nat.lt_trichotomy j c with hj | hj | hj
      · exact (hbefore j h1 hj).trans hlt
      · rwa [hj]
      · exact (hafter j hj (by omega)).trans_lt hlt
    · next hge =>
      refine ⟨hlow, by omega, hbefore, fun j h1 h2 => ?_⟩
      rcases Nat.lt_or_ge j s with hj | hj
      · exact hafter j h1 (by omega)
      · rw [show j = s by omega]
        omega

theorem InProgress.begins {s : Nat} (hs : R s) (hbelow : ∀ j, j + 1 = s → ¬ R j) : InProgress R d s (s + 1) s where
  start := Nat.lt_succ_self s
  all := fun j h1 h2 => by rwa [show j = s by omega]
  below := hbelow
  top := ⟨Nat.le_refl s, by omega, fun j h1 h2 => by omega, fun j h1 h2 => by omega⟩

end

/-- The bins that the scan names are the tops of the maximal runs (R120). -/
theorem Problem.mem_runs (p : Problem) (off : Int) {R : Nat → Prop} {q : Nat → Bool} (n : Nat) :
    ∀ {s : Nat}, (∀ j, s ≤ j → j < s + n → (q j = true ↔ R j)) → (∀ j, s + n ≤ j → ¬ R j) →
      (∀ b, (∀ j, j + 1 = s → ¬ R j) →
        (b ∈ p.runs off q none (List.range' s n) ↔ topsRun R (p.departure off) b ∧ s ≤ b)) ∧
      ∀ b lo c, InProgress R (p.departure off) lo s c →
        (b ∈ p.runs off q (some c) (List.range' s n) ↔ topsRun R (p.departure off) b ∧ lo ≤ b) := by
  induction n with
  | zero =>
    intro s _ hend
    refine ⟨fun b _ => ⟨nofun, fun ⟨hb, hs⟩ => absurd (topsRun_holds hb) (hend b hs)⟩, fun b lo c hc => ?_⟩
    have hrun := hc.ends (hend s (Nat.le_refl s))
    rw [List.range'_zero, Problem.runs, Option.toList, List.mem_singleton]
    constructor
    · rintro rfl
      exact ⟨⟨lo, s - 1, hrun, hc.top⟩, hc.top.low⟩
    · rintro ⟨hb, hlow⟩
      have hlt : b < s := Nat.lt_of_not_le fun hle => hend b hle (topsRun_holds hb)
      exact topsRun_eq_of_mem hrun hc.top hb hlow (by omega)
  | succ n ih =>
    intro s hq hend
    obtain ⟨ihNone, ihSome⟩ := ih (s := s + 1) (fun j h1 h2 => hq j (by omega) (by omega)) (fun j hj => hend j (by omega))
    have hqs := hq s (Nat.le_refl s) (by omega)
    rw [List.range'_succ]
    refine ⟨fun b hbelow => ?_, fun b lo c hc => ?_⟩
    · by_cases hs : R s
      · rw [Problem.runs, if_pos (hqs.2 hs)]
        exact ihSome b s s (.begins hs hbelow)
      · rw [Problem.runs, if_neg (mt hqs.1 hs), Option.toList, List.nil_append,
          ihNone b fun j hj => by rwa [show j = s by omega]]
        refine and_congr_right fun hb => ⟨fun h => by omega, fun h => ?_⟩
        rcases Nat.eq_or_lt_of_le h with rfl | hlt
        · exact absurd (topsRun_holds hb) hs
        · exact hlt
    · by_cases hs : R s
      · rw [Problem.runs, if_pos (hqs.2 hs)]
        exact ihSome b lo _ (hc.goesOn hs)
      · have hrun := hc.ends hs
        have hstart := hc.start
        rw [Problem.runs, if_neg (mt hqs.1 hs), Option.toList, List.mem_append, List.mem_singleton,
          ihNone b fun j hj => by rwa [show j = s by omega]]
        constructor
        · rintro (rfl | ⟨hb, hle⟩)
          · exact ⟨⟨lo, s - 1, hrun, hc.top⟩, hc.top.low⟩
          · exact ⟨hb, by omega⟩
        · rintro ⟨hb, hlow⟩
          rcases Nat.lt_trichotomy b s with hlt | rfl | hgt
          · exact .inl (topsRun_eq_of_mem hrun hc.top hb hlow (by omega))
          · exact absurd (topsRun_holds hb) hs
          · exact .inr ⟨hb, hgt⟩

/-- The bins that the scan names rise strictly. -/
theorem Problem.runs_ascending (p : Problem) (off : Int) (q : Nat → Bool) (n : Nat) :
    ∀ (s : Nat) (cur : Option Nat), (∀ c, cur = some c → c < s) →
      (p.runs off q cur (List.range' s n)).Pairwise (· < ·) ∧
      ∀ b ∈ p.runs off q cur (List.range' s n), (∀ c, cur = some c → c ≤ b) ∧ (cur = none → s ≤ b) := by
  induction n with
  | zero =>
    intro s cur _
    cases cur with
    | none => exact ⟨.nil, nofun⟩
    | some c =>
      refine ⟨List.pairwise_singleton .., fun b hb => ⟨fun x hx => ?_, nofun⟩⟩
      cases hx
      exact Nat.le_of_eq (List.mem_singleton.1 hb).symm
  | succ n ih =>
    intro s cur hcur
    rw [List.range'_succ, Problem.runs.eq_def]
    dsimp only
    by_cases hq : q s = true
    · rw [if_pos hq]
      cases cur with
      | none =>
        obtain ⟨hasc, hge⟩ := ih (s + 1) (some s) fun c hc => by cases hc; omega
        exact ⟨hasc, fun b hb => ⟨nofun, fun _ => (hge b hb).1 s rfl⟩⟩
      | some c =>
        have hc := hcur c rfl
        obtain ⟨hasc, hge⟩ := ih (s + 1) (some (if p.departure off c < p.departure off s then s else c))
          fun x hx => by cases hx; split <;> omega
        refine ⟨hasc, fun b hb => ⟨fun x hx => ?_, nofun⟩⟩
        cases hx
        have hle := (hge b hb).1 _ rfl
        split at hle <;> omega
    · rw [if_neg hq]
      obtain ⟨hasc, hge⟩ := ih (s + 1) none nofun
      have hrest : ∀ b ∈ p.runs off q none (List.range' (s + 1) n), s + 1 ≤ b := fun b hb => (hge b hb).2 rfl
      cases cur with
      | none => exact ⟨hasc, fun b hb => ⟨nofun, fun _ => by have := hrest b hb; omega⟩⟩
      | some c =>
        have hc := hcur c rfl
        refine ⟨List.pairwise_cons.2 ⟨fun b hb => by have := hrest b hb; omega, hasc⟩, fun b hb => ⟨fun x hx => ?_, nofun⟩⟩
        cases hx
        rcases List.mem_cons.1 hb with rfl | hb
        · exact Nat.le_refl _
        · have := hrest b hb
          omega

/-! ### Reflections (R119, R120) -/

theorem Problem.reflectsAt_iff (p : Problem) (off : Int) (steps : List Event) (brk : Option Nat) (j : Nat) :
    reflectsAt p off steps brk j ↔ p.first ≤ j ∧ j ≤ p.last ∧ p.isReflective off brk steps j = true := by
  have hdep : (p.level j : Int) - p.ref j - off = p.departure off j := rfl
  rw [reflectsAt, hdep]
  cases brk <;> simp [Problem.isReflective, and_assoc]

theorem Problem.mem_reflections (p : Problem) (off : Int) (steps : List Event) (brk : Option Nat) (e : Event) :
    e ∈ p.reflections off brk steps ↔ ∃ b, topsItsRun p off steps brk b ∧
      e = p.event .reflection b none (some (p.departure off b).toNat) := by
  have hruns := (p.mem_runs off (R := reflectsAt p off steps brk) (q := p.isReflective off brk steps)
    (p.last + 1 - p.first) (s := p.first)
    (fun j h1 h2 => ⟨fun h => (p.reflectsAt_iff ..).2 ⟨h1, by omega, h⟩, fun h => ((p.reflectsAt_iff ..).1 h).2.2⟩)
    (fun j hj h => by have := h.1; have := h.2.1; omega)).1
  have hmem : ∀ b, b ∈ p.runs off (p.isReflective off brk steps) none (List.range' p.first (p.last + 1 - p.first)) ↔
      topsItsRun p off steps brk b := fun b => by
    rw [hruns b fun j hj h => by have := h.1; omega, topsItsRun_iff]
    exact and_iff_left_of_imp fun h => (topsRun_holds h).1
  rw [Problem.reflections, List.mem_map]
  exact exists_congr fun b => and_congr (hmem b) eq_comm

theorem Problem.reflections_ascending (p : Problem) (off : Int) (steps : List Event) (brk : Option Nat) :
    (p.reflections off brk steps).Pairwise fun a b => a.bin < b.bin :=
  List.pairwise_map.2 (p.runs_ascending off _ _ p.first none nofun).1

/-! ### What an event holds (R118, R121) -/

/-- Distance, step and peak of an event are as R118 and R121 say. -/
structure EventSound (p : Problem) (e : Event) : Prop where
  distance : e.distance = distanceOf p.spacing e.bin
  noStep : e.kind = .brk ∨ e.kind = .reflection → e.step = none
  bend : e.kind = .bend → ∃ x, e.step = some x ∧ x ≤ -(p.theta : Int)
  gain : e.kind = .gain → ∃ x, e.step = some x ∧ (p.theta : Int) ≤ x
  reflection : e.kind = .reflection → e.peak ≠ none
  peak : ∀ x, e.peak = some x → p.rho ≤ x

theorem Problem.peak_ge (p : Problem) {e d : Nat} (h : p.peak e = some d) : p.rho ≤ d := by
  unfold Problem.peak at h
  split at h
  · split at h
    · cases h
      omega
    · cases h
  · cases h

theorem eventSound_reflection (p : Problem) {off : Int} {steps : List Event} {brk : Option Nat} {b : Nat}
    (h : reflectsAt p off steps brk b) :
    EventSound p (p.event .reflection b none (some (p.departure off b).toNat)) where
  distance := rfl
  noStep := fun _ => rfl
  bend := nofun
  gain := nofun
  reflection := fun _ => nofun
  peak := fun x hx => by
    obtain ⟨_, _, _, hrho, _⟩ := h
    cases hx
    have hdep : (p.rho : Int) ≤ p.departure off b := hrho
    omega

/-- What the loss and gain scan records: its events rise from the scan point, within ten bins of the end, and a BREAK is
the last of them. -/
structure StepsSound (p : Problem) (point : Nat) (evs : List Event) (brk : Option Nat) : Prop where
  range : ∀ e ∈ evs, point ≤ e.bin ∧ e.bin + 10 ≤ p.last
  ascending : evs.Pairwise fun a b => a.bin < b.bin
  kinds : ∀ e ∈ evs, e.kind ≠ .reflection
  breaks : ∀ e ∈ evs, e.kind = .brk → brk = some e.bin
  last : ∀ x, brk = some x → ∀ e ∈ evs, e.bin ≤ x
  exists_break : ∀ x, brk = some x → point ≤ x
  sound : ∀ e ∈ evs, EventSound p e

theorem StepsSound.cons {p : Problem} {point next : Nat} {e : Event} {evs : List Event} {brk : Option Nat}
    (h : StepsSound p next evs brk) (hpoint : point ≤ e.bin) (hlast : e.bin + 10 ≤ p.last) (hnext : e.bin < next)
    (hkind : e.kind = .gain ∨ e.kind = .bend) (he : EventSound p e) : StepsSound p point (e :: evs) brk where
  range := List.forall_mem_cons.2 ⟨⟨hpoint, hlast⟩, fun x hx => by have := h.range x hx; omega⟩
  ascending := List.pairwise_cons.2 ⟨fun x hx => by have := h.range x hx; omega, h.ascending⟩
  kinds := List.forall_mem_cons.2 ⟨by rcases hkind with hk | hk <;> rw [hk] <;> nofun, h.kinds⟩
  breaks := List.forall_mem_cons.2 ⟨by rcases hkind with hk | hk <;> rw [hk] <;> nofun, h.breaks⟩
  last := fun x hx => List.forall_mem_cons.2 ⟨by have := h.exists_break x hx; omega, h.last x hx⟩
  exists_break := fun x hx => by have := h.exists_break x hx; omega
  sound := List.forall_mem_cons.2 ⟨he, h.sound⟩

theorem stepsSound_of_scanned {p : Problem} {off b : Int} {point : Nat} {evs : List Event} {brk : Option Nat}
    (h : Scanned p off b point evs brk) : StepsSound p point evs brk := by
  have hpoint : ∀ {b : Int} {point e m : Nat}, firstDeparture p off b point e → m = min (e + 12) (p.last - 7) →
      point ≤ e ∧ e + 10 ≤ p.last ∧ e < m + 1 := fun {b point e m} hfirst hm => by
    have h1 := hfirst.1
    have h2 := hfirst.2.1.1
    omega
  induction h with
  | gain b point e m evs brk hfirst hm hstep _ ih =>
    obtain ⟨h1, h2, h3⟩ := hpoint hfirst hm
    exact ih.cons h1 h2 h3 (.inl rfl)
      ⟨rfl, (fun h => by rcases h with h | h <;> cases h), nofun, fun _ => ⟨_, rfl, hstep⟩, nofun, fun x hx => p.peak_ge hx⟩
  | bend b point e m evs brk hfirst hm hstep _ _ ih =>
    obtain ⟨h1, h2, h3⟩ := hpoint hfirst hm
    exact ih.cons h1 h2 h3 (.inr rfl)
      ⟨rfl, (fun h => by rcases h with h | h <;> cases h), fun _ => ⟨_, rfl, hstep⟩, nofun, nofun, fun x hx => p.peak_ge hx⟩
  | dark b point e m hfirst hm _ _ =>
    obtain ⟨h1, h2, _⟩ := hpoint hfirst hm
    refine ⟨?_, List.pairwise_singleton .., ?_, ?_, fun x hx => ?_, fun x hx => ?_, ?_⟩
    · simpa [Problem.event] using ⟨h1, h2⟩
    · simp [Problem.event]
    · simp [Problem.event]
    · cases hx
      simp [Problem.event]
    · cases hx
      exact h1
    · intro x hx
      rw [List.mem_singleton.1 hx]
      exact ⟨rfl, fun _ => rfl, nofun, nofun, nofun, fun y hy => p.peak_ge hy⟩
  | passed b point e m evs brk hfirst hm _ _ _ ih =>
    obtain ⟨h1, h2, h3⟩ := hpoint hfirst hm
    exact ⟨fun x hx => by have := ih.range x hx; omega, ih.ascending, ih.kinds, ih.breaks, ih.last,
      fun x hx => by have := ih.exists_break x hx; omega, ih.sound⟩
  -- the case `Scanned.over`, whose name is a keyword of Lean's: no departure, no event
  | _ => exact ⟨nofun, .nil, nofun, nofun, nofun, nofun, nofun⟩

/-! ### The merged list (R122) -/

theorem insertEvent_perm (e : Event) (l : List Event) : (insertEvent e l).Perm (e :: l) := by
  induction l with
  | nil => exact .refl _
  | cons x l ih =>
    rw [insertEvent]
    split
    · exact .refl _
    · exact (ih.cons x).trans (.swap e x l)

theorem mergeEvents_perm (a b : List Event) : (mergeEvents a b).Perm (a ++ b) := by
  induction b with
  | nil => simp [mergeEvents]
  | cons e b ih => exact (insertEvent_perm e _).trans ((ih.cons e).trans List.perm_middle.symm)

theorem insertEvent_ascending {e : Event} {l : List Event} (h : l.Pairwise fun a b => a.bin < b.bin)
    (hne : ∀ x ∈ l, x.bin ≠ e.bin) : (insertEvent e l).Pairwise fun a b => a.bin < b.bin := by
  induction l with
  | nil => exact List.pairwise_singleton ..
  | cons x l ih =>
    obtain ⟨hx, hl⟩ := List.pairwise_cons.1 h
    have hxe := hne x (List.mem_cons_self ..)
    rw [insertEvent]
    split
    · next hle =>
      refine List.pairwise_cons.2 ⟨fun y hy => ?_, h⟩
      rcases List.mem_cons.1 hy with rfl | hy
      · omega
      · have := hx y hy
        omega
    · next hgt =>
      refine List.pairwise_cons.2 ⟨fun y hy => ?_, ih hl fun y hy => hne y (List.mem_cons_of_mem _ hy)⟩
      rcases List.mem_cons.1 ((insertEvent_perm e l).mem_iff.1 hy) with rfl | hy
      · omega
      · exact hx y hy

theorem mergeEvents_ascending {a b : List Event} (ha : a.Pairwise fun x y => x.bin < y.bin)
    (hb : b.Pairwise fun x y => x.bin < y.bin) (hne : ∀ x ∈ a, ∀ y ∈ b, x.bin ≠ y.bin) :
    (mergeEvents a b).Pairwise fun x y => x.bin < y.bin := by
  induction b with
  | nil => exact ha
  | cons e b ih =>
    obtain ⟨he, hb⟩ := List.pairwise_cons.1 hb
    refine insertEvent_ascending (ih hb fun x hx y hy => hne x hx y (List.mem_cons_of_mem _ hy)) fun x hx => ?_
    rcases List.mem_append.1 ((mergeEvents_perm a b).mem_iff.1 hx) with hx | hx
    · exact hne x hx e (List.mem_cons_self ..)
    · exact Nat.ne_of_gt (he x hx)

/-- All events of a comparison in their list: bins rise, and nothing lies beyond a BREAK. -/
structure ListSound (p : Problem) (all : List Event) : Prop where
  ascending : all.Pairwise fun a b => a.bin < b.bin
  range : ∀ e ∈ all, p.first ≤ e.bin ∧ e.bin ≤ p.last
  last : ∀ e ∈ all, e.kind = .brk → ∀ x ∈ all, x.bin ≤ e.bin
  sound : ∀ e ∈ all, EventSound p e

theorem Problem.listSound_allEvents (p : Problem) : ListSound p p.allEvents := by
  have hscanned := p.scan_scanned p.offset (p.last + 1) 0 p.first (by omega)
  have hall : p.allEvents = mergeEvents (p.scan p.offset (p.last + 1) 0 p.first).1
    (p.reflections p.offset (p.scan p.offset (p.last + 1) 0 p.first).2 (p.scan p.offset (p.last + 1) 0 p.first).1) := rfl
  generalize (p.scan p.offset (p.last + 1) 0 p.first).1 = steps at *
  generalize (p.scan p.offset (p.last + 1) 0 p.first).2 = brk at *
  have hsteps := stepsSound_of_scanned hscanned
  have hrefl : ∀ e ∈ p.reflections p.offset brk steps, reflectsAt p p.offset steps brk e.bin ∧ e.kind = .reflection ∧
      EventSound p e := fun e he => by
    obtain ⟨b, hb, rfl⟩ := (p.mem_reflections ..).1 he
    have hat := topsRun_holds ((topsItsRun_iff ..).1 hb)
    exact ⟨hat, rfl, eventSound_reflection p hat⟩
  have hmem : ∀ e, e ∈ p.allEvents ↔ e ∈ steps ∨ e ∈ p.reflections p.offset brk steps := fun e => by
    rw [hall, (mergeEvents_perm ..).mem_iff, List.mem_append]
  refine ⟨?_, fun e he => ?_, fun e he hk x hx => ?_, fun e he => ?_⟩
  · rw [hall]
    refine mergeEvents_ascending hsteps.ascending (p.reflections_ascending ..) fun x hx y hy => ?_
    obtain ⟨⟨_, _, _, _, _, hapart⟩, _⟩ := hrefl y hy
    have := hapart x hx
    omega
  · rcases (hmem e).1 he with h | h
    · have := hsteps.range e h
      omega
    · obtain ⟨⟨hfirst, hlast, _⟩, _⟩ := hrefl e h
      exact ⟨hfirst, hlast⟩
  · have hstep : e ∈ steps := ((hmem e).1 he).resolve_right fun h => by
      rw [(hrefl e h).2.1] at hk
      cases hk
    have hbrk := hsteps.breaks e hstep hk
    rcases (hmem x).1 hx with h | h
    · exact hsteps.last _ hbrk x h
    · obtain ⟨⟨_, _, hbefore, _⟩, _⟩ := hrefl x h
      exact Nat.le_of_lt (hbefore _ hbrk)
  · rcases (hmem e).1 he with h | h
    · exact hsteps.sound e h
    · exact (hrefl e h).2.2

/-! ### The limited list and the outcome (R122, R123) -/

theorem eq_of_bin_eq {all : List Event} (h : all.Pairwise fun a b => a.bin < b.bin) {x y : Event} (hx : x ∈ all) (hy : y ∈ all)
    (hbin : x.bin = y.bin) : x = y := by
  have hnodup : (all.map (·.bin)).Nodup := List.pairwise_map.2 (h.imp Nat.ne_of_lt)
  exact List.inj_on_of_nodup_map hnodup hx hy hbin

theorem isBreak_iff (e : Event) : e.isBreak = true ↔ e.kind = .brk := decide_eq_true_iff

theorem limitEvents_short {all : List Event} (h : all.length ≤ 8) : limitEvents all = (all, false) := if_pos h

theorem limitEvents_break {p : Problem} {all : List Event} (hs : ListSound p all) (h : 8 < all.length) {e : Event} (he : e ∈ all)
    (hk : e.kind = .brk) : limitEvents all = (all.take 7 ++ [e], true) := by
  refine (if_neg (show ¬ all.length ≤ Config.maxEvents from Nat.not_le.2 h)).trans ?_
  split
  · next b hb =>
    have hbrk : b.kind = .brk := (isBreak_iff b).1 (List.find?_some hb)
    have hmem := List.mem_of_find?_eq_some hb
    rw [eq_of_bin_eq hs.ascending hmem he (Nat.le_antisymm (hs.last e he hk b hmem) (hs.last b hmem hbrk e he))]
    rfl
  · next hb => exact absurd ((isBreak_iff e).2 hk) (List.find?_eq_none.1 hb e he)

theorem limitEvents_noBreak {all : List Event} (h : 8 < all.length) (hno : ∀ e ∈ all, e.kind ≠ .brk) :
    limitEvents all = (all.take 8, true) := by
  refine (if_neg (show ¬ all.length ≤ Config.maxEvents from Nat.not_le.2 h)).trans ?_
  rw [List.find?_eq_none.2 fun e he hb => hno e he ((isBreak_iff e).1 hb)]
  rfl

/-- The list a comparison keeps: at most eight of the events found, in their order, a BREAK last. -/
structure KeptSound (p : Problem) (evs : List Event) (more : Bool) : Prop where
  length : evs.length ≤ 8
  ascending : evs.Pairwise fun a b => a.bin < b.bin
  last : ∀ e ∈ evs, e.kind = .brk → ∀ x ∈ evs, x.bin ≤ e.bin
  range : ∀ e ∈ evs, p.first ≤ e.bin ∧ e.bin ≤ p.last
  sound : ∀ e ∈ evs, EventSound p e
  full : more = true → evs.length = 8

theorem keptSound_of_subset {p : Problem} {all evs : List Event} {more : Bool} (h : ListSound p all) (hsub : ∀ e ∈ evs, e ∈ all)
    (hlen : evs.length ≤ 8) (hasc : evs.Pairwise fun a b => a.bin < b.bin) (hfull : more = true → evs.length = 8) :
    KeptSound p evs more where
  length := hlen
  ascending := hasc
  last := fun e he hk x hx => h.last e (hsub e he) hk x (hsub x hx)
  range := fun e he => h.range e (hsub e he)
  sound := fun e he => h.sound e (hsub e he)
  full := hfull

/-- The first seven events of more than eight lie below a BREAK. -/
theorem take_below_break {p : Problem} {all : List Event} (h : ListSound p all) (hlen : 8 < all.length) {e : Event} (he : e ∈ all)
    (hk : e.kind = .brk) {x : Event} (hx : x ∈ all.take 7) : x.bin < e.bin := by
  have hasc := h.ascending
  rw [← List.take_append_drop 7 all, List.pairwise_append] at hasc
  obtain ⟨y, hy⟩ := List.exists_mem_of_length_pos (l := all.drop 7) (by rw [List.length_drop]; omega)
  have hlt := hasc.2.2 x hx y hy
  have hle := h.last e he hk y (List.mem_of_mem_drop hy)
  omega

theorem keptSound_limitEvents {p : Problem} {all : List Event} (h : ListSound p all) :
    KeptSound p (limitEvents all).1 (limitEvents all).2 := by
  rcases Nat.lt_or_ge 8 all.length with hlen | hlen
  · by_cases hbrk : ∃ e ∈ all, e.kind = .brk
    · obtain ⟨e, he, hk⟩ := hbrk
      rw [limitEvents_break h hlen he hk]
      refine keptSound_of_subset h (fun x hx => ?_) (by simp) ?_ fun _ => by simp; omega
      · rcases List.mem_append.1 hx with hx | hx
        · exact List.mem_of_mem_take hx
        · rwa [List.mem_singleton.1 hx]
      · refine List.pairwise_append.2 ⟨h.ascending.sublist (List.take_sublist ..), List.pairwise_singleton .., fun x hx y hy => ?_⟩
        rw [List.mem_singleton.1 hy]
        exact take_below_break h hlen he hk hx
    · rw [limitEvents_noBreak hlen fun e he hk => hbrk ⟨e, he, hk⟩]
      exact keptSound_of_subset h (fun x hx => List.mem_of_mem_take hx) (by simp)
        (h.ascending.sublist (List.take_sublist ..)) fun _ => by simp; omega
  · rw [limitEvents_short hlen]
    exact keptSound_of_subset h (fun _ hx => hx) hlen h.ascending nofun

theorem KeptSound.nothing_after {p : Problem} {evs : List Event} {more : Bool} (h : KeptSound p evs more) {pre post : List Event}
    {e : Event} (hevs : evs = pre ++ e :: post) (hk : e.kind = .brk) : post = [] := by
  refine List.eq_nil_iff_forall_not_mem.2 fun x hx => ?_
  have hasc := h.ascending
  rw [hevs, List.pairwise_append, List.pairwise_cons] at hasc
  have hlt := hasc.2.1.1 x hx
  have hle := h.last e (by simp [hevs]) hk x (by simp [hevs, hx])
  omega

theorem outcomeOf_broken (evs : List Event) : outcomeOf evs = .broken ↔ ∃ e ∈ evs, e.kind = .brk := by
  have hany : evs.any Event.isBreak = true ↔ ∃ e ∈ evs, e.kind = .brk := by
    simp only [List.any_eq_true, isBreak_iff]
  rw [← hany, outcomeOf]
  split
  · next h => simp [h]
  · next h => split <;> simp [h]

theorem outcomeOf_clean (evs : List Event) : outcomeOf evs = .clean ↔ evs = [] := by
  cases evs with
  | nil => exact ⟨fun _ => rfl, fun _ => rfl⟩
  | cons e evs =>
    rw [outcomeOf]
    split <;> simp

theorem outcomeOf_mem (evs : List Event) : outcomeOf evs ∈ [SweepOutcome.clean, .changed, .broken] := by
  unfold outcomeOf
  split
  · simp
  · split <;> simp

end Sys2Proof.Machine

namespace Sys2Proof

open Machine

/-- Settles O33: the scans as relations, and the list that the limit leaves of what they find. -/
theorem eventListsAreBounded : Obligations.EventListsAreBounded := by
  refine ⟨fun p off => ⟨fun i => p.smooth_bounds off i, fun e d he => ?_⟩, fun p tod windowed quick _ => ?_⟩
  · rw [p.peak_eq_some he]
    have hrise : ∀ j x, p.rise j = some x ↔ p.level j ≠ 2047 ∧ p.level (j - 1) ≠ 2047 ∧
        (p.level j : Int) - p.level (j - 1) = x := p.rise_eq_some
    refine and_congr_right fun _ => and_congr (exists_congr fun j => and_congr_right fun _ => and_congr_right fun _ => ?_)
      ⟨fun h j h1 h2 h3 h4 => ?_, fun h j x h1 h2 hx => ?_⟩
    · rw [hrise]
      refine and_congr_right fun _ => and_congr_right fun _ => ?_
      omega
    · have := h j _ h1 h2 ((hrise j _).2 ⟨h3, h4, rfl⟩)
      omega
    · obtain ⟨h3, h4, hx⟩ := (hrise j x).1 hx
      have := h j h1 h2 h3 h4
      omega
  · have hlist := p.listSound_allEvents
    have hkept := keptSound_limitEvents hlist
    have hevs : (p.result tod windowed quick).events = (limitEvents p.allEvents).1 := rfl
    have hmore : (p.result tod windowed quick).more = (limitEvents p.allEvents).2 := rfl
    have houtcome : (p.result tod windowed quick).outcome = outcomeOf (limitEvents p.allEvents).1 := rfl
    refine ⟨⟨_, _, p.allEvents, _, p.scan_scanned p.offset (p.last + 1) 0 p.first (by omega), p.mem_reflections p.offset _ _,
      p.reflections_ascending .., mergeEvents_perm .., hlist.ascending, fun hlen => ?_, fun hlen => ?_⟩, hkept.length,
      hkept.ascending, fun pre e post h hk => hkept.nothing_after h hk, fun e he => ?_, ?_, ?_, ?_, hkept.full, rfl, rfl,
      fun hanchor => ?_, fun hanchor => ?_⟩
    · rw [hevs, hmore, limitEvents_short hlen]
      exact ⟨rfl, rfl⟩
    · rw [hevs, hmore]
      refine ⟨?_, fun e he hk => ?_, fun hno => ?_⟩
      · by_cases hbrk : ∃ e ∈ p.allEvents, e.kind = .brk
        · obtain ⟨e, he, hk⟩ := hbrk
          rw [limitEvents_break hlist hlen he hk]
        · rw [limitEvents_noBreak hlen fun e he hk => hbrk ⟨e, he, hk⟩]
      · rw [limitEvents_break hlist hlen he hk]
      · rw [limitEvents_noBreak hlen hno]
    · obtain ⟨hfirst, hlast⟩ := hkept.range e he
      obtain ⟨hdist, hstep, hbend, hgain, hrefl, hpeak⟩ := hkept.sound e he
      exact ⟨hfirst, hlast, hdist, hstep, hbend, hgain, hrefl, hpeak⟩
    · rw [hevs, houtcome]
      exact outcomeOf_broken _
    · rw [hevs, houtcome]
      exact outcomeOf_clean _
    · rw [houtcome]
      exact outcomeOf_mem _
    · have hnot : p.unanchored = false := decide_eq_false (by omega)
      refine ⟨hnot, ?_⟩
      show p.offset = _
      rw [Problem.offset, hnot]
      rfl
    · have hun : p.unanchored = true := decide_eq_true hanchor
      refine ⟨hun, ?_⟩
      show p.offset = _
      rw [Problem.offset, hun]
      rfl

end Sys2Proof

/-! ## DOZE_ENTRY (R35, R18 to R20) -/

namespace Sys2Proof.Machine

-- The kernel checks the lemmas one after another: many at once take a thread each.
set_option Elab.async false

/-! ### Notices posted one after another -/

/-- What is posted depends on the FIFO and the time of day only. -/
theorem postAll_notices {s t : State} (hn : t.notices = s.notices) (ht : t.clock.tod = s.clock.tod) (bs : List NoticeBody) :
    (postAll t bs).notices = (postAll s bs).notices := by
  induction bs generalizing s t with
  | nil => exact hn
  | cons b bs ih =>
    refine ih ?_ (by simpa using ht)
    rw [post_same (s := s) hn ht]

/-! ### The spans whose pages are not retained (R18) -/

/-- The span's fingerprint is PRESENT with a page outside the retained banks. -/
def losesPages (s : State) (e : Nat × SpanRecord) : Bool :=
  decide (fpOf s e.1 = .present) && !s.cfg.block.retainsSpan e.2

theorem losesPages_iff (s : State) (e : Nat × SpanRecord) : losesPages s e = true ↔
    fpOf s e.1 = .present ∧ ∃ p ∈ e.2.pages, s.cfg.block.retention.getLsbD (p / 16) = false := by
  have hbanks : s.cfg.block.retainsSpan e.2 = false ↔ ∃ p ∈ e.2.pages, s.cfg.block.retention.getLsbD (p / 16) = false := by
    simp only [StationBlock.retainsSpan, List.all_eq_false, Bool.not_eq_true]
    rfl
  rw [← hbanks]
  simp [losesPages]

/-- The span's fingerprint is lost, before its notice. -/
def pagesLost (s : State) (n : Nat) : State := setFp (clearDir s n) n .absent

theorem fpOf_pagesLost (s : State) (n m : Nat) : fpOf (pagesLost s n) m = if m = n then .absent else fpOf s m :=
  fpOf_setFp (clearDir s n) n m .absent

theorem loseSpan_eq (s : State) (e : Nat × SpanRecord) : loseSpan s e =
    if losesPages s e then
      removeHeld { pagesLost s e.1 with notices := (post s (.fpLost e.1 .retention)).notices } e.1
    else s := by
  have hcond : losesPages s e = true ↔ fpOf s e.1 = .present ∧ s.cfg.block.retainsSpan e.2 = false := by simp [losesPages]
  rw [loseSpan]
  simp only [hcond]
  rw [post_same (s := s) (t := setFp (clearDir s e.1) e.1 .absent) rfl rfl]
  rfl

theorem loseSpan_rest (s : State) (e : Nat × SpanRecord) : loseSpan s e = { s with
    comp := { s.comp with results := (loseSpan s e).comp.results }
    store := { s.store with dir := (loseSpan s e).store.dir, fp := (loseSpan s e).store.fp }
    notices := (loseSpan s e).notices } := by
  rw [loseSpan_eq]
  split <;> rfl

theorem loseSpan_notices (s : State) (e : Nat × SpanRecord) : (loseSpan s e).notices =
    if losesPages s e then (post s (.fpLost e.1 .retention)).notices else s.notices := by
  rw [loseSpan_eq]
  split <;> rfl

theorem loseSpan_other (s : State) {e : Nat × SpanRecord} {n : Nat} (h : losesPages s e = true → e.1 ≠ n) :
    fpOf (loseSpan s e) n = fpOf s n ∧ (loseSpan s e).comp.results.find n = s.comp.results.find n := by
  rw [loseSpan_eq]
  split
  · next hl =>
    have hn : n ≠ e.1 := fun heq => h hl heq.symm
    refine ⟨(fpOf_pagesLost s e.1 n).trans (if_neg hn), ?_⟩
    exact (Table.find_adjust (fun r : ResultRecord => { r with held := none }) s.comp.results e.1 n).trans (if_neg hn)
  · exact ⟨rfl, rfl⟩

theorem loseSpan_own {s : State} {e : Nat × SpanRecord} (h : losesPages s e = true) : fpOf (loseSpan s e) e.1 = .absent ∧
    (∀ d ∈ (loseSpan s e).store.dir, d.2.owner ≠ e.1) ∧
    ∀ x, (loseSpan s e).comp.results.find e.1 = some x → x.held = none := by
  rw [loseSpan_eq, if_pos h]
  refine ⟨(fpOf_pagesLost s e.1 e.1).trans (if_pos rfl), fun d hd => of_decide_eq_true (List.mem_filter.1 hd).2, fun x hx => ?_⟩
  rw [removeHeld, adjustResult, Table.find_adjust, if_pos rfl] at hx
  obtain ⟨y, _, rfl⟩ := Option.map_eq_some_iff.1 hx
  rfl

theorem loseSpan_dir (s : State) (e : Nat × SpanRecord) : ∀ d ∈ (loseSpan s e).store.dir, d ∈ s.store.dir := by
  rw [loseSpan_eq]
  split
  · exact fun d hd => (List.mem_filter.1 hd).1
  · exact fun _ hd => hd

/-- What the retention losses of some spans leave, one after another. -/
structure PagesLost (l : List (Nat × SpanRecord)) (s t : State) : Prop where
  rest : t = { s with
    comp := { s.comp with results := t.comp.results }, store := { s.store with dir := t.store.dir, fp := t.store.fp }
    notices := t.notices }
  notices : t.notices = (postAll s ((l.filter (losesPages s)).map fun e => .fpLost e.1 .retention)).notices
  dir : ∀ d ∈ t.store.dir, d ∈ s.store.dir
  kept : ∀ n, (∀ e ∈ l, losesPages s e = true → e.1 ≠ n) →
    fpOf t n = fpOf s n ∧ t.comp.results.find n = s.comp.results.find n
  lost : ∀ e ∈ l, losesPages s e = true → fpOf t e.1 = .absent ∧ (∀ d ∈ t.store.dir, d.2.owner ≠ e.1) ∧
    ∀ x, t.comp.results.find e.1 = some x → x.held = none

theorem pagesLost_foldl (l : List (Nat × SpanRecord)) : ∀ (s : State), (l.map (·.1)).Nodup → PagesLost l s (l.foldl loseSpan s) := by
  induction l with
  | nil => exact fun s _ => ⟨rfl, rfl, fun _ hd => hd, fun _ _ => ⟨rfl, rfl⟩, nofun⟩
  | cons e l ih =>
    intro s hnd
    obtain ⟨he, hl⟩ := List.nodup_cons.1 (by simpa using hnd : (e.1 :: l.map (·.1)).Nodup)
    have hne : ∀ x ∈ l, e.1 ≠ x.1 := fun x hx heq => he (List.mem_map.2 ⟨x, hx, heq.symm⟩)
    have hfp : ∀ x ∈ l, losesPages (loseSpan s e) x = losesPages s x := fun x hx => by
      obtain ⟨hsame, _⟩ := loseSpan_other s (e := e) (n := x.1) fun _ => hne x hx
      have hcfg : (loseSpan s e).cfg = s.cfg := loseSpan_cfg s e
      rw [losesPages, losesPages, hsame, hcfg]
    obtain ⟨hrest, hnotices, hdir, hkept, hlost⟩ := ih (loseSpan s e) hl
    rw [List.foldl_cons]
    generalize l.foldl loseSpan (loseSpan s e) = t at *
    have hstep := loseSpan_rest s e
    refine ⟨?_, ?_, fun d hd => loseSpan_dir s e d (hdir d hd), fun n hn => ?_, fun x hx hlose => ?_⟩
    · rw [hrest]
      rw [hstep]
    · rw [hnotices, List.filter_congr hfp]
      have htod : (loseSpan s e).clock.tod = s.clock.tod := by rw [hstep]
      have hpost := loseSpan_notices s e
      by_cases hlose : losesPages s e = true
      · rw [if_pos hlose] at hpost
        rw [List.filter_cons_of_pos hlose, List.map_cons]
        exact postAll_notices hpost (htod.trans (by simp)) _
      · rw [if_neg hlose] at hpost
        rw [List.filter_cons_of_neg hlose]
        exact postAll_notices hpost htod _
    · obtain ⟨h1, h2⟩ := hkept n fun x hx hlose => hn x (List.mem_cons_of_mem _ hx) (hfp x hx ▸ hlose)
      obtain ⟨h3, h4⟩ := loseSpan_other s (e := e) (n := n) (hn e (List.mem_cons_self ..))
      exact ⟨h1.trans h3, h2.trans h4⟩
    · rcases List.mem_cons.1 hx with rfl | hx
      · obtain ⟨h1, h2, h3⟩ := loseSpan_own hlose
        obtain ⟨h4, h5⟩ := hkept x.1 fun y hy _ => (hne y hy).symm
        exact ⟨h4.trans h1, fun d hd => h2 d (hdir d hd), fun y hy => h3 y (h5.symm.trans hy)⟩
      · exact hlost x hx ((hfp x hx).trans hlose)

/-! ### The open load (R19) and the cells (R20) -/

/-- An open load has a page outside the retained banks. -/
def cancelsLoad (s : State) (l : Load) (r : SpanRecord) : Prop :=
  s.store.load = some l ∧ enabledRec s l.span = some r ∧ ∃ p ∈ r.pages, s.cfg.block.retention.getLsbD (p / 16) = false

theorem loseLoad_cancels {s : State} {l : Load} {r : SpanRecord} (h : cancelsLoad s l r) : loseLoad s = { s with
    store := { (setFp s l.span .absent).store with load := none }
    notices := (post s (.fpLost l.span .loadCancelled)).notices } := by
  obtain ⟨hl, hr, p, hp, hbank⟩ := h
  have hret : s.cfg.block.retainsSpan r = false := by
    rw [← Bool.not_eq_true, retainsSpan_iff]
    intro hall
    rw [hall p hp] at hbank
    cases hbank
  rw [loseLoad, hl]
  dsimp only
  rw [hr]
  dsimp only
  rw [hret, post_same (s := s) (t := setFp s l.span .absent) rfl rfl]
  rfl

theorem loseLoad_keeps {s : State} (h : ∀ l r, ¬ cancelsLoad s l r) : loseLoad s = s := by
  unfold loseLoad
  split
  · next l hl =>
    split
    · next r hr =>
      refine if_pos ((retainsSpan_iff _ r).2 fun p hp => ?_)
      rw [← Bool.not_eq_false]
      exact fun hbank => h l r ⟨hl, hr, p, hp, hbank⟩
    · rfl
  · rfl

theorem losePages_find (s : State) (a : Nat) : (losePages s).store.mem.find a =
    if s.cfg.block.retention.getLsbD (a / 65536) = true then s.store.mem.find a else none := by
  have hbank : a / 4096 / 16 = a / 65536 := Nat.div_div_eq_div_mul a 4096 16
  rw [← hbank]
  exact Table.find_filter_key (fun k => s.cfg.block.retains (bankOf (k / Config.pageLevels))) s.store.mem a

/-! ### The end of the row: asleep, or awake again (R36) -/

/-- The end of a row that left the clock unit dozing, with its PRESENCE offered. -/
theorem settle_asleep {s : State} (hdoze : s.clock.state = .dozing) (hrun : s.port.station = .running) :
    (settle (offerPresence s)) = { s with
      clock := (settle (offerPresence s)).clock, line := (settle (offerPresence s)).line
      peers := { s.peers with presence := some (s.clock.now + 1000) } } ∧
    (pendingCandidate s = false → (settle (offerPresence s)).clock = { s.clock with dozeExpiry := none }) ∧
    (pendingCandidate s = true → (settle (offerPresence s)).clock =
      { s.clock with state := .locking, lockExpiry := some (s.clock.now + 2), dozeExpiry := none }) ∧
    (s.line.state ≠ .passive → (settle (offerPresence s)).hasFrame 0 (.presence
      (if (settle (offerPresence s)).clock.state = .dozing then .dozing else .running) s.cfg.sheathGroups)) := by
  have hiso : s.port.station ≠ .isolated := by rw [hrun]; nofun
  have hcand : pendingCandidate (offerPresence s) = pendingCandidate s := by
    rw [offerPresence_eq s hiso]
    rfl
  have hdoze' : (offerPresence s).clock.state = .dozing := by simpa using hdoze
  cases hp : pendingCandidate s with
  | false =>
    have heq : settle (offerPresence s) = stopDoze (offerPresence s) := by
      rw [settle_quiet _ (.inr (hcand.trans hp)), refreshDoze_not_awake _ (by rw [hdoze']; nofun)]
    have hclock : (stopDoze (offerPresence s)).clock = { s.clock with dozeExpiry := none } := by simp [stopDoze]
    rw [heq]
    refine ⟨?_, fun _ => hclock, nofun, fun hl => ?_⟩
    · have h := offerPresence_eq s hiso
      unfold stopDoze
      rw [h]
    · rw [hclock]
      have h := offerPresence_hasFrame s hiso hl
      rw [presenceState, if_pos hdoze] at h
      rw [if_pos (show ({ s.clock with dozeExpiry := none } : Clock).state = .dozing from hdoze)]
      exact h
  | true =>
    have hiso' : (woken (offerPresence s)).port.station ≠ .isolated := by simpa [woken] using hiso
    have heq : settle (offerPresence s) = stopDoze (offerPresence (woken (offerPresence s))) :=
      settle_wakes _ hdoze' (hcand.trans hp)
    have hclock : (stopDoze (offerPresence (woken (offerPresence s)))).clock =
        { s.clock with state := .locking, lockExpiry := some (s.clock.now + 2), dozeExpiry := none } := by
      simp [stopDoze, woken, after, Config.lockTime]
    rw [heq]
    refine ⟨?_, nofun, fun _ => hclock, fun hl => ?_⟩
    · have h := offerPresence_eq s hiso
      have h' := offerPresence_eq (woken (offerPresence s)) hiso'
      unfold stopDoze
      rw [h']
      simp only [woken]
      rw [h]
    · have hl' : (woken (offerPresence s)).line.state ≠ .passive := by
        rw [offerPresence_eq s hiso, offerPresence, if_neg hiso]
        exact offer_live _ _ _ hl
      have h := offerPresence_hasFrame (woken (offerPresence s)) hiso' hl'
      have hstate : presenceState (woken (offerPresence s)) = .running := by simp [presenceState, woken, hrun]
      rw [hstate, show (woken (offerPresence s)).cfg = s.cfg by simp [woken]] at h
      rw [hclock, if_neg nofun]
      exact h

/-! ### The losses of the whole row -/

/-- The station with the retention losses of its PRESENT spans taken. -/
def spansLost (s : State) : State := (enabledSpans s).foldl loseSpan (enterDoze s)

/-- The station with every loss of doze entry taken, before its PRESENCE. -/
def dozed (s : State) : State := losePages (loseLoad (spansLost s))

theorem pagesLost_spansLost {s : State} (hwf : Table.wf s.cfg.spans) : PagesLost (enabledSpans s) (enterDoze s) (spansLost s) :=
  pagesLost_foldl _ _ ((Table.wf_filter _ hwf).imp Nat.ne_of_lt)

theorem cancelsLoad_spansLost {s : State} (hwf : Table.wf s.cfg.spans) (l : Load) (r : SpanRecord) :
    cancelsLoad (spansLost s) l r ↔ cancelsLoad s l r := by
  have hrest := (pagesLost_spansLost hwf).rest
  unfold cancelsLoad enabledRec
  rw [hrest]
  rfl

theorem losePages_rest (s : State) : losePages s = { s with
    store := { s.store with mem := (losePages s).store.mem }, free := (losePages s).free } := rfl

theorem spansLost_notices {s : State} (hwf : Table.wf s.cfg.spans) {gone : List (Nat × SpanRecord)}
    (hgone : ((enabledSpans s).filter fun x => decide (fpOf s x.1 = .present ∧
      ∃ p ∈ x.2.pages, s.cfg.block.retention.getLsbD (p / 16) = false)) = gone) :
    (spansLost s).notices = (postAll s (gone.map fun x => .fpLost x.1 .retention)).notices := by
  have hsame : (enabledSpans s).filter (losesPages (enterDoze s)) = gone := by
    rw [← hgone]
    exact List.filter_congr fun x _ => by rw [Bool.eq_iff_iff, losesPages_iff, decide_eq_true_eq]; rfl
  rw [(pagesLost_spansLost hwf).notices, hsame]
  exact postAll_notices (s := s) (t := enterDoze s) rfl rfl _

/-- What the losses leave when no load is cancelled. -/
theorem dozed_keepsLoad {s : State} (hwf : Table.wf s.cfg.spans) (h : ∀ l r, ¬ cancelsLoad s l r) :
    (dozed s).store.load = s.store.load ∧ (∀ n, fpOf (dozed s) n = fpOf (spansLost s) n) ∧
    (dozed s).notices = (spansLost s).notices := by
  have hload : loseLoad (spansLost s) = spansLost s := loseLoad_keeps fun l r hc => h l r ((cancelsLoad_spansLost hwf l r).1 hc)
  have hrest := (pagesLost_spansLost hwf).rest
  rw [dozed, hload]
  refine ⟨?_, fun _ => rfl, rfl⟩
  show (spansLost s).store.load = _
  rw [hrest]
  rfl

/-- What the losses leave when a load is cancelled. -/
theorem dozed_cancelsLoad {s : State} (hwf : Table.wf s.cfg.spans) {l : Load} {r : SpanRecord} (h : cancelsLoad s l r) :
    (dozed s).store.load = none ∧
    (∀ n, fpOf (dozed s) n = if n = l.span then .absent else fpOf (spansLost s) n) ∧
    (dozed s).notices = (post (spansLost s) (.fpLost l.span .loadCancelled)).notices := by
  rw [dozed, loseLoad_cancels ((cancelsLoad_spansLost hwf l r).2 h)]
  exact ⟨rfl, fun n => fpOf_setFp (spansLost s) l.span n .absent, rfl⟩

theorem dozed_rest {s : State} (hwf : Table.wf s.cfg.spans) : dozed s = { enterDoze s with
    comp := (dozed s).comp, store := (dozed s).store, notices := (dozed s).notices, free := (dozed s).free } ∧
    (dozed s).comp = (spansLost s).comp ∧ (dozed s).store.dir = (spansLost s).store.dir ∧
    ∀ a, (dozed s).store.mem.find a =
      if s.cfg.block.retention.getLsbD (a / 65536) = true then s.store.mem.find a else none := by
  have hrest := (pagesLost_spansLost hwf).rest
  have hload : loseLoad (spansLost s) = { spansLost s with
      store := { (loseLoad (spansLost s)).store with dir := (spansLost s).store.dir, mem := (spansLost s).store.mem }
      notices := (loseLoad (spansLost s)).notices } := by
    by_cases h : ∃ l r, cancelsLoad (spansLost s) l r
    · obtain ⟨l, r, hc⟩ := h
      rw [loseLoad_cancels hc]
      rfl
    · rw [loseLoad_keeps fun l r hc => h ⟨l, r, hc⟩]
  have hcfg : (loseLoad (spansLost s)).cfg = s.cfg := by rw [hload, hrest]; rfl
  have hmem : (loseLoad (spansLost s)).store.mem = s.store.mem := by rw [hload, hrest]; rfl
  refine ⟨?_, ?_, ?_, fun a => ?_⟩
  · rw [dozed, losePages_rest, hload, hrest]
  · show (loseLoad (spansLost s)).comp = _
    rw [hload]
  · show (loseLoad (spansLost s)).store.dir = _
    rw [hload]
  · rw [dozed, losePages_find, hcfg, hmem]

theorem slotCandidate_dozed {s : State} (hwf : Table.wf s.cfg.spans) (n : Nat) (q : Request) :
    slotCandidate (dozed s) n q = true ↔ q.selected = false ∧ s.clock.mask ≤ q.level ∧ isEnabled s n = true ∧
      n ∉ s.sched.off ∧ fpOf (dozed s) n ≠ .writing ∧
      (lightGroupOf s n = 0 ∨ isHeld s (lightGroupOf s n) = false) ∧ s.engine.laserFault = none ∧
      s.port.station = .running ∧ ctxIs s.sched.save n = false := by
  obtain ⟨hrest, _⟩ := dozed_rest hwf
  have hclock : (dozed s).clock.mask = s.clock.mask := by rw [hrest]; rfl
  have hcfg : (dozed s).cfg = s.cfg := by rw [hrest]; rfl
  have hsched : (dozed s).sched = s.sched := by rw [hrest]; rfl
  have hclaims : (dozed s).claims = s.claims := by rw [hrest]; rfl
  have hfault : (dozed s).engine.laserFault = s.engine.laserFault := by rw [hrest]; rfl
  have hport : (dozed s).port = s.port := by rw [hrest]; rfl
  rw [slotCandidate_conditions]
  simp only [isEnabled, lightGroupOf, enabledRec, isHeld, hclock, hcfg, hsched, hclaims, hfault, hport]

/-- A request becomes a candidate by a cancelled load only (R36). -/
theorem candidate_of_dozed {s : State} (hwf : Table.wf s.cfg.spans) (hno : pendingCandidate s = false)
    {e : Nat × Request} (he : e ∈ s.sched.slots) (h : slotCandidate (dozed s) e.1 e.2 = true) :
    ∃ l r, cancelsLoad s l r ∧ e.1 = l.span := by
  have hlost := pagesLost_spansLost hwf
  have hcand := (slotCandidate_dozed hwf e.1 e.2).1 h
  have hwriting : fpOf s e.1 = .writing := by
    by_contra hfp
    have hs : slotCandidate s e.1 e.2 = true := by
      obtain ⟨h1, h2, h3, h4, _, h6⟩ := hcand
      exact (slotCandidate_conditions s e.1 e.2).2 ⟨h1, h2, h3, h4, hfp, h6⟩
    rw [(pendingCandidate_iff s).2 ⟨e, he, hs⟩] at hno
    cases hno
  have hkept : fpOf (spansLost s) e.1 = .writing := by
    refine (hlost.kept e.1 fun x _ hx hn => ?_).1.trans hwriting
    have hpresent := ((losesPages_iff (enterDoze s) x).1 hx).1
    rw [hn] at hpresent
    exact absurd (hwriting.symm.trans hpresent) nofun
  obtain ⟨_, _, _, _, hfp, _⟩ := hcand
  by_cases hc : ∃ l r, cancelsLoad s l r
  · obtain ⟨l, r, hc⟩ := hc
    refine ⟨l, r, hc, by_contra fun hne => hfp ?_⟩
    rw [(dozed_cancelsLoad hwf hc).2.1, if_neg hne, hkept]
  · rw [(dozed_keepsLoad hwf fun l r h => hc ⟨l, r, h⟩).2.1, hkept] at hfp
    exact absurd rfl hfp

theorem exec_dozeEntry_stays {s : State} (h : s.cfg.block.dozeEnable = false ∨ s.clock.state ≠ .awake ∨
    s.port.station ≠ .running ∨ s.clock.phase = .inside ∨ pendingCandidate s = true ∨ s.engine.state ≠ .idle ∨
    s.sched.save ≠ none ∨ (∃ h r, (h, CorrRecord.opened r) ∈ s.corr) ∨ s.clock.dozeExpiry = none) :
    exec .dozeEntry s = .next s := by
  refine congrArg Host.Outcome.next (if_neg fun hdue => ?_)
  obtain ⟨hexpiry, hcond⟩ := Bool.and_eq_true_iff.1 hdue
  obtain ⟨hen, hawake, hrun, hout, hcand, hidle, hsave, hround⟩ := (dozeConditions_iff s).1 hcond
  rcases h with h | h | h | h | h | h | h | ⟨k, r, h⟩ | h
  · rw [h] at hen; cases hen
  · exact h hawake
  · exact h hrun
  · rw [hout] at h; cases h
  · obtain ⟨e, he, hc⟩ := (pendingCandidate_iff s).1 h
    rw [hcand e he] at hc
    cases hc
  · exact h hidle
  · exact h hsave
  · exact hround _ h r rfl
  · rw [h] at hexpiry; cases hexpiry

theorem exec_dozeEntry {s : State} {e : Nat} (hmay : s.mayDoze) (he : s.clock.dozeExpiry = some e) (hle : e ≤ s.clock.now) :
    exec .dozeEntry s = .next (settle (offerPresence (dozed s))) := by
  refine congrArg Host.Outcome.next (if_pos ?_)
  rw [dozeDue, he, isDue_some, decide_eq_true hle, (dozeConditions_iff s).2 hmay]
  rfl

end Sys2Proof.Machine

namespace Sys2Proof

open Machine

/-- Settles O40: the losses of `dozed`, and `settle_asleep` for what a cancelled load may wake. -/
theorem dozeEntryTakesItsLosses : Obligations.DozeEntryTakesItsLosses := by
  intro s
  refine ⟨exec_dozeEntry_stays, fun e hen hawake hrun hout hno hidle hsave hround he hle hwf => ?_⟩
  have hmay : s.mayDoze := by
    refine ⟨hen, hawake, hrun, hout, fun x hx => ?_, hidle, hsave, fun x hx r hr => ?_⟩
    · rw [← Bool.not_eq_true]
      intro hc
      rw [(pendingCandidate_iff s).2 ⟨x, hx, hc⟩] at hno
      cases hno
    · exact hround x.1 r (hr ▸ hx)
  have hlost := pagesLost_spansLost hwf
  obtain ⟨hrest, hcomp, hdir, hmem⟩ := dozed_rest hwf
  have hclock : (dozed s).clock = { s.clock with state := .dozing, dozeExpiry := none } := by rw [hrest]; rfl
  have hport : (dozed s).port = s.port := by rw [hrest]; rfl
  obtain ⟨ht, hsleeps, hwakes, hframe⟩ := settle_asleep (s := dozed s) (by rw [hclock]) (by rw [hport]; exact hrun)
  have hstore : (settle (offerPresence (dozed s))).store = (dozed s).store := by simp
  have hnotices : (settle (offerPresence (dozed s))).notices = (dozed s).notices := by simp
  have hcomp' : (settle (offerPresence (dozed s))).comp = (spansLost s).comp := by simpa using hcomp
  have hrec : ∀ n r, (n, r) ∈ enabledSpans s ↔ enabledRec s n = some r := fun n r => mem_enabledSpans hwf
  have hcands : ∀ n q, (n, q) ∈ (dozed s).sched.slots ↔ (n, q) ∈ s.sched.slots := fun n q => by rw [hrest]; rfl
  have hnone : (∀ l r, s.store.load = some l → enabledRec s l.span = some r → ∀ p ∈ r.pages,
      s.cfg.block.retention.getLsbD (p / 16) = true) → ∀ l r, ¬ cancelsLoad s l r := fun hret l r ⟨h1, h2, p, hp, hbank⟩ => by
    rw [hret l r h1 h2 p hp] at hbank
    cases hbank
  refine ⟨_, exec_dozeEntry hmay he hle, ?_, ?_, ?_, ?_, fun hl => ?_, fun gone hgone => ⟨fun l r h1 h2 h3 => ?_, fun hret => ?_⟩,
    fun a ha => ?_, fun a ha => ?_, fun n r hmem' hpresent hbank => ?_, fun n r hmem' hret => ?_, fun l r h1 h2 h3 => ?_,
    fun hret => ?_, fun l r h1 h2 h3 => ⟨fun hbar => ?_, fun q hq hsel hmask hoff hfault hheld => ?_⟩, ?_⟩
  · rw [ht, hrest]
    rfl
  · rw [ht, hrest]
    rfl
  · rw [ht, hrest]
    rfl
  · rw [ht, hrest]
    rfl
  · have h := hframe (by rw [hrest]; exact hl)
    rw [show (dozed s).cfg = s.cfg by rw [hrest]; rfl] at h
    exact h
  · rw [hnotices, (dozed_cancelsLoad hwf ⟨h1, h2, h3⟩).2.2, postAll, List.foldl_append]
    exact postAll_notices (spansLost_notices hwf hgone) (by rw [hlost.rest]; simp [enterDoze]) [_]
  · rw [hnotices, (dozed_keepsLoad hwf (hnone hret)).2.2, spansLost_notices hwf hgone]
  · rw [hstore, hmem, if_pos ha]
  · rw [hstore, hmem, if_neg (by rw [ha]; nofun)]
  · have hloses : losesPages (enterDoze s) (n, r) = true := (losesPages_iff (enterDoze s) (n, r)).2 ⟨hpresent, hbank⟩
    obtain ⟨hfp, hown, hheld⟩ := hlost.lost (n, r) hmem' hloses
    refine ⟨?_, ?_, ?_⟩
    · rw [fpOf_of_store hstore]
      by_cases hc : ∃ l r, cancelsLoad s l r
      · obtain ⟨l, r', hc⟩ := hc
        rw [(dozed_cancelsLoad hwf hc).2.1, show fpOf (spansLost s) n = .absent from hfp, ite_self]
      · rw [(dozed_keepsLoad hwf fun l r h => hc ⟨l, r, h⟩).2.1, hfp]
    · rw [hstore, hdir]
      exact hown
    · rw [hcomp']
      exact hheld
  · have hall : ¬ ∃ p ∈ r.pages, s.cfg.block.retention.getLsbD (p / 16) = false := fun ⟨p, hp, hbank⟩ => by
      rw [hret p hp] at hbank
      cases hbank
    have hsame : ∀ r', enabledRec s n = some r' → r' = r := fun r' hr' =>
      Option.some.inj (hr'.symm.trans ((hrec n r).1 hmem'))
    obtain ⟨hfp, hresult⟩ := hlost.kept n fun x hx hloses hn => by
      have hxr : x.2 = r := hsame x.2 (hn ▸ (hrec x.1 x.2).1 hx)
      have hbank := ((losesPages_iff (enterDoze s) x).1 hloses).2
      rw [hxr] at hbank
      exact hall hbank
    refine ⟨?_, by rw [hcomp']; exact hresult⟩
    rw [fpOf_of_store hstore]
    by_cases hc : ∃ l r, cancelsLoad s l r
    · obtain ⟨l, r', hc⟩ := hc
      have hne : n ≠ l.span := fun hn => by
        obtain ⟨_, hr', hbank⟩ := hc
        rw [hsame r' (hn ▸ hr')] at hbank
        exact hall hbank
      rw [(dozed_cancelsLoad hwf hc).2.1, if_neg hne, hfp]
      rfl
    · rw [(dozed_keepsLoad hwf fun l r h => hc ⟨l, r, h⟩).2.1, hfp]
      rfl
  · obtain ⟨hload, hfp, _⟩ := dozed_cancelsLoad hwf ⟨h1, h2, h3⟩
    rw [hstore, fpOf_of_store hstore, hfp, if_pos rfl]
    exact ⟨hload, rfl⟩
  · rw [hsleeps, hclock]
    rw [← Bool.not_eq_true, pendingCandidate_iff]
    rintro ⟨x, hx, hc⟩
    obtain ⟨l, r, hcancel, _⟩ := candidate_of_dozed hwf hno ((hcands x.1 x.2).1 hx) hc
    exact hnone hret l r hcancel
  · rw [hsleeps, hclock]
    rw [← Bool.not_eq_true, pendingCandidate_iff]
    rintro ⟨x, hx, hc⟩
    have hx' := (hcands x.1 x.2).1 hx
    obtain ⟨l', r', ⟨hl', _⟩, hspan⟩ := candidate_of_dozed hwf hno hx' hc
    obtain rfl : l' = l := Option.some.inj (hl'.symm.trans h1)
    obtain ⟨hsel, hmask, _, hoff, _, hgroup, hfault, _⟩ := (slotCandidate_dozed hwf x.1 x.2).1 hc
    have hg : lightGroupOf s x.1 = r.lightGroup := by rw [hspan, lightGroupOf, h2]
    rw [hg] at hgroup
    rcases hbar x.2 (hspan ▸ hx') with h | h | h | h | ⟨h, h'⟩
    · rw [hsel] at h; cases h
    · omega
    · exact hoff (hspan ▸ h)
    · exact h hfault
    · rcases hgroup with hgroup | hgroup
      · exact h hgroup
      · rw [hgroup] at h'; cases h'
  · rw [hwakes, hclock]
    refine (pendingCandidate_iff _).2 ⟨(l.span, q), (hcands ..).2 hq, (slotCandidate_dozed hwf ..).2
      ⟨hsel, hmask, by rw [isEnabled, h2]; rfl, hoff, ?_, ?_, hfault, hrun, by rw [hsave]; rfl⟩⟩
    · rw [(dozed_cancelsLoad hwf ⟨h1, h2, h3⟩).2.1, if_pos rfl]
      nofun
    · rw [lightGroupOf, h2]
      exact hheld
  · rw [ht, hrest]
    rfl

end Sys2Proof

/-! ## CLAIM and HOLD heard (R161 to R164) -/

namespace Sys2Proof.Machine

-- The kernel checks the lemmas one after another: many at once take a thread each.
set_option Elab.async false

variable (s : State)

/-! ### Selection beside a group that is not FREE -/

/-- What is selected is a candidate: its light group is 0 or not HELD (R54, R55). -/
theorem select_candidate : select s = s ∨
    (∃ c, s.sched.save = some c ∧ select s = beginResume s c ∧
      (lightGroupOf s c.span = 0 ∨ isHeld s (lightGroupOf s c.span) = false)) ∨
    ∃ m l, select s = beginSlot s m l ∧ (lightGroupOf s m = 0 ∨ isHeld s (lightGroupOf s m) = false) := by
  have hslot : ∀ {m l}, bestSlot s = some (m, l) → lightGroupOf s m = 0 ∨ isHeld s (lightGroupOf s m) = false := by
    intro m l hb
    obtain ⟨r, _, hcand, _⟩ := bestSlot_mem hb
    obtain ⟨_, _, _, _, _, hgroup, _⟩ := (slotCandidate_conditions s m r).1 hcand
    exact hgroup
  have hsave : ∀ {c}, s.sched.save = some c → saveCandidate s = true →
      lightGroupOf s c.span = 0 ∨ isHeld s (lightGroupOf s c.span) = false := by
    intro c hc hcand
    obtain ⟨_, _, _, _, hgroup, _⟩ := (saveCandidate_conditions s hc).1 hcand
    exact hgroup
  unfold select
  split
  · exact .inl rfl
  · split
    · next c m l hc hcand hb =>
      split
      · exact .inr (.inl ⟨c, hc, rfl, hsave hc hcand⟩)
      · exact .inr (.inr ⟨m, l, rfl, hslot hb⟩)
    · next c hc hcand _ => exact .inr (.inl ⟨c, hc, rfl, hsave hc hcand⟩)
    · next m l hb _ => exact .inr (.inr ⟨m, l, rfl, hslot hb⟩)
    · exact .inl rfl

theorem isHeld_of_find {g : Nat} {x l e : Nat} {m : Option (StaleMark × Nat)} (h : s.claims.find g = some ⟨.held x l e, m⟩) :
    isHeld s g = true := by simp [isHeld, h]

/-- An ask changes a FREE entry alone (R158). -/
theorem askClaim_entry {g k l : Nat} (h : ∀ m, s.claims.find g ≠ some ⟨.free, m⟩) :
    (askClaim s k l).claims.find g = s.claims.find g := by
  unfold askClaim
  split
  · next m hm =>
    have hk : g ≠ k := fun hk => h m (hk ▸ hm)
    rw [offer_eq]
    exact find_setClaim_other (askRemove s (isReleaseOf k)) _ hk
  · rfl

/-- An ask for another group adds no CLAIM and no HOLD of g. -/
theorem askClaim_queue {g k : Nat} (hk : k ≠ g) (l : Nat) {x : TxFrame} (hx : x ∈ (askClaim s k l).line.queue)
    (hb : isClaimOf g x.body = true ∨ isHoldOf g x.body = true) : x ∈ s.line.queue := by
  unfold askClaim at hx
  split at hx
  · have hkept : ∀ {y : TxFrame}, y ∈ s.line.queue.filter (fun f => !isReleaseOf k f.body) → y ∈ s.line.queue :=
      fun hy => (List.mem_filter.1 hy).1
    unfold offer at hx
    split at hx
    · rcases mem_enterClaimFrame _ _ _ (startAttempt_queue _ _ hx) with rfl | hq
      · simp [isClaimOf, isHoldOf, hk] at hb
      · exact hkept hq
    · exact hkept hx
  · exact hx

/-- The selection leaves the entry of a HELD group (R158). -/
theorem settleSelect_entry {g x l e : Nat} {m : Option (StaleMark × Nat)} (h : s.claims.find g = some ⟨.held x l e, m⟩) :
    (settleSelect s).claims.find g = some ⟨.held x l e, m⟩ := by
  have hseek : ∀ (t : State) k y, t.claims = s.claims → (seekClaim t k y).claims.find g = some ⟨.held x l e, m⟩ := by
    intro t k y ht
    have hask : (askClaim t k y).claims.find g = some ⟨.held x l e, m⟩ := by
      rw [askClaim_entry t (by rw [ht, h]; nofun), ht, h]
    unfold seekClaim
    dsimp only
    split
    · simpa using hask
    · exact hask
  rw [settleSelect, (Reports.settle (select s)).claims]
  rcases select_cases s with hs | ⟨c, _, hs⟩ | ⟨n, y, hs⟩
  · rwa [hs]
  · rw [hs, beginResume_eq]
    split
    · simpa [resumeSelected] using h
    · exact hseek _ _ _ (by simp [resumeSelected])
  · rw [hs, beginSlot_eq]
    split
    · simpa [slotSelected, adjustSlot] using h
    · exact hseek _ _ _ (by simp [slotSelected, adjustSlot])

/-- Between s and t nothing was begun for span n, and no frame of group g that claims it was offered. -/
structure Passes (n g : Nat) (s t : State) : Prop where
  slot : t.sched.slots.find n = s.sched.slots.find n
  selection : t.sched.selection ≠ some (.slot n)
  queue : ∀ x ∈ t.line.queue, isClaimOf g x.body = true ∨ isHoldOf g x.body = true → x ∈ s.line.queue

namespace Passes

variable {s} {n g : Nat} {t : State}

theorem of_same {u : State} (h : Passes n g s t) (sched : u.sched = t.sched := by simp) (line : u.line = t.line := by simp) :
    Passes n g s u where
  slot := by rw [sched, h.slot]
  selection := by rw [sched]; exact h.selection
  queue := by rw [line]; exact h.queue

theorem reports {u : State} (h : Passes n g s t) (sched : u.sched = t.sched) (hr : Reports t u) : Passes n g s u where
  slot := by rw [sched, h.slot]
  selection := by rw [sched]; exact h.selection
  queue := fun x hx hb => h.queue x (hr.queue x hx (hb.elim isClaimFrame_of_isClaimOf isClaimFrame_of_isHoldOf)) hb

theorem giveBack (h : Passes n g s t) : Passes n g s (giveBack t) := by
  have hline : (Machine.giveBack t).line = t.line := by simp
  refine ⟨?_, ?_, by rw [hline]; exact h.queue⟩
  · rw [← h.slot]
    cases hs : t.sched.selection with
    | none => rw [Machine.giveBack, hs]
    | some x =>
      cases x with
      | slot m =>
        have hm : n ≠ m := fun hm => h.selection (hm ▸ hs)
        rw [giveBack_slot t hs]
        simp [Table.find_adjust, hm]
      | save => rw [Machine.giveBack, hs]
  · by_cases hs : t.sched.selection = none
    · rw [Machine.giveBack, hs]
      exact h.selection
    · rw [(giveBack_engine t hs).2]
      nofun

theorem seekClaim (h : Passes n g s t) {k : Nat} (hk : k ≠ g) (l : Nat) : Passes n g s (seekClaim t k l) := by
  have hsched : (askClaim t k l).sched = t.sched := by simp
  have hask : Passes n g s (askClaim t k l) := ⟨by rw [hsched]; exact h.slot, by rw [hsched]; exact h.selection,
    fun x hx hb => h.queue x (askClaim_queue t hk l hx hb) hb⟩
  unfold Machine.seekClaim
  dsimp only
  split
  · exact hask.giveBack
  · exact hask

/-- No selection takes the span of a HELD group, or asks for the group (R54). -/
theorem settleSelect (hgroup : lightGroupOf s n = g) (hshared : g ≠ 0) (hheld : isHeld s g = true)
    (hsel : s.sched.selection ≠ some (.slot n)) : Passes n g s (settleSelect s) := by
  have hstart : Passes n g s s := ⟨rfl, hsel, fun _ hx _ => hx⟩
  have hother : ∀ {m}, lightGroupOf s m = 0 ∨ isHeld s (lightGroupOf s m) = false → lightGroupOf s m ≠ g := by
    rintro m (h | h) rfl
    · exact hshared h
    · rw [hheld] at h; cases h
  have hselect : Passes n g s (select s) := by
    rcases select_candidate s with h | ⟨c, _, h, hfree⟩ | ⟨m, l, h, hfree⟩
    · rwa [h]
    · rw [h, beginResume_eq]
      split
      · refine ⟨by simp [resumeSelected], by simp [resumeSelected], ?_⟩
        simp [resumeSelected]
        exact fun _ hx _ => hx
      · refine seekClaim ⟨by simp [resumeSelected], by simp [resumeSelected], ?_⟩ (hother hfree) _
        simp [resumeSelected]
        exact fun _ hx _ => hx
    · have hm : n ≠ m := fun hm => hother hfree (hm ▸ hgroup)
      have hslot : (slotSelected s m).sched.slots.find n = s.sched.slots.find n := by
        simp [slotSelected, adjustSlot, Table.find_adjust, hm]
      have hpicked : Passes n g s (slotSelected s m) := by
        refine ⟨hslot, by simpa [slotSelected] using fun h => hm h.symm, ?_⟩
        simp [slotSelected, adjustSlot]
        exact fun _ hx _ => hx
      rw [h, beginSlot_eq]
      split
      · have htaken : Passes n g s (takeSlot (slotSelected s m) m) := by
          unfold takeSlot
          split
          · exact ⟨by rw [← hslot]; exact (Table.find_erase ..).trans (if_neg hm), nofun, hpicked.queue⟩
          · exact hpicked
        exact htaken.of_same (u := checkPrepared (takeSlot (slotSelected s m) m))
      · exact hpicked.seekClaim (hother hfree) _
  have hsched : (settle (select s)).sched = (select s).sched := by simp
  exact hselect.reports hsched (Reports.settle _)

end Passes

/-! ### The rows -/

theorem exec_claimDelivered {f : RxFrame} {rest : List RxFrame} {g l : Nat} (h : s.line.inbox = f :: rest)
    (hb : f.body = .claim g l) : exec .claimDelivered s = .next (takeClaim (deliver s f) g f.sender l f.arrival) := by
  show Host.Outcome.next _ = _
  rw [h]
  dsimp only
  rw [hb]

theorem exec_holdDelivered {f : RxFrame} {rest : List RxFrame} {g l : Nat} (h : s.line.inbox = f :: rest)
    (hb : f.body = .hold g l) : exec .holdDelivered s = .next (takeHold (deliver s f) g f.sender l f.arrival) := by
  show Host.Outcome.next _ = _
  rw [h]
  dsimp only
  rw [hb]

/-- A row in which a CLAIM or a HOLD for g is heard, and both have one effect. -/
theorem exec_conflict {i : Instr} {f : RxFrame} {rest : List RxFrame} {g l : Nat} {u : State} (h : s.line.inbox = f :: rest)
    (hi : (i = .claimDelivered ∧ f.body = .claim g l) ∨ (i = .holdDelivered ∧ f.body = .hold g l))
    (hclaim : i ≠ .holdDelivered → takeClaim (deliver s f) g f.sender l f.arrival = u)
    (hhold : takeHold (deliver s f) g f.sender l f.arrival = u) : exec i s = .next u := by
  rcases hi with ⟨rfl, hb⟩ | ⟨rfl, hb⟩
  · rw [exec_claimDelivered s h hb, hclaim nofun]
  · rw [exec_holdDelivered s h hb, hhold]

variable (g x l a : Nat)

theorem take_unknown (h : s.claims.find g = none) : takeClaim s g x l a = s ∧ takeHold s g x l a = s := by
  unfold takeClaim takeHold
  rw [h]
  exact ⟨rfl, rfl⟩

theorem take_other {e : ClaimEntry} (h : s.claims.find g = some e) (he : ownClaim e.state = false) :
    takeClaim s g x l a = settle (recordHolder s g x l a) ∧ takeHold s g x l a = settle (recordHolder s g x l a) := by
  obtain ⟨st, m⟩ := e
  unfold takeClaim takeHold
  rw [h]
  cases st with
  | free => exact ⟨rfl, rfl⟩
  | held => exact ⟨rfl, rfl⟩
  | claiming => cases he
  | opened => cases he

theorem take_claiming {y : Nat} {ho : Option Nat} {m : Option (StaleMark × Nat)} (h : s.claims.find g = some ⟨.claiming y ho, m⟩) :
    takeClaim s g x l a = (if peerWins s.line.id x l y then withdraw s g x l a else answerHold s g y) ∧
    takeHold s g x l a = withdraw s g x l a := by
  unfold takeClaim takeHold
  rw [h]
  exact ⟨rfl, rfl⟩

theorem take_opened {y nx : Nat} {m : Option (StaleMark × Nat)} (h : s.claims.find g = some ⟨.opened y nx, m⟩) :
    takeClaim s g x l a = answerHold s g y ∧
    takeHold s g x l a = if peerWins s.line.id x l y then loseConflict s g x l a else answerHold s g y := by
  unfold takeClaim takeHold
  rw [h]
  exact ⟨rfl, rfl⟩

/-- An answer leaves engine, requests and claims, and the HOLD waits (R162, R163). -/
theorem answerHold_facts (y : Nat) : (answerHold s g y).claims = s.claims ∧ (answerHold s g y).engine = s.engine ∧
    (answerHold s g y).sched = s.sched ∧
    (s.line.state ≠ .idle → s.line.state ≠ .passive → s.port.station ≠ .isolated →
      ∃ x ∈ (answerHold s g y).line.queue, y ≤ x.urgency ∧ (x.body = .hold g y ∨ isClaimOf g x.body = true)) := by
  refine ⟨by simp [answerHold], by simp [answerHold], by simp [answerHold], fun h1 h2 h3 => ?_⟩
  exact offer_hold s y g y h2 h3 h1

/-! ### A withdrawal (R162) -/

/-- The claims table after a withdrawal. -/
theorem withdrawClaim_claims {y : Nat} {ho : Option Nat} {m : Option (StaleMark × Nat)}
    (h : s.claims.find g = some ⟨.claiming y ho, m⟩) : (withdrawClaim s g x l a).claims =
      s.claims.adjust g fun _ => ⟨.held x l (lifetimeFrom s a), withdrawnMark s g m⟩ := by
  rw [withdrawClaim, h]
  simp [setStale, askRemove, setClaim, Table.adjust_adjust, Function.comp_def]

/-! ### A lost conflict (R164, R81) -/

/-- At the end of the last lit shot that shot counts, or not (R81). -/
structure LastShot (s v : State) (c d : Ctx) : Prop where
  ctx : v.engine.ctx = some d
  same : d = c ∨ d = { c with litDone := c.litDone + 1 }
  rest : v = { s with engine := { s.engine with ctx := some d }, acc := v.acc, free := v.free }
  active : v.acc.active = s.acc.active
  saved : v.acc.slot v.acc.saved = s.acc.slot s.acc.saved
  lit : v.acc.current.lit = s.acc.current.lit ∨ (v.acc.current.lit = s.acc.current.lit + 1 ∧ s.engine.state = .full ∧
    c.interleavedDue = false ∧ ∃ r, enabledRec s c.span = some r ∧ c.litDone + 1 = 2 ^ r.shots)

theorem endLastShot_lastShot {c : Ctx} (hc : s.engine.ctx = some c) : ∃ d, LastShot s (endLastShot s) c d := by
  have hnot : ∀ v : State, v = { s with free := v.free } → LastShot s v c c := by
    intro v hv
    have hengine : v.engine = { s.engine with ctx := some c } := by rw [hv, ← hc]
    have hacc : v.acc = s.acc := by rw [hv]
    refine ⟨by rw [hengine], .inl rfl, ?_, by rw [hacc], by rw [hacc], .inl (by rw [hacc])⟩
    rw [← hengine, hv]
  unfold endLastShot
  split
  · next d r hin =>
    obtain ⟨hd, hst, hr⟩ := sweepIn_eq_some.1 hin
    cases hc.symm.trans hd
    split
    · next hlast =>
      simp only [onLastShot, Bool.and_eq_true, Bool.not_eq_true', decide_eq_true_eq] at hlast
      obtain ⟨⟨_, hdue⟩, hcount⟩ := hlast
      by_cases hended : Config.lastShotEnded s.free = true
      · rw [if_pos hended]
        have heq := addLit_eq s ((List.range r.len).map (Config.endedSample s.free)) hc
        obtain ⟨hactive, hsaved, hcurrent⟩ := addLit_acc s ((List.range r.len).map (Config.endedSample s.free))
        generalize addLit s ((List.range r.len).map (Config.endedSample s.free)) = v at heq hactive hsaved hcurrent
        refine ⟨_, by rw [heq]; rfl, .inr rfl, by rw [heq]; rfl, hactive, hsaved, .inr ⟨?_, ?_, hdue, r, hr, hcount⟩⟩
        · exact congrArg AccSlot.lit hcurrent
        · simpa using hst
      · rw [if_neg hended]
        exact ⟨c, hnot (bumpFree s) rfl⟩
    · exact ⟨c, hnot s rfl⟩
  · exact ⟨c, hnot s rfl⟩

theorem find_loseOpen {st : ClaimState} {m : Option (StaleMark × Nat)} (h : s.claims.find g = some ⟨st, m⟩) :
    (loseOpen s g x l a).claims.find g = some ⟨.held x l (lifetimeFrom s a), m⟩ := find_setClaim_same s h

/-- The sweep that loses its OPEN claim ends DISTURBED (R164). -/
theorem loseConflict_facts {y nx : Nat} {m : Option (StaleMark × Nat)} {c : Ctx} {p : ResultRecord}
    (hf : s.claims.find g = some ⟨.opened y nx, m⟩) (hc : s.engine.ctx = some c) (hsel : s.sched.selection = none)
    (hg : lightGroupOf s c.span = g) (hst : s.engine.state ≠ .storing) (hp : s.comp.results.find c.span = some p) :
    ∃ u lit, loseConflict s g x l a = settleSelect u ∧
      u.claims.find g = some ⟨.held x l (lifetimeFrom s a), m⟩ ∧
      u.comp.results.find c.span = some { p with
        latest := some ⟨.disturbed, c.kind, c.level, s.clock.tod, lit, c.darkLevel⟩ } ∧
      (lit = s.acc.current.lit ∨ (lit = s.acc.current.lit + 1 ∧ s.engine.state = .full ∧
        c.interleavedDue = false ∧ ∃ r, enabledRec s c.span = some r ∧ c.litDone + 1 = 2 ^ r.shots)) ∧
      (s.notices.fifo.length < 32 → ⟨.sweepDone c.span .disturbed, s.clock.tod⟩ ∈ u.notices.fifo) ∧
      sweepEnded s u c ∧ u.store = s.store := by
  obtain ⟨d, hlast⟩ := endLastShot_lastShot s hc
  have hrest := hlast.rest
  have hdctx := hlast.ctx
  obtain ⟨hspan, hkind, hlevel, hlatch, hdark⟩ : d.span = c.span ∧ d.kind = c.kind ∧ d.level = c.level ∧
      d.answersLatch = c.answersLatch ∧ d.darkLevel = c.darkLevel := by
    rcases hlast.same with rfl | rfl <;> exact ⟨rfl, rfl, rfl, rfl, rfl⟩
  have hactive := hlast.active
  have hsaved := hlast.saved
  have hlit := hlast.lit
  have hv : endLastShot s = { s with
      engine := { s.engine with ctx := some d }, acc := (endLastShot s).acc, free := (endLastShot s).free } := hrest
  have hloses : loseConflict s g x l a = settleSelect (abort (loseOpen (endLastShot s) g x l a) .disturbed []) := rfl
  generalize endLastShot s = v at hv hloses hdctx hactive hsaved hlit
  have hlose : (loseOpen v g x l a).engine = v.engine ∧ (loseOpen v g x l a).sched = s.sched ∧
      (loseOpen v g x l a).store = s.store ∧ lightGroupOf (loseOpen v g x l a) c.span = g := by
    rw [hv]
    exact ⟨rfl, rfl, rfl, hg⟩
  obtain ⟨hengine, hsched, hstore, hgroup⟩ := hlose
  have hentry := find_loseOpen v g x l a (st := .opened y nx) (m := m) (by rw [hv]; exact hf)
  have hlife : lifetimeFrom v a = lifetimeFrom s a := by rw [hv]; rfl
  rw [hlife] at hentry
  have hbefore : BeforeEnd v (loseOpen v g x l a) d d := .of_same (by rw [hengine, hdctx]) rfl rfl rfl rfl rfl rfl
  have hnot : (loseOpen v g x l a).engine.state ≠ .storing := by
    rw [hengine, hv]
    exact hst
  have hctx : (loseOpen v g x l a).engine.ctx = some d := by rw [hengine, hdctx]
  obtain ⟨hended, hrecord, htold, _⟩ := abort_facts hbefore .disturbed []
  obtain ⟨_, _, hstored⟩ := abort_quiet _ hctx .disturbed []
  have hreports := Reports.abort (loseOpen v g x l a) hctx .disturbed []
  have hdrop : dropClaim (loseOpen v g x l a) d.span = loseOpen v g x l a := by
    rw [dropClaim, if_neg (by rw [isUntaken, hsched, hsel]; nofun), hspan, hgroup, releaseClaim, hentry]
  rw [hdrop] at hreports hstored
  rw [stopWrite_not_storing _ hnot, hstore] at hstored
  rw [writeCutNotice_not_storing _ _ hnot] at htold
  refine ⟨_, v.acc.current.lit, hloses, by rw [hreports.claims, hentry], ?_, hlit, fun hroom => ?_, ?_, hstored⟩
  · rw [← hspan, hrecord p (by rw [hv, hspan]; exact hp), hkind, hlevel, hdark, hv]
  · have hnotices : v.notices = s.notices ∧ v.clock = s.clock := by
      rw [hv]
      exact ⟨rfl, rfl⟩
    rw [hspan, hnotices.1, hnotices.2] at htold
    exact htold hroom
  · obtain ⟨hans, hstate, hnone, hnosel, hact, howner, hsave, hwork⟩ := hended
    refine ⟨alertAnswered_congr hans ?_ ?_ ?_ hspan.symm hlatch.symm rfl, hstate, hnone, hnosel, hact.trans hactive, howner,
      hsave.trans hsaved, hwork⟩
    all_goals rw [hv]

end Sys2Proof.Machine

namespace Sys2Proof

open Machine

/-- Settles O55: the tie rule as arithmetic, then the entry's state, and what was preparing or firing under the claim. -/
theorem claimsAreContestedByTheTieRule : Obligations.ClaimsAreContestedByTheTieRule := by
  refine ⟨fun own x lx ly => decide_eq_true_iff, fun own x lx ly hne => ?_, fun s f rest g l hin => ⟨fun i hi => ⟨fun hn => ?_,
    fun e he hown hocc => ?_, fun e he hown => ?_, fun y ho m n r hf hwins hsel hg hshared hr => ?_,
    fun y ho m c hf hwins hsel hc hg => ?_⟩, fun y ho m hb hf hlost => ?_, fun y nx m hb hf => ?_,
    fun y nx m hb hf => ⟨fun hlost => ?_, fun c x hwins hc hsel hg hst hx => ?_⟩⟩⟩
  · rw [Bool.eq_iff_iff, Bool.not_eq_true', ← Bool.not_eq_true, peerWins, peerWins, decide_eq_true_iff, decide_eq_true_iff]
    omega
  · obtain ⟨hclaim, hhold⟩ := take_unknown (deliver s f) g f.sender l f.arrival hn
    rw [exec_conflict s hin hi (fun _ => hclaim) hhold, deliver_eq s hin]
  · obtain ⟨hclaim, hhold⟩ := take_other (deliver s f) g f.sender l f.arrival he hown
    have hset : settle (recordHolder (deliver s f) g f.sender l f.arrival) =
        stopDoze (recordHolder (deliver s f) g f.sender l f.arrival) := settle_occupied _ hocc
    refine ⟨_, exec_conflict s hin hi (fun _ => hclaim) hhold, ?_⟩
    rw [hset]
    refine ⟨find_setClaim_same (deliver s f) he, fun h hh => find_setClaim_other (deliver s f) _ hh, ?_, ?_⟩
    · rw [deliver_eq s hin]
      rfl
    · rw [deliver_eq s hin]
      rfl
  · obtain ⟨hclaim, hhold⟩ := take_other (deliver s f) g f.sender l f.arrival he hown
    rw [exec_conflict s hin hi (fun _ => hclaim) hhold, deliver_eq s hin]
    rfl
  · obtain ⟨hclaim, hhold⟩ := take_claiming (deliver s f) g f.sender l f.arrival hf
    have hexec := exec_conflict s hin hi (fun hi => hclaim.trans (if_pos (hwins.resolve_left hi))) hhold
    have hclaims := withdrawClaim_claims (deliver s f) g f.sender l f.arrival hf
    obtain ⟨hentry, hqueue⟩ := withdrawClaim_claiming (deliver s f) g f.sender l f.arrival y ho m hf
    have hwsel : (withdrawClaim (deliver s f) g f.sender l f.arrival).sched = s.sched := by simp [deliver, popInbox]
    have hback := giveBack_slot (withdrawClaim (deliver s f) g f.sender l f.arrival) (n := n) (by rw [hwsel]; exact hsel)
    rw [withdraw] at hexec
    have hgroup : lightGroupOf (withdrawClaim (deliver s f) g f.sender l f.arrival) n = g := by
      simpa [lightGroupOf, enabledRec, deliver, popInbox] using hg
    have hcomp : (withdrawClaim (deliver s f) g f.sender l f.arrival).comp = s.comp := by simp [deliver, popInbox]
    have hnotices : (withdrawClaim (deliver s f) g f.sender l f.arrival).notices = s.notices := by simp [deliver, popInbox]
    generalize withdrawClaim (deliver s f) g f.sender l f.arrival = w at *
    rw [hback, hwsel] at hexec
    have hslot : (s.sched.slots.adjust n fun x => { x with selected := false }).find n = some { r with selected := false } := by
      rw [Table.find_adjust, if_pos rfl, hr]
      rfl
    have hpasses := Passes.settleSelect (s := { w with
        sched := { s.sched with
          slots := s.sched.slots.adjust n fun x => { x with selected := false }
          selection := none }
        engine := { w.engine with state := .idle, ctx := none } }) (n := n) (g := g) hgroup hshared (isHeld_of_find _ hentry) nofun
    refine ⟨_, withdrawnMark (deliver s f) g m, hexec, withdrawnMark_marked (deliver s f) g m, settleSelect_entry _ hentry,
      ⟨_, rfl, rfl, rfl, rfl, hclaims⟩, by rw [hpasses.slot]; exact hslot, hpasses.selection, fun x hx => ?_, ?_, ?_⟩
    · have hfree : ∀ {b : Bool}, (b = true → isClaimOf g x.body = true ∨ isHoldOf g x.body = true) → b = false := by
        intro b hb
        rw [← Bool.not_eq_true]
        intro ht
        obtain ⟨h1, h2⟩ := hqueue x (hpasses.queue x hx (hb ht))
        rcases hb ht with h | h
        · rw [h1] at h; cases h
        · rw [h2] at h; cases h
      exact ⟨hfree .inl, hfree .inr⟩
    · simpa using hcomp
    · simpa using hnotices
  · obtain ⟨hclaim, hhold⟩ := take_claiming (deliver s f) g f.sender l f.arrival hf
    have hexec := exec_conflict s hin hi (fun hi => hclaim.trans (if_pos (hwins.resolve_left hi))) hhold
    have hclaims := withdrawClaim_claims (deliver s f) g f.sender l f.arrival hf
    obtain ⟨hentry, hqueue⟩ := withdrawClaim_claiming (deliver s f) g f.sender l f.arrival y ho m hf
    have hreturned := resumeReturned_congr (s' := s) (giveBack_save (withdrawClaim (deliver s f) g f.sender l f.arrival) c
      (by simpa [deliver, popInbox] using hsel) (by simpa [deliver, popInbox] using hc)) (by simp [deliver, popInbox])
      (by simp [deliver, popInbox]) (by simp [deliver, popInbox]) rfl rfl rfl
    refine ⟨_, _, withdrawnMark (deliver s f) g m, hexec, rfl, hreturned, withdrawnMark_marked (deliver s f) g m, ?_, fun h hh => ?_,
      ?_, by simp [deliver, popInbox], by simp [deliver, popInbox]⟩
    · simp only [giveBack_keeps]
      exact hentry
    · simp only [giveBack_keeps]
      rw [hclaims, Table.find_adjust, if_neg hh]
      rfl
    · simpa using hqueue
  · have hexec := exec_claimDelivered s hin hb
    rw [(take_claiming (deliver s f) g f.sender l f.arrival hf).1, if_neg (by rw [show (deliver s f).line.id = s.line.id from rfl, hlost]; nofun)] at hexec
    exact ⟨_, hexec, answerHold_facts (deliver s f) g y⟩
  · have hexec := exec_claimDelivered s hin hb
    rw [(take_opened (deliver s f) g f.sender l f.arrival hf).1] at hexec
    exact ⟨_, hexec, answerHold_facts (deliver s f) g y⟩
  · have hexec := exec_holdDelivered s hin hb
    rw [(take_opened (deliver s f) g f.sender l f.arrival hf).2, if_neg (by rw [show (deliver s f).line.id = s.line.id from rfl, hlost]; nofun)] at hexec
    exact ⟨_, hexec, answerHold_facts (deliver s f) g y⟩
  · have hexec := exec_holdDelivered s hin hb
    rw [(take_opened (deliver s f) g f.sender l f.arrival hf).2, 
      if_pos (show peerWins (deliver s f).line.id f.sender l y = true from hwins)] at hexec
    obtain ⟨u, lit, heq, hentry, hrecord, hlit, htold, hended, hstore⟩ :=
      loseConflict_facts (deliver s f) g f.sender l f.arrival hf hc hsel hg hst hx
    rw [heq] at hexec
    refine ⟨_, lit, hexec, settleSelect_entry u hentry, by simpa using hrecord, hlit, fun hroom => by simpa using htold hroom,
      ⟨u, rfl, hended⟩, ?_, by simpa using hstore⟩
    exact alertAnswered_congr hended.1 rfl rfl rfl rfl rfl (by simp)

end Sys2Proof

/-! ## What claims, the selection and a sweep's end leave of a group's round -/

namespace Sys2Proof.Machine

-- The kernel checks the lemmas one after another: many at once take a thread each.
set_option Elab.async false

/-! ### Claim frames and waiting FINDINGs (R139) -/

/-- A claim frame that is offered leaves the waiting PRESENCE and FINDINGs where they are (R139). -/
theorem mem_queueOffer_claimFrame_keeps {q : List TxFrame} {f x : TxFrame} (hf : isClaimFrame f.body = true)
    (hx : isClaimFrame x.body = false) (h : x ∈ q) : x ∈ queueOffer q f := by
  have henter : ∀ l : List TxFrame, x ∈ l → x ∈ enterClaimFrame l f := fun l hl => by
    refine (mem_insertByAge _ _ _).2 (.inr ?_)
    split
    · exact makeRoom_keeps hx hl
    · exact hl
  have hno : ∀ {p : FrameBody → Bool}, (∀ b, p b = true → isClaimFrame b = true) → ¬ p x.body = true := fun hp hpx => by
    rw [hp _ hpx] at hx
    cases hx
  unfold queueOffer
  split
  · next hb => rw [hb] at hf; cases hf
  · next hb => rw [hb] at hf; cases hf
  · exact henter q h
  · next g l hb =>
    split
    · exact List.mem_map.2 ⟨x, h, if_neg (hno fun _ => isClaimFrame_of_isClaimOf)⟩
    · split
      · refine List.mem_map.2 ⟨x, h, if_neg fun hs => ?_⟩
        rw [hb] at hs
        cases hxb : x.body with
        | presence => rw [hxb] at hs; cases hs
        | finding => rw [hxb] at hs; cases hs
        | claim => rw [hxb] at hx; cases hx
        | hold => rw [hxb] at hx; cases hx
        | release => rw [hxb] at hx; cases hx
      · exact henter q h
  · refine henter _ (List.mem_filter.2 ⟨h, ?_⟩)
    simp only [Bool.and_eq_true, Bool.not_eq_true', ← Bool.not_eq_true]
    exact ⟨hno fun _ => isClaimFrame_of_isClaimOf, hno fun _ => isClaimFrame_of_isHoldOf⟩

namespace Elsewhere

variable {h : Nat} (s : State)

/-! ### Claims -/

theorem offerClaim {v : Nat} {b : FrameBody} (hb : isClaimFrame b = true) : Elsewhere h s (Machine.offer s v b) where
  __ := of_eq (h := h) (s := s) (t := { Machine.offer s v b with line := s.line })
  busy := fun hbusy => by
    rw [offer_line_busy s v b hbusy]
    split <;> exact hbusy
  live := offer_live s v b
  frames := fun hbusy u k d ⟨f, hf, hu, hfb⟩ => by
    refine ⟨f, ?_, hu, hfb⟩
    rw [offer_line_busy s v b hbusy]
    split
    · refine List.mem_append.2 ((List.mem_append.1 hf).imp_left fun hq => ?_)
      exact mem_queueOffer_claimFrame_keeps (f := ⟨s.line.nextAge, v, b⟩) hb (by rw [hfb]; rfl) hq
    · exact hf
  id := offer_id ..

theorem askRemove {p : FrameBody → Bool} (hp : ∀ k d, p (.finding h k d) = false) : Elsewhere h s (askRemove s p) where
  __ := of_eq (h := h) (s := s) (t := s) rfl rfl rfl rfl rfl rfl rfl rfl
  frames := fun _ u k d ⟨f, hf, hu, hfb⟩ => by
    refine ⟨f, List.mem_append.2 ((List.mem_append.1 hf).imp_left fun hq => List.mem_filter.2 ⟨hq, ?_⟩), hu, hfb⟩
    rw [hfb, hp]
    rfl

theorem setClaim (g : Nat) (st : ClaimState) : Elsewhere h s (setClaim s g st) := of_eq rfl rfl rfl rfl rfl rfl rfl rfl

theorem setStale (g : Nat) (m : Option (StaleMark × Nat)) : Elsewhere h s (setStale s g m) :=
  of_eq rfl rfl rfl rfl rfl rfl rfl rfl

theorem askClaim (g l : Nat) : Elsewhere h s (askClaim s g l) := by
  unfold Machine.askClaim
  split
  · exact ((askRemove s fun _ _ => rfl).trans (setClaim _ g _)).trans (offerClaim _ rfl)
  · exact refl s

theorem releaseClaim (g : Nat) : Elsewhere h s (releaseClaim s g) := by
  unfold Machine.releaseClaim
  split
  · exact (setClaim s g _).trans (offerClaim _ rfl)
  · exact refl s

theorem giveUpClaim (g : Nat) : Elsewhere h s (giveUpClaim s g) := by
  unfold Machine.giveUpClaim
  split
  · exact (setClaim s g _).trans (offerClaim _ rfl)
  · exact ((askRemove s fun _ _ => rfl).trans (setClaim _ g _)).trans (ite (fun _ => setStale _ g _) fun _ => refl _)
  · exact refl s

theorem dropClaim (n : Nat) : Elsewhere h s (dropClaim s n) := ite (fun _ => giveUpClaim s _) fun _ => releaseClaim s _

/-! ### Selection -/

theorem giveBack : Elsewhere h s (giveBack s) := of_eq

theorem seekClaim (g l : Nat) : Elsewhere h s (seekClaim s g l) :=
  (askClaim s g l).trans (ite (fun _ => giveBack _) fun _ => refl _)

theorem slotSelected (n : Nat) : Elsewhere h s (slotSelected s n) :=
  of_eq (by simp [Machine.slotSelected, adjustSlot]) (by simp [Machine.slotSelected, adjustSlot])
    (by simp [Machine.slotSelected, adjustSlot]) (by simp [Machine.slotSelected, adjustSlot])
    (by simp [Machine.slotSelected, adjustSlot]) (by simp [Machine.slotSelected, adjustSlot, Machine.stopDoze])
    (by simp [Machine.slotSelected, adjustSlot, Machine.stopDoze]) (by simp [Machine.slotSelected, adjustSlot])

theorem resumeSelected (c : Ctx) : Elsewhere h s (resumeSelected s c) :=
  of_eq (by simp [Machine.resumeSelected]) (by simp [Machine.resumeSelected]) (by simp [Machine.resumeSelected])
    (by simp [Machine.resumeSelected]) (by simp [Machine.resumeSelected]) (by simp [Machine.resumeSelected, Machine.stopDoze])
    (by simp [Machine.resumeSelected, Machine.stopDoze]) (by simp [Machine.resumeSelected])

theorem checkPrepared : Elsewhere h s (checkPrepared s) := of_eq

theorem takeSlot (n : Nat) : Elsewhere h s (takeSlot s n) := of_eq

theorem settleSelect : Elsewhere h s (settleSelect s) := by
  have hselect : Elsewhere h s (select s) := by
    rcases select_cases s with hs | ⟨c, _, hs⟩ | ⟨n, l, hs⟩
    · rw [hs]
      exact refl s
    · rw [hs, beginResume_eq]
      refine (resumeSelected s c).trans (ite (fun _ => ?_) fun _ => seekClaim _ _ _)
      refine Elsewhere.trans ?_ (checkPrepared _)
      exact of_eq rfl rfl rfl rfl rfl rfl rfl rfl
    · rw [hs, beginSlot_eq]
      exact (slotSelected s n).trans (ite (fun _ => (takeSlot _ n).trans (checkPrepared _)) fun _ => seekClaim _ _ _)
  exact hselect.trans (settle _)

/-! ### The end of a sweep -/

theorem clearEngine : Elsewhere h s (clearEngine s) := of_eq rfl rfl rfl rfl rfl rfl rfl rfl

theorem sweepOver (c : Ctx) : Elsewhere h s (sweepOver s c) := of_eq

theorem writeResult (c : Ctx) (o : SweepOutcome) (l : Nat) : Elsewhere h s (writeResult s c o l) :=
  of_eq rfl rfl rfl rfl rfl rfl rfl rfl

theorem stopReduction : Elsewhere h s (stopReduction s) := of_eq rfl rfl rfl rfl rfl rfl rfl rfl

theorem stopWrite (n : Nat) : Elsewhere h s (stopWrite s n) := of_eq

/-- A reply ends the command (R189). -/
theorem answer (k : ReplyKind) (body : List Byte) : Elsewhere h s (answer s k body) where
  __ := of_eq (h := h) (s := s) (t := s) rfl rfl rfl rfl rfl rfl rfl rfl

/-! ### Decisions that concern another group, or no outstanding span of this one -/

theorem decideSpan_passed {n : Nat} {t g : Option Nat} (found : Option (List Best))
    (hno : ∀ o tb, g = some h → t = some tb → s.corr.find h = some (.opened o) → o.outstanding.find n ≠ some tb) :
    Elsewhere h s (Machine.decideSpan s n t g found) := by
  by_cases hg : g = some h
  · subst hg
    cases t with
    | none => exact refl s
    | some tb =>
      unfold Machine.decideSpan
      dsimp only
      split
      · next o ho =>
        rw [if_neg (hno o tb rfl rfl ho)]
        exact refl s
      all_goals exact refl s
  · exact decideSpan s hg found

theorem raise {n : Nat} {r : Raised} (hr : r.round ≠ some h) : Elsewhere h s (raise s n r) := by
  have hmeet : ∀ old, Elsewhere h s (meet s n old r) := fun old => by
    unfold meet
    split
    · exact refl s
    · exact of_eq rfl rfl rfl rfl rfl rfl rfl rfl
    · exact of_eq rfl rfl rfl rfl rfl rfl rfl rfl
    · refine Elsewhere.trans ?_ (post _ _)
      exact of_eq rfl rfl rfl rfl rfl rfl rfl rfl
    · exact of_eq rfl rfl rfl rfl rfl rfl rfl rfl
  have hdrop : Elsewhere h s (dropOutstanding s n r.target r.round) := by
    unfold dropOutstanding
    split
    · next g t hg _ =>
      have hne : h ≠ g := fun he => hr (by rw [hg, he])
      exact { of_eq (h := h) (s := s) (t := s) rfl rfl rfl rfl rfl rfl rfl rfl with
        record := by rw [Table.find_adjust, if_neg hne] }
    · exact refl s
  unfold Machine.raise
  refine ite (fun _ => ite (fun _ => hdrop) fun _ => refl s) fun _ => ?_
  split
  · exact of_eq rfl rfl rfl rfl rfl rfl rfl rfl
  · exact hmeet _

theorem openOwnRound {g : Nat} (hg : g ≠ h) (n : Nat) (k : ReportKind) (d : Nat) : Elsewhere h s (openOwnRound s g n k d) := by
  have hconfirm : ∀ t e, Elsewhere h t (ownConfirm g d n t e) := fun t e =>
    ite (fun _ => raise t fun he => hg (Option.some.inj he)) fun _ => refl t
  refine Elsewhere.trans ?_ (completionCheck _ hg)
  refine Elsewhere.trans ?_ (foldl _ _ fun t e _ => hconfirm t e)
  exact ((stopDoze s).trans (putRound _ hg _)).trans (offerFinding _ hg _)

/-- A finding decision opens no round of a group whose record is not IDLE (R129). -/
theorem findingDecision (hidle : s.corr.find h ≠ some .idle) (c : Ctx) (o : SweepOutcome) (w : Option Comparison) :
    Elsewhere h s (findingDecision s c o w) := by
  unfold Machine.findingDecision
  split
  · next _ x rec _ =>
    split
    · next hopen =>
      obtain ⟨_, _, _, hround⟩ := hopen
      have hg : rec.sheathGroup ≠ h := fun he => by
        rw [he] at hround
        exact hidle (of_decide_eq_true hround)
      split
      · exact openOwnRound s hg _ _ _
      · exact refl s
    · exact refl s
  · exact refl s

end Elsewhere

/-! ### Counting notices against rounds -/

/-- A value put at a listed key takes the old one's place in a count. -/
theorem Table.countP_put {α : Type} (p : α → Bool) : ∀ {t : Table α} {k : Nat} {w : α} (v : α), t.wf → t.find k = some w →
    (t.put k v).countP (fun e => p e.2) + (if p w then 1 else 0) = t.countP (fun e => p e.2) + (if p v then 1 else 0)
  | [], _, _, _, _, h => by cases h
  | (a, x) :: t, k, w, v, hwf, h => by
    obtain ⟨ha, hwf⟩ := (Table.wf_cons _ _).1 hwf
    rw [Table.find] at h
    rw [Table.put]
    by_cases hk : k = a
    · subst hk
      rw [if_pos rfl] at h
      cases h
      rw [if_neg (Nat.lt_irrefl _), if_pos rfl, List.countP_cons, List.countP_cons]
      dsimp only
      omega
    · rw [if_neg hk] at h
      have hlt : ¬ k < a := fun hlt => by
        have := ha k (List.mem_map.2 ⟨_, Table.mem_of_find h, rfl⟩)
        exact absurd hlt (Nat.not_lt.2 (Nat.le_of_lt this))
      have ih := Table.countP_put p v hwf h
      rw [if_neg hlt, if_neg hk, List.countP_cons, List.countP_cons]
      dsimp only
      omega

/-- The record holds an open round. -/
def isOpenRound : CorrRecord → Bool
  | .idle => false
  | .opened _ => true
  | .settled _ => false

/-- The OPEN records. -/
def openRounds (s : State) : Nat := s.corr.countP fun e => isOpenRound e.2

/-- Between s and t at most n notices were posted that no verdict of an OPEN record accounts for: a verdict closes its
round. -/
def Tallied (n : Nat) (s t : State) : Prop := Table.wf s.corr → Table.wf t.corr ∧
  t.notices.fifo.length + openRounds t ≤ s.notices.fifo.length + openRounds s + n

namespace Tallied

theorem of_eq {s t : State} (corr : t.corr = s.corr := by simp) (notices : t.notices = s.notices := by simp) :
    Tallied 0 s t := fun hwf => by
  rw [openRounds, corr, notices]
  exact ⟨hwf, Nat.le_refl _⟩

theorem refl (s : State) : Tallied 0 s s := of_eq rfl rfl

theorem trans {m n : Nat} {s t u : State} (a : Tallied m s t) (b : Tallied n t u) : Tallied (m + n) s u := fun hwf => by
  obtain ⟨hwf', h⟩ := a hwf
  obtain ⟨hwf'', h'⟩ := b hwf'
  exact ⟨hwf'', by omega⟩

theorem ite {n : Nat} {p : Prop} [Decidable p] {s t u : State} (ht : p → Tallied n s t) (hu : ¬ p → Tallied n s u) :
    Tallied n s (if p then t else u) := by
  split
  · exact ht ‹_›
  · exact hu ‹_›

theorem foldl {α : Type} {f : State → α → State} (hf : ∀ t a, Tallied 0 t (f t a)) :
    ∀ (l : List α) (s : State), Tallied 0 s (l.foldl f s)
  | [], s => refl s
  | a :: l, s => (hf s a).trans (foldl hf l _)

variable (s : State)

theorem post (b : NoticeBody) : Tallied 1 s (post s b) := fun hwf => by
  have := post_upTo s b
  unfold postsUpTo at this
  have hcorr : (Machine.post s b).corr = s.corr := by simp
  rw [openRounds, hcorr]
  exact ⟨hwf, by unfold openRounds; omega⟩

theorem postAll : ∀ (bs : List NoticeBody) (s : State), Tallied bs.length s (postAll s bs)
  | [], s => refl s
  | b :: bs, s => by
    have h := (post s b).trans (postAll bs (Machine.post s b))
    rwa [Nat.add_comm] at h

/-- An OPEN record is replaced by another. -/
theorem putRound {h : Nat} {o r : OpenRound} (ho : s.corr.find h = some (.opened o)) :
    Tallied 0 s (putRound s h (.opened r)) := fun hwf => by
  have hcount := Table.countP_put isOpenRound (.opened r) hwf ho
  refine ⟨Table.wf_put _ _ hwf, ?_⟩
  show s.notices.fifo.length + (s.corr.put h (.opened r)).countP (fun e => isOpenRound e.2) ≤ _
  unfold openRounds
  have hopen : ∀ x, isOpenRound (.opened x) = true := fun _ => rfl
  rw [hopen, hopen] at hcount
  omega

theorem issueVerdict {h : Nat} {o : OpenRound} (ho : s.corr.find h = some (.opened o)) (r : OpenRound) (b : Bool) :
    Tallied 0 s (issueVerdict s h r b) := fun hwf => by
  rw [issueVerdict_eq]
  have hcount := Table.countP_put isOpenRound (.settled ⟨r.openKind, r.openDist, r.openedAt, r.joined,
    s.clock.now + s.cfg.block.holdDown * 1000⟩) hwf ho
  have hposts := post_upTo s (.verdict h (decide (2 ≤ nearFaults s.cfg.block.tolerance r.openDist r.joined))
    (nearFaults s.cfg.block.tolerance r.openDist r.joined) (farFaults s.cfg.block.tolerance r.openDist r.joined)
    b r.joined.keys (existsSet s h))
  refine ⟨Table.wf_put _ _ hwf, ?_⟩
  unfold postsUpTo at hposts
  unfold openRounds
  have hopen : isOpenRound (.opened o) = true := rfl
  have hsettled : ∀ x, isOpenRound (.settled x) = false := fun _ => rfl
  rw [hopen, hsettled] at hcount
  simp only [if_true, Bool.false_eq_true, if_false] at hcount
  dsimp only
  omega

theorem completionCheck (h : Nat) : Tallied 0 s (completionCheck s h) := by
  unfold Machine.completionCheck
  split
  · next o ho => exact ite (fun _ => issueVerdict s ho _ _) fun _ => refl s
  all_goals exact refl s

theorem offerFinding (h : Nat) (rep : Report) : Tallied 0 s (offerFinding s h rep) := of_eq

theorem makeReport {h : Nat} {o : OpenRound} (ho : s.corr.find h = some (.opened o)) (r : OpenRound) :
    Tallied 0 s (makeReport s h r) := by
  have hcorr : (Machine.offerFinding s h (ownReportOf r)).corr = s.corr := by simp
  exact ((offerFinding s h _).trans (putRound _ (hcorr ▸ ho))).trans (completionCheck _ h)

theorem decideSpan (n : Nat) (t g : Option Nat) (found : Option (List Best)) : Tallied 0 s (decideSpan s n t g found) := by
  unfold Machine.decideSpan
  split
  · split
    · next o ho => exact ite (fun _ => ite (fun _ => makeReport s ho _) fun _ => putRound s ho) fun _ => refl s
    all_goals exact refl s
  · exact refl s

theorem unableRound (h : Nat) : Tallied 0 s (unableRound s h) := by
  unfold Machine.unableRound
  split
  · next o ho => exact ite (fun _ => refl s) fun _ => makeReport s ho _
  all_goals exact refl s

/-- With an OPEN record, its verdict finds room in the FIFO (R184). -/
theorem room {h : Nat} {s u : State} {o : OpenRound} (ht : Tallied 2 s u) (hwf : Table.wf s.corr)
    (hu : u.corr.find h = some (.opened o)) (hroom : s.notices.fifo.length + s.corr.length + 2 ≤ 32) :
    u.notices.fifo.length < 32 := by
  obtain ⟨_, hle⟩ := ht hwf
  have hpos : 0 < openRounds u := List.countP_pos_iff.2 ⟨_, Table.mem_of_find hu, rfl⟩
  have hmost : openRounds s ≤ s.corr.length := List.countP_le_length
  omega

end Tallied

/-! ### The own report (R181) -/

theorem chosenReport_ownReportOf {o : OpenRound} {rep : Report} (h : chosenReport o rep) : rep = ownReportOf o := by
  obtain ⟨hbest, hclear, hout, hservice⟩ := h
  unfold ownReportOf
  split
  · next b hb => exact hbest b hb
  · next hb =>
    by_cases hs : o.seen = true
    · rw [if_pos hs]
      exact hclear hb hs
    · rw [if_neg hs]
      rw [Bool.not_eq_true] at hs
      by_cases ha : o.allOut = true
      · rw [if_pos ha]
        exact hout hb hs ha
      · rw [if_neg ha]
        exact hservice hb hs (Bool.not_eq_true _ ▸ ha)

/-- What a row has left, when a report is made, of what the report reads. -/
structure Readable (s u : State) : Prop where
  cfg : u.cfg = s.cfg
  now : u.clock.now = s.clock.now
  tod : u.clock.tod = s.clock.tod
  id : u.line.id = s.line.id

namespace Readable

theorem trans {s t u : State} (a : Readable s t) (b : Readable t u) : Readable s u :=
  ⟨b.cfg.trans a.cfg, b.now.trans a.now, b.tod.trans a.tod, b.id.trans a.id⟩

theorem of_elsewhere {h : Nat} {s t : State} (e : Elsewhere h s t) : Readable s t := ⟨e.cfg, e.now, e.tod, e.id⟩

end Readable

/-- The own report of a group, made within a row that goes on elsewhere (R181). -/
theorem makeReport_made {h : Nat} {s u t : State} {o r : OpenRound} {rep : Report} (hread : Readable s u) (htally : Tallied 2 s u)
    (hwf : Table.wf s.corr) (hu : u.corr.find h = some (.opened o)) (hrep : chosenReport r rep)
    (e : Elsewhere h (makeReport u h r) t) :
    (u.onLine → t.hasFrame (if rep.kind = .brk ∨ rep.kind = .bend then 3 else 2)
      (.finding h rep.kind.code (rep.dist.getD 0))) ∧
    checkedForCompletion s t h { r with reported := true } (r.joined.put s.line.id rep) := by
  cases chosenReport_ownReportOf hrep
  have hoffered : Tallied 0 u (offerFinding u h (ownReportOf r)) := Tallied.offerFinding u h _
  have hput := hoffered.trans (Tallied.putRound (o := o)
    (r := { r with reported := true, joined := r.joined.put u.line.id (ownReportOf r) }) _ (by simpa using hu))
  refine ⟨fun hon => e.frames ?_ _ _ _ ?_, ?_⟩
  · simp only [makeReport, completionCheck_keeps]
    exact offer_busy _ _ _ hon
  · have hframe := offer_hasFrame u (if (ownReportOf r).kind.isFault then 3 else 2)
      (.finding h (ownReportOf r).kind.code ((ownReportOf r).dist.getD 0)) hon (.inr rfl)
    simp only [isFault_iff] at hframe
    simp only [State.hasFrame, makeReport, completionCheck_keeps]
    simpa only [State.hasFrame, putRound, offerFinding, isFault_iff] using hframe
  · have hfound : (putRound (offerFinding u h (ownReportOf r)) h
        (.opened { r with reported := true, joined := r.joined.put u.line.id (ownReportOf r) })).corr.find h =
        some (.opened { r with reported := true, joined := r.joined.put s.line.id (ownReportOf r) }) := by
      rw [hread.id]
      exact Table.find_put_same ..
    refine completionCheck_checked hfound ?_ ?_ ?_ (fun hroom => ?_) e
    · simpa [putRound] using hread.cfg
    · simpa [putRound] using hread.now
    · simpa [putRound] using hread.tod
    · exact (htally.trans hput).room hwf hfound hroom

/-! ### The inability to sweep (R182) -/

/-- A row has stopped the engine's sweep: its CONFIRM, if it was one, has decided its span without a comparison. -/
structure Decides (h : Nat) (u v : State) : Prop where
  how : ∃ w, (w = u ∨ ∃ n t g, w = decideSpan u n t g none) ∧ Elsewhere h w v
  tally : Tallied 0 u v

/-- A record that has its own report is left alone (R182). -/
theorem unableBegins_reported {h : Nat} {v : State} (hdone : ∀ r, v.corr.find h = some (.opened r) → r.reported = true) :
    Elsewhere h v (unableBegins v) := by
  unfold unableBegins
  have hfold : ∀ (l : List Nat) (t : State), Elsewhere h v t → Elsewhere h v (l.foldl unableRound t) := by
    intro l
    induction l with
    | nil => exact fun _ e => e
    | cons k l ih =>
      intro t e
      refine ih _ (e.trans ?_)
      by_cases hk : k = h
      · subst hk
        unfold unableRound
        split
        · next r hr =>
          rw [if_pos (hdone r (e.record ▸ hr))]
          exact .refl t
        all_goals exact .refl t
      · exact .unableRound t hk
  exact hfold _ v (.refl v)

/-- A record without its own report makes it, the others before and after it (R182; log 35). -/
theorem unableBegins_reports {h : Nat} {v : State} {r : OpenRound} (hwf : Table.wf v.corr) (hr : v.corr.find h = some (.opened r))
    (hno : r.reported = false) : ∃ u, Elsewhere h v u ∧ Tallied 0 v u ∧
      Elsewhere h (makeReport u h { r with outstanding := [] }) (unableBegins v) := by
  have hmem : h ∈ v.corr.keys := List.mem_map.2 ⟨_, Table.mem_of_find hr, rfl⟩
  have hkeys : v.corr.keys.Nodup := hwf.imp Nat.ne_of_lt
  unfold unableBegins
  obtain ⟨pre, post, hsplit⟩ := List.append_of_mem hmem
  rw [hsplit] at hkeys ⊢
  obtain ⟨_, hpost, hdis⟩ := List.nodup_append.1 hkeys
  have hpre : Elsewhere h v (pre.foldl unableRound v) := .foldl pre v fun t k hk =>
    .unableRound t fun he => hdis h (he ▸ hk) h (List.mem_cons_self ..) rfl
  refine ⟨pre.foldl unableRound v, hpre, .foldl Tallied.unableRound pre v, ?_⟩
  have hround : unableRound (pre.foldl unableRound v) h =
      makeReport (pre.foldl unableRound v) h { r with outstanding := [] } := by
    rw [unableRound, hpre.record.trans hr]
    exact if_neg (by rw [hno]; nofun)
  rw [List.foldl_append, List.foldl_cons, hround]
  exact .foldl post _ fun t k hk => .unableRound t fun he => (List.nodup_cons.1 hpost).1 (he ▸ hk)

/-- What a stopped CONFIRM leaves of an OPEN record: at most its span is decided, and if that was the last one the report is
made (R181). -/
theorem Decides.cases {h : Nat} {u v : State} {o : OpenRound} (hv : Decides h u v) (hu : u.corr.find h = some (.opened o)) :
    (∃ out, v.corr.find h = some (.opened { o with outstanding := out }) ∧ (o.outstanding = [] → out = []) ∧ Readable u v ∧
      (u.onLine → v.onLine)) ∨
    (o.outstanding ≠ [] ∧ Elsewhere h (makeReport u h { o with outstanding := [] }) v) := by
  obtain ⟨⟨w, hw, hwv⟩, _⟩ := hv
  have hsame : Elsewhere h u v → ∃ out, v.corr.find h = some (.opened { o with outstanding := out }) ∧
      (o.outstanding = [] → out = []) ∧ Readable u v ∧ (u.onLine → v.onLine) := fun e =>
    ⟨o.outstanding, e.record.trans hu, id, .of_elsewhere e, fun hon => ⟨e.live hon.1, e.station ▸ hon.2⟩⟩
  rcases hw with rfl | ⟨n, t, g, rfl⟩
  · exact .inl (hsame hwv)
  · by_cases hmatch : ∃ tb, g = some h ∧ t = some tb ∧ o.outstanding.find n = some tb
    · obtain ⟨tb, rfl, rfl, hfind⟩ := hmatch
      have hne : o.outstanding ≠ [] := fun he => by rw [he] at hfind; cases hfind
      have hdecided : decided o n none = { o with outstanding := o.outstanding.erase n } := by simp [decided]
      have hw : decideSpan u n (some tb) (some h) none = if (o.outstanding.erase n).isEmpty then
          makeReport u h { o with outstanding := o.outstanding.erase n }
          else putRound u h (.opened { o with outstanding := o.outstanding.erase n }) := by
        rw [decideSpan, hu]
        dsimp only
        rw [if_pos hfind, hdecided]
      rw [hw] at hwv
      by_cases hlast : (o.outstanding.erase n).isEmpty = true
      · rw [if_pos hlast, List.isEmpty_iff.1 hlast] at hwv
        exact .inr ⟨hne, hwv⟩
      · rw [if_neg hlast] at hwv
        exact .inl ⟨_, hwv.record.trans (Table.find_put_same ..), fun he => absurd he hne,
          ⟨hwv.cfg, hwv.now, hwv.tod, hwv.id⟩,
          fun hon => ⟨hwv.live hon.1, hwv.station ▸ hon.2⟩⟩
    · refine .inl (hsame ((Elsewhere.decideSpan_passed u none fun x tb hg ht hx hfind => hmatch ⟨tb, hg, ht, ?_⟩).trans hwv))
      cases hu.symm.trans hx
      exact hfind

/-- After a report the record is SETTLED, or OPEN with the report joined (R181, R184). -/
theorem makeReport_record (s : State) (h : Nat) (r : OpenRound) :
    (∃ x, (makeReport s h r).corr.find h = some (.settled x)) ∨
    (makeReport s h r).corr.find h =
      some (.opened { r with reported := true, joined := r.joined.put s.line.id (ownReportOf r) }) := by
  have hfind : (putRound (offerFinding s h (ownReportOf r)) h
      (.opened { r with reported := true, joined := r.joined.put s.line.id (ownReportOf r) })).corr.find h =
      some (.opened { r with reported := true, joined := r.joined.put s.line.id (ownReportOf r) }) := Table.find_put_same ..
  rw [makeReport, completionCheck, hfind]
  dsimp only
  split
  · rw [issueVerdict_eq]
    exact .inl ⟨_, Table.find_put_same ..⟩
  · exact .inr hfind

/-- What the inability to sweep makes of a record, after the engine's sweep was stopped (R182). -/
theorem unableBegins_made {h : Nat} {s u v t : State} {o : OpenRound} (hread : Readable s u) (htally : Tallied 2 s u)
    (hwf : Table.wf s.corr) (hu : u.corr.find h = some (.opened o)) (hv : Decides h u v) (e : Elsewhere h (unableBegins v) t) :
    (o.reported = true → o.outstanding = [] → t.corr.find h = some (.opened o)) ∧
    (∀ rep, o.reported = false → o.allOut = false → chosenReport o rep →
      (u.onLine → t.hasFrame (if rep.kind = .brk ∨ rep.kind = .bend then 3 else 2)
        (.finding h rep.kind.code (rep.dist.getD 0))) ∧
      checkedForCompletion s t h { o with outstanding := [], reported := true } (o.joined.put s.line.id rep)) := by
  have htv := htally.trans hv.tally
  rcases hv.cases hu with ⟨out, hfind, hempty, hreadv, honv⟩ | ⟨hne, hmade⟩
  · refine ⟨fun hrep hout => ?_, fun rep hrep _ hchosen => ?_⟩
    · rw [hempty hout, ← hout] at hfind
      have hdone := unableBegins_reported (h := h) (v := v) fun r hr => by
        cases hfind.symm.trans hr
        exact hrep
      exact (hdone.trans e).record.trans hfind
    · obtain ⟨w, hvw, htw, hw⟩ := unableBegins_reports (htv hwf).1 hfind hrep
      obtain ⟨hframe, hcheck⟩ := makeReport_made (r := { o with outstanding := [] }) (rep := rep) ((hread.trans hreadv).trans (.of_elsewhere hvw)) (htv.trans htw) hwf
        (hvw.record.trans hfind) hchosen (hw.trans e)
      refine ⟨fun hon => hframe ?_, hcheck⟩
      obtain ⟨hl, hs⟩ := honv hon
      exact ⟨hvw.live hl, hvw.station ▸ hs⟩
  · refine ⟨fun _ hout => absurd hout hne, fun rep _ _ hchosen => ?_⟩
    have hdone := unableBegins_reported (h := h) (v := v) fun r hr => by
      rcases makeReport_record u h { o with outstanding := [] } with ⟨x, hx⟩ | hx
      · cases (hmade.record.trans hx).symm.trans hr
      · cases (hmade.record.trans hx).symm.trans hr
        rfl
    exact makeReport_made (r := { o with outstanding := [] }) (rep := rep) hread htally hwf hu hchosen ((hmade.trans hdone).trans e)

end Sys2Proof.Machine

/-! ## Decisions on the outstanding spans, and the own report (R131, R181, R182) -/

namespace Sys2Proof.Machine

-- The kernel checks the lemmas one after another: many at once take a thread each.
set_option Elab.async false

variable (s : State) {h : Nat}

/-! ### Stops, from the side of a round -/

theorem confirmReport_decides (c : Ctx) (w : Option Comparison) : confirmReport s c w = s ∨
    ∃ r, c.kind = .confirm ∧ enabledRec s c.span = some r ∧
      confirmReport s c w = decideSpan s c.span c.target c.round (w.map fun x => faultsOf r c.span x.events) := by
  unfold confirmReport
  split
  · next hk =>
    split
    · next r hr => exact .inr ⟨r, hk, hr, rfl⟩
    · exact .inl rfl
  · exact .inl rfl

/-- The end of a sweep without a comparison, by its steps (R85). -/
theorem endSweep_uncompared {c : Ctx} (hc : s.engine.ctx = some c) {o : SweepOutcome} (hw : writtenPart s o = none)
    (pre : List NoticeBody) : endSweep s o pre = clearEngine (sweepOver (confirmReport
      (postAll (writeResult s c o s.acc.current.lit) (pre ++ [.sweepDone c.span o])) c none) c) := by
  rw [endSweep_eq hc, sweepClosed, hw]
  rfl

theorem Decides.unstopped {u v : State} (e : Elsewhere h u v) (tally : Tallied 0 u v) : Decides h u v :=
  ⟨⟨u, .inl rfl, e⟩, tally⟩

/-- What follows a stop elsewhere. -/
theorem Decides.trans {u v w : State} (a : Decides h u v) (e : Elsewhere h v w) (tally : Tallied 0 v w) : Decides h u w := by
  obtain ⟨⟨x, hx, hxv⟩, ht⟩ := a
  exact ⟨⟨x, hx, hxv.trans e⟩, ht.trans tally⟩

/-- The CONFIRM report of a sweep whose span is not outstanding leaves the record alone (R181). -/
theorem confirmReport_passed {c : Ctx} (w : Option Comparison)
    (hno : ∀ o, s.corr.find h = some (.opened o) → o.outstanding.find c.span = none) : Elsewhere h s (confirmReport s c w) := by
  rcases confirmReport_decides s c w with hs | ⟨r, _, _, hs⟩
  · rw [hs]
    exact .refl s
  · rw [hs]
    exact .decideSpan_passed s _ fun o tb _ _ ho => by rw [hno o ho]; nofun

/-- An abort posts SWEEP_DONE and what was to come first; then the CONFIRM reports (R85, R131). -/
theorem abort_stages {c : Ctx} (hc : s.engine.ctx = some c) (o : SweepOutcome) (pre : List NoticeBody) :
    ∃ u, abort s o pre = clearEngine (sweepOver (confirmReport u c none) c) ∧ Elsewhere h s u ∧
      Tallied ((pre ++ writeCutNotice s c.span).length + 1) s u := by
  have hw := writtenPart_stopReduction (stopWrite (dropClaim s c.span) c.span) o
  have hctx : (stopReduction (stopWrite (dropClaim s c.span) c.span)).engine.ctx = some c := by simp [stopReduction, hc]
  have hstopped : Elsewhere h s (stopReduction (stopWrite (dropClaim s c.span) c.span)) :=
    ((Elsewhere.dropClaim s _).trans (.stopWrite _ _)).trans (.stopReduction _)
  have htally : Tallied 0 s (stopReduction (stopWrite (dropClaim s c.span) c.span)) :=
    .of_eq (by simp [stopReduction]) (by simp [stopReduction])
  rw [abort_eq s hc, endSweep_uncompared _ hctx hw]
  generalize stopReduction (stopWrite (dropClaim s c.span) c.span) = x at *
  have hposts := Tallied.postAll (pre ++ writeCutNotice s c.span ++ [.sweepDone c.span o]) (writeResult x c o x.acc.current.lit)
  refine ⟨_, rfl, (hstopped.trans (.writeResult x ..)).trans (.postAll ..), fun hwf => ?_⟩
  obtain ⟨hwf', hle⟩ := ((htally.trans (.of_eq rfl rfl)).trans hposts) hwf
  rw [List.length_append, List.length_singleton] at hle
  exact ⟨hwf', by omega⟩

/-- What comes after the CONFIRM report of an end (R85). -/
theorem ended_elsewhere (c : Ctx) : Elsewhere h s (clearEngine (sweepOver s c)) ∧ Tallied 0 s (clearEngine (sweepOver s c)) :=
  ⟨(Elsewhere.sweepOver s c).trans (.clearEngine _),
    .of_eq (show (sweepOver s c).corr = _ by simp) (show (sweepOver s c).notices = _ by simp)⟩

theorem abort_decides {c : Ctx} (hc : s.engine.ctx = some c) (o : SweepOutcome) {pre : List NoticeBody}
    (hlen : (pre ++ writeCutNotice s c.span).length ≤ 1) :
    ∃ u, Elsewhere h s u ∧ Tallied 2 s u ∧ Decides h u (abort s o pre) := by
  obtain ⟨u, heq, hsu, htally⟩ := abort_stages (h := h) s hc o pre
  rw [heq]
  refine ⟨u, hsu, fun hwf => ?_, ?_⟩
  · obtain ⟨hwf', hle⟩ := htally hwf
    exact ⟨hwf', by omega⟩
  rcases confirmReport_decides u c none with hu | ⟨r, _, _, hu⟩
  · rw [hu]
    exact .unstopped (ended_elsewhere u c).1 (ended_elsewhere (h := h) u c).2
  · rw [hu]
    exact ⟨⟨_, .inr ⟨_, _, _, rfl⟩, (ended_elsewhere _ c).1⟩,
      Tallied.trans (Tallied.decideSpan u _ _ _ _) (ended_elsewhere (h := h) _ c).2⟩

/-- An abort whose span is not outstanding leaves the record alone. -/
theorem abort_passed {c : Ctx} (hc : s.engine.ctx = some c) (o : SweepOutcome) (pre : List NoticeBody)
    (hno : ∀ o, s.corr.find h = some (.opened o) → o.outstanding.find c.span = none) : Elsewhere h s (abort s o pre) := by
  obtain ⟨u, heq, hsu, _⟩ := abort_stages (h := h) s hc o pre
  rw [heq]
  exact (hsu.trans (confirmReport_passed u none fun x hx => hno x (hsu.record ▸ hx))).trans (ended_elsewhere _ c).1

theorem giveUp_decides (g : Nat) : Decides h s (giveBack (giveUpClaim s g)) :=
  .unstopped ((Elsewhere.giveUpClaim s g).trans (.giveBack _)) (.of_eq (by simp) (by simp))

theorem stopSweep_decides (o : SweepOutcome) : ∃ u, Elsewhere h s u ∧ Tallied 2 s u ∧ Decides h u (stopSweep s o []) := by
  rcases stopSweep_cases s o [] with ⟨n, _, _, heq⟩ | ⟨c, _, hc, heq⟩ | ⟨heq, _⟩
  · rw [heq]
    exact ⟨s, .refl s, fun hwf => ⟨hwf, Nat.le_add_right ..⟩, giveUp_decides s _⟩
  · rw [heq]
    exact abort_decides s hc o (writeCutNotice_length s c.span)
  · rw [heq]
    exact ⟨s, .refl s, fun hwf => ⟨hwf, Nat.le_add_right ..⟩, .unstopped (.refl s) (.refl s)⟩

theorem mayHoldClaim_not_storing {c : Ctx} {st : EngineState} (hm : mayHoldClaim c st = true) : st ≠ .storing := by
  rintro rfl
  cases hm

/-- What a laser fault stops, from the side of a round (R89). -/
theorem faultOnSweep_decides (b : NoticeBody) : ∃ u, Elsewhere h s u ∧ Tallied 2 s u ∧ Decides h u (faultOnSweep s [b]) := by
  have hpost : Elsewhere h s (postAll s [b]) ∧ Tallied 2 s (postAll s [b]) := by
    refine ⟨.postAll s _, fun hwf => ?_⟩
    obtain ⟨hwf', hle⟩ := Tallied.postAll [b] s hwf
    exact ⟨hwf', hle.trans (Nat.add_le_add_left (show [b].length ≤ 2 from Nat.le_succ 1) _)⟩
  unfold faultOnSweep
  split
  · next hun =>
    rw [stopSweep, if_pos (by simpa [isUntaken] using hun)]
    split
    · exact ⟨_, hpost.1, hpost.2, giveUp_decides _ _⟩
    · exact ⟨_, hpost.1, hpost.2, .unstopped (.refl _) (.refl _)⟩
  · split
    · next hends =>
      cases hc : s.engine.ctx with
      | none => rw [faultEnds, hc] at hends; cases hends
      | some c =>
        rw [faultEnds_eq hc] at hends
        refine abort_decides s hc .fault ?_
        rw [writeCutNotice_not_storing s _ (mayHoldClaim_not_storing hends)]
        exact Nat.le_refl 1
    · exact ⟨_, hpost.1, hpost.2, .unstopped (.refl _) (.refl _)⟩

/-! ### The three rows at which the inability to sweep begins (R182) -/

theorem haltStation_made {o : OpenRound} (hwf : Table.wf s.corr) (ho : s.corr.find h = some (.opened o)) :
    (o.reported = true → o.outstanding = [] → (haltStation s).corr.find h = some (.opened o)) ∧
    (∀ rep, o.reported = false → o.allOut = false → chosenReport o rep →
      reportMade s (haltStation s) h { o with outstanding := [] } rep) := by
  obtain ⟨u, hsu, htally, hv⟩ := stopSweep_decides (h := h) (haltedBy s) .aborted
  have hafter : Elsewhere h (unableBegins (stopSweep (haltedBy s) .aborted [])) (haltStation s) := by
    rw [haltStation_eq]
    exact ((Elsewhere.announce _).trans (.settle _)).trans (.answer _ ..)
  have hhalted : Tallied 0 s (haltedBy s) := .of_eq rfl rfl
  obtain ⟨hdone, hmade⟩ := unableBegins_made (s := s) ⟨hsu.cfg, hsu.now, hsu.tod, hsu.id⟩ (hhalted.trans htally) hwf
    (hsu.record.trans ho) hv hafter
  refine ⟨hdone, fun rep hrep hall hchosen => ?_⟩
  obtain ⟨hframe, hcheck⟩ := hmade rep hrep hall hchosen
  exact ⟨fun hon => hframe ⟨hsu.live hon.1, by rw [hsu.station]; nofun⟩, hcheck⟩

theorem laserFault_made {o : OpenRound} (code : LaserCode) (hno : s.engine.laserFault = none) (hwf : Table.wf s.corr)
    (ho : s.corr.find h = some (.opened o)) :
    (o.reported = true → o.outstanding = [] → (settleSelect (takeFault s code)).corr.find h = some (.opened o)) ∧
    (∀ rep, o.reported = false → o.allOut = false → chosenReport o rep →
      reportMade s (settleSelect (takeFault s code)) h { o with outstanding := [] } rep) := by
  rw [takeFault_eq, hno]
  dsimp only
  obtain ⟨u, hsu, htally, hv⟩ := faultOnSweep_decides (h := h) (faultTaken s (some code)) (.laserFault ((engineSpan s).getD 0) code)
  have htaken : Tallied 0 s (faultTaken s (some code)) := .of_eq rfl rfl
  obtain ⟨hdone, hmade⟩ := unableBegins_made (s := s) ⟨hsu.cfg, hsu.now, hsu.tod, hsu.id⟩ (htaken.trans htally) hwf
    (hsu.record.trans ho) hv (.settleSelect _)
  refine ⟨hdone, fun rep hrep hall hchosen => ?_⟩
  obtain ⟨hframe, hcheck⟩ := hmade rep hrep hall hchosen
  exact ⟨fun hon => hframe ⟨hsu.live hon.1, by rw [hsu.station]; exact hon.2⟩, hcheck⟩

/-- s is the row's state, and v that state with the line's access state changed. -/
theorem detectDup_made {v : State} {o : OpenRound} (cause : DupCause) (hv : v = { s with line := v.line })
    (hid : v.line.id = s.line.id) (hwf : Table.wf s.corr) (ho : s.corr.find h = some (.opened o)) :
    (o.reported = true → o.outstanding = [] → (detectDup v cause).corr.find h = some (.opened o)) ∧
    (∀ rep, o.reported = false → o.allOut = false → chosenReport o rep →
      checkedForCompletion (post s (.dupId s.line.id cause)) (detectDup v cause) h
        { o with outstanding := [], reported := true } (o.joined.put s.line.id rep)) := by
  obtain ⟨u, hsu, htally, hstop⟩ := stopSweep_decides (h := h) (dupNoted v cause) .aborted
  have heq := dupNoted_eq v cause
  have hnotices : (post v (.dupId v.line.id cause)).notices = (post s (.dupId s.line.id cause)).notices := by
    rw [post_same (s := s) (t := v) (by rw [hv]) (by rw [hv]), hid]
  obtain ⟨hcorr, hcfg, hclock⟩ : v.corr = s.corr ∧ v.cfg = s.cfg ∧ v.clock = s.clock := by
    rw [hv]
    exact ⟨rfl, rfl, rfl⟩
  have hwake : Decides h u (wake (stopSweep (dupNoted v cause) .aborted [])) := hstop.trans (.wake _) (.of_eq (by simp) (by simp))
  have hnoted : Tallied 0 (post s (.dupId s.line.id cause)) (dupNoted v cause) := by
    refine .of_eq ?_ (by rw [heq, hnotices])
    rw [heq]
    simpa using hcorr
  have hafter : Elsewhere h (unableBegins (wake (stopSweep (dupNoted v cause) .aborted []))) (detectDup v cause) := by
    rw [detectDup_eq]
    exact .settle _
  have hread : Readable (post s (.dupId s.line.id cause)) u := by
    refine ⟨hsu.cfg.trans ?_, hsu.now.trans ?_, hsu.tod.trans ?_, hsu.id.trans ?_⟩
    · simpa [heq] using hcfg
    · simp [heq, hclock]
    · simp [heq, hclock]
    · simpa [heq] using hid
  obtain ⟨hdone, hmade⟩ := unableBegins_made hread (hnoted.trans htally) (by simpa using hwf)
    (hsu.record.trans (by rw [heq]; exact hcorr ▸ ho)) hwake hafter
  refine ⟨hdone, fun rep hrep hall hchosen => ?_⟩
  obtain ⟨_, hcheck⟩ := hmade rep hrep hall hchosen
  simpa using hcheck

/-! ### SPAN-OFF (R51) -/

/-- What SPAN-OFF ends after the request is withdrawn leaves a record in which the span is not outstanding. -/
theorem spanOff_passed {n : Nat} (hno : ∀ o, (slotTold s n).corr.find h = some (.opened o) → o.outstanding.find n = none) :
    Elsewhere h (slotTold s n) (spanOff s n) := by
  have hremoved : Elsewhere h (slotTold s n) (slotRemoved s n) := by
    rw [slotRemoved_eq]
    refine .ite (fun _ => (Elsewhere.giveUpClaim (slotTold s n) (lightGroupOf s n)).trans ?_) fun _ => .refl _
    exact .of_eq rfl rfl rfl rfl rfl rfl rfl rfl
  have hrunning : Elsewhere h (slotRemoved s n) (stopRunning (slotRemoved s n) n) := by
    unfold stopRunning
    split
    · next hctx =>
      obtain ⟨c, hc, rfl⟩ := (ctxIs_iff _ _).1 hctx
      exact abort_passed _ hc _ _ fun o ho => hno o (hremoved.record ▸ ho)
    · exact .refl _
  have hboth := hremoved.trans hrunning
  rw [spanOff_eq]
  generalize stopRunning (slotRemoved s n) n = x at *
  have hsuspended : Elsewhere h x (stopSuspended x n) := by
    unfold stopSuspended
    split
    · next hctx =>
      obtain ⟨c, hc, rfl⟩ := (ctxIs_iff _ _).1 hctx
      unfold endSuspended
      rw [hc]
      dsimp only
      refine Elsewhere.trans (Elsewhere.trans ?_ (confirmReport_passed _ none fun o ho => hno o ?_)) (.sweepOver _ c)
      · refine Elsewhere.trans ?_ (.post _ _)
        exact .of_eq rfl rfl rfl rfl rfl rfl rfl rfl
      · rw [← hboth.record, ← ho]
        simp
    · exact .refl _
  exact (hboth.trans hsuspended).trans (.of_eq rfl rfl rfl rfl rfl rfl rfl rfl)

/-! ### The best own finding (R181) -/

theorem chosenBefore_refl (d : Nat) (b : Best) : chosenBefore d b b := .inr ⟨rfl, .inr ⟨rfl, .inr ⟨rfl, Nat.le_refl _⟩⟩⟩

theorem chosenBefore_trans {d : Nat} {a b c : Best} (hab : chosenBefore d a b) (hbc : chosenBefore d b c) : chosenBefore d a c := by
  unfold chosenBefore at *
  rcases hab with ⟨ha, hb⟩ | ⟨hk, hab⟩
  · rcases hbc with ⟨hb', _⟩ | ⟨hk', _⟩
    · rw [hb] at hb'; cases hb'
    · exact .inl ⟨ha, hk' ▸ hb⟩
  · rcases hbc with ⟨hb', hc⟩ | ⟨hk', hbc⟩
    · exact .inl ⟨hk ▸ hb', hc⟩
    · exact .inr ⟨hk.trans hk', by omega⟩

theorem chosenBefore_antisymm {d : Nat} {a b : Best} (hab : chosenBefore d a b) (hba : chosenBefore d b a) : a = b := by
  unfold chosenBefore at *
  obtain ⟨ka, da, na⟩ := a
  obtain ⟨kb, db, nb⟩ := b
  dsimp only at hab hba
  rcases hab with ⟨ha, hb⟩ | ⟨hk, hab⟩
  · rcases hba with ⟨hb', _⟩ | ⟨hk', _⟩
    · rw [hb] at hb'; cases hb'
    · rw [ha, hb] at hk'; cases hk'
  · rcases hba with ⟨hb', ha⟩ | ⟨_, hba⟩
    · rw [hk, hb'] at ha; cases ha
    · obtain ⟨hd, hn⟩ : da = db ∧ na = nb := by omega
      rw [hk, hd, hn]

/-- A candidate finding: BREAK or BEND. -/
def isFinding (b : Best) : Prop := b.kind = .brk ∨ b.kind = .bend

/-- The better of two comes before both. -/
theorem betterBest_some (d : Nat) {b x : Best} (hb : isFinding b) (hx : isFinding x) :
    ∃ y, betterBest d (some b) x = some y ∧ (y = b ∨ y = x) ∧ chosenBefore d y b ∧ chosenBefore d y x := by
  have hself := chosenBefore_refl d
  unfold betterBest
  dsimp only
  split
  · next h => exact ⟨x, rfl, .inr rfl, .inl h, hself x⟩
  · next hfirst =>
    split
    · next h =>
      obtain ⟨hk, h⟩ := h
      exact ⟨x, rfl, .inr rfl, .inr ⟨hk, by omega⟩, hself x⟩
    · next h =>
      refine ⟨b, rfl, .inl rfl, hself b, ?_⟩
      by_cases hk : x.kind = b.kind
      · exact .inr ⟨hk.symm, by by_contra hno; exact h ⟨hk, by omega⟩⟩
      · rcases hb with hb | hb <;> rcases hx with hx | hx
        · exact absurd (hx.trans hb.symm) hk
        · exact .inl ⟨hb, hx⟩
        · exact absurd ⟨hx, hb⟩ hfirst
        · exact absurd (hx.trans hb.symm) hk

/-- Folded over the candidates, the better of two is the best of all. -/
theorem foldl_betterBest (d : Nat) : ∀ (l : List Best) (best : Option Best), (∀ b ∈ best.toList ++ l, isFinding b) →
    bestAmong d (best.toList ++ l) (l.foldl (betterBest d) best)
  | [], none, _ => ⟨⟨fun _ => rfl, fun _ => rfl⟩, nofun⟩
  | [], some b, _ => by
    refine ⟨⟨nofun, nofun⟩, fun x hx => ?_⟩
    cases hx
    exact ⟨List.mem_singleton_self _, fun y hy => by cases List.mem_singleton.1 hy; exact chosenBefore_refl d b⟩
  | x :: l, none, h => foldl_betterBest d l (some x) h
  | x :: l, some b, h => by
    have hfinding : ∀ y, y = b ∨ y = x → isFinding y := by
      rintro y (rfl | rfl)
      · exact h _ (List.mem_cons_self ..)
      · exact h _ (List.mem_cons_of_mem _ (List.mem_cons_self ..))
    obtain ⟨y, hy, hof, hyb, hyx⟩ := betterBest_some d (hfinding b (.inl rfl)) (hfinding x (.inr rfl))
    obtain ⟨hnone, hbest⟩ := foldl_betterBest d l (some y) fun z hz => by
      rcases List.mem_cons.1 hz with rfl | hz
      · exact hfinding _ hof
      · exact h z (List.mem_cons_of_mem _ (List.mem_cons_of_mem _ hz))
    rw [List.foldl_cons, hy]
    refine ⟨⟨fun he => ?_, nofun⟩, fun z hz => ?_⟩
    · cases hnone.1 he
    · obtain ⟨hmem, hall⟩ := hbest z hz
      have hzy : chosenBefore d z y := hall y (List.mem_cons_self ..)
      refine ⟨?_, fun v hv => ?_⟩
      · rcases List.mem_cons.1 hmem with rfl | hmem
        · rcases hof with rfl | rfl
          · exact List.mem_cons_self ..
          · exact List.mem_cons_of_mem _ (List.mem_cons_self ..)
        · exact List.mem_cons_of_mem _ (List.mem_cons_of_mem _ hmem)
      · rcases List.mem_cons.1 hv with rfl | hv
        · exact chosenBefore_trans hzy hyb
        · rcases List.mem_cons.1 hv with rfl | hv
          · exact chosenBefore_trans hzy hyx
          · exact hall v (List.mem_cons_of_mem _ hv)

theorem bestAmong_unique {d : Nat} {l : List Best} {a b : Option Best} (ha : bestAmong d l a) (hb : bestAmong d l b) : a = b := by
  obtain ⟨hna, hba⟩ := ha
  obtain ⟨hnb, hbb⟩ := hb
  cases a with
  | none => exact ((hnb.2 (hna.1 rfl))).symm
  | some x =>
    cases b with
    | none => exact hna.2 (hnb.1 rfl)
    | some y =>
      obtain ⟨hx, hxall⟩ := hba x rfl
      obtain ⟨hy, hyall⟩ := hbb y rfl
      rw [chosenBefore_antisymm (hxall y hy) (hyall x hx)]

theorem faultsOf_eq (r : SpanRecord) (n : Nat) (es : List Event) : faultsOf r n es = es.filterMap fun e =>
    if e.kind = .brk then some ⟨.brk, e.distance - r.offset, n⟩
    else if e.kind = .bend then some ⟨.bend, e.distance - r.offset, n⟩ else none := by
  unfold faultsOf
  refine List.filterMap_congr fun e _ => ?_
  cases e.kind <;> rfl

theorem isFinding_of_faultsOf {r : SpanRecord} {n : Nat} {es : List Event} {b : Best} (hb : b ∈ faultsOf r n es) : isFinding b := by
  obtain ⟨e, _, he⟩ := List.mem_filterMap.1 hb
  cases hk : e.kind <;> rw [hk] at he <;> cases he
  · exact .inl rfl
  · exact .inr rfl

/-! ### A decision that matches (R181) -/

theorem Table.erase_eq_nil {α : Type} {t : Table α} {k : Nat} (h : ∀ n, n ≠ k → t.find n = none) : t.erase k = [] :=
  List.filter_eq_nil_iff.2 fun e he => by
    rw [decide_eq_true_iff]
    intro hk
    have hhas := (Table.has_iff t e.1).2 (List.mem_map.2 ⟨e, he, rfl⟩)
    rw [Table.has, h _ hk] at hhas
    cases hhas

theorem Table.erase_ne_nil {α : Type} {t : Table α} {k n : Nat} (hn : n ≠ k) (h : t.find n ≠ none) : t.erase k ≠ [] := fun he => by
  have hfind := Table.find_erase t k n
  rw [if_neg hn, he] at hfind
  exact h hfind.symm

/-- A decision of an outstanding span: the next ones wait, or the report is made (R181). -/
theorem decideSpan_matches {u : State} {o : OpenRound} {n tb : Nat} (hu : u.corr.find h = some (.opened o))
    (hfind : o.outstanding.find n = some tb) (found : Option (List Best)) : decideSpan u n (some tb) (some h) found =
      if o.outstanding.erase n = [] then makeReport u h (decided o n found) else putRound u h (.opened (decided o n found)) := by
  rw [decideSpan, hu]
  dsimp only
  rw [if_pos hfind]
  simp only [List.isEmpty_iff]
  rfl

/-- After a matching decision the record is not IDLE, and the span is not outstanding. -/
theorem decideSpan_record {u : State} {o : OpenRound} {n tb : Nat} (hu : u.corr.find h = some (.opened o))
    (hfind : o.outstanding.find n = some tb) (found : Option (List Best)) :
    (decideSpan u n (some tb) (some h) found).corr.find h ≠ some .idle ∧
    ∀ x, (decideSpan u n (some tb) (some h) found).corr.find h = some (.opened x) → x.outstanding.find n = none := by
  have herased : (decided o n found).outstanding.find n = none := by
    show (o.outstanding.erase n).find n = none
    rw [Table.find_erase, if_pos rfl]
  rw [decideSpan_matches hu hfind]
  split
  · rcases makeReport_record u h (decided o n found) with ⟨y, hy⟩ | hy <;> rw [hy]
    · exact ⟨nofun, nofun⟩
    · refine ⟨nofun, fun x hx => ?_⟩
      cases hx
      exact herased
  · have hput : (putRound u h (.opened (decided o n found))).corr.find h = some (.opened (decided o n found)) :=
      Table.find_put_same ..
    rw [hput]
    refine ⟨nofun, fun x hx => ?_⟩
    cases hx
    exact herased

/-- What a matching decision makes of a record, within a row that goes on elsewhere (R181). -/
theorem decideSpan_made {s u t : State} {o : OpenRound} {n tb : Nat} {found : Option (List Best)} (hread : Readable s u)
    (htally : Tallied 2 s u) (hon : s.onLine → u.onLine) (hwf : Table.wf s.corr) (hu : u.corr.find h = some (.opened o))
    (hfind : o.outstanding.find n = some tb) (e : Elsewhere h (decideSpan u n (some tb) (some h) found) t) :
    (∀ m, m ≠ n → o.outstanding.find m ≠ none → t.corr.find h = some (.opened (decided o n found))) ∧
    ∀ rep, (∀ m, m ≠ n → o.outstanding.find m = none) → chosenReport (decided o n found) rep →
      reportMade s t h { decided o n found with outstanding := [] } rep := by
  rw [decideSpan_matches hu hfind] at e
  refine ⟨fun m hm hout => ?_, fun rep hlast hchosen => ?_⟩
  · rw [if_neg (Table.erase_ne_nil hm hout)] at e
    exact e.record.trans (Table.find_put_same ..)
  · have hnil := Table.erase_eq_nil hlast
    rw [if_pos hnil] at e
    obtain ⟨hframe, hcheck⟩ := makeReport_made hread htally hwf hu hchosen e
    have hsame : { decided o n found with outstanding := [] } = decided o n found := by
      rw [← hnil]
      rfl
    rw [hsame]
    exact ⟨fun h => hframe (hon h), hcheck⟩

/-! ### The end of a CONFIRM with its comparison (R131) -/

theorem endSweep_compared {c : Ctx} (hc : s.engine.ctx = some c) {o : SweepOutcome} {w : Option Comparison}
    (hw : writtenPart s o = w) : endSweep s o [] = clearEngine (sweepOver (findingDecision (confirmReport
      (postAll (writeResult s c o s.acc.current.lit) [.sweepDone c.span o]) c w) c o w) c) := by
  rw [endSweep_eq hc, sweepClosed, hw]
  rfl

/-- The row of a CONFIRM that is compared, or has no reference (R84, R131). -/
theorem exec_confirmCompared {c : Ctx} {r : SpanRecord} (hc : s.engine.ctx = some c) (hst : s.engine.state = .reducing)
    (hr : enabledRec s c.span = some r) (hvalid : s.trace.state = .valid) (hk : c.kind = .confirm) (hq : c.quickOnly = false) :
    ∃ w : Option Comparison, w = (if c.refPresent then some (compared s c r) else none) ∧
      ∃ o : SweepOutcome, exec .comparisonComplete s = .next (settleSelect (clearEngine (sweepOver (findingDecision
        (confirmReport (postAll (writeResult (withWorking s w) c o s.acc.current.lit) [.sweepDone c.span o]) c w) c o w) c))) := by
  have hne : c.kind ≠ .baseline := by rw [hk]; nofun
  have hend : ∀ (w : Option Comparison) (o : SweepOutcome), writtenPart (withWorking s w) o = w →
      endSweep (withWorking s w) o [] = clearEngine (sweepOver (findingDecision (confirmReport
        (postAll (writeResult (withWorking s w) c o s.acc.current.lit) [.sweepDone c.span o]) c w) c o w) c) :=
    fun w o hw => endSweep_compared (withWorking s w) hc hw
  rw [exec_comparisonComplete s hc hst hr hvalid]
  cases href : c.refPresent with
  | false =>
    refine ⟨none, rfl, .noReference, ?_⟩
    rw [finishComparison_absent s r href, afterComparison_ends s _ hne]
    rw [Option.map_none, Option.getD_none, hend none .noReference rfl]
  | true =>
    refine ⟨some (compared s c r), rfl, (compared s c r).outcome, ?_⟩
    rw [finishComparison_full s r href hq, afterComparison_ends s _ hne]
    rw [Option.map_some, Option.getD_some, hend _ _ (writtenPart_working rfl (compared_writes s c r))]

end Sys2Proof.Machine

namespace Sys2Proof

open Machine

/-- Settles O60: the decisions by `decideSpan`, each within a row that otherwise concerns no round of the group. -/
theorem decisionsMakeTheOwnReport : Obligations.DecisionsMakeTheOwnReport := by
  refine ⟨fun s c r o h tb best hc hst hr hvalid hk hq hround htarget hwf ho hbest hamong => ?_,
    fun s n h tb q o hconf h1 h48 hen hoff hslot hk hround htarget hwf ho hfind => ?_, fun s h o hst hwf ho => ?_,
    fun s code h o hawake hno hwf ho => ?_, fun s bits i cause h o hi hst hwf ho => ?_⟩
  · obtain ⟨w, hw, out, hexec⟩ := exec_confirmCompared s hc hst hr hvalid hk hq
    have hcands : (w.map fun x => faultsOf r c.span x.events).getD [] = if c.refPresent then
        (compared s c r).events.filterMap fun e =>
          if e.kind = .brk then some ⟨.brk, e.distance - r.offset, c.span⟩
          else if e.kind = .bend then some ⟨.bend, e.distance - r.offset, c.span⟩ else none else [] := by
      rw [hw, ← faultsOf_eq]
      split <;> rfl
    have hseen : (w.map fun x => faultsOf r c.span x.events).isSome = c.refPresent := by
      rw [hw]
      split
      · next h => exact h.symm
      · next h => exact (Bool.not_eq_true _ ▸ h).symm
    have hfold : ((w.map fun x => faultsOf r c.span x.events).getD []).foldl (betterBest o.openDist) o.best = best := by
      refine bestAmong_unique (foldl_betterBest _ _ _ fun b hb => ?_) (hcands ▸ hamong)
      rcases List.mem_append.1 hb with hb | hb
      · exact hbest b (by simpa using hb)
      · cases hwc : w with
        | none => rw [hwc] at hb; cases hb
        | some x => rw [hwc] at hb; exact isFinding_of_faultsOf hb
    have hdecided : decided o c.span (w.map fun x => faultsOf r c.span x.events) =
        { o with outstanding := o.outstanding.erase c.span, seen := o.seen || c.refPresent, best := best } := by
      rw [decided, hfold, hseen]
    have hconfirm : ∀ u : State, u.cfg = s.cfg → confirmReport u c w =
        decideSpan u c.span (some tb) (some h) (w.map fun x => faultsOf r c.span x.events) := by
      intro u hu
      have hrec : enabledRec u c.span = some r := by rwa [enabledRec, hu, ← enabledRec]
      rw [confirmReport, if_pos hk, hrec, hround, htarget]
    have hsu : Elsewhere h s (postAll (writeResult (withWorking s w) c out s.acc.current.lit) [.sweepDone c.span out]) := by
      refine Elsewhere.trans ?_ (.postAll _ _)
      exact .of_eq rfl rfl rfl rfl rfl rfl rfl rfl
    have htally : Tallied 1 s (postAll (writeResult (withWorking s w) c out s.acc.current.lit) [.sweepDone c.span out]) :=
      Tallied.trans (t := writeResult (withWorking s w) c out s.acc.current.lit) (.of_eq rfl rfl) (.post _ _)
    rw [hconfirm _ (by simp [withWorking])] at hexec
    generalize postAll (writeResult (withWorking s w) c out s.acc.current.lit) [.sweepDone c.span out] = u at *
    have hu := hsu.record.trans ho
    have hafter : ∀ v : State, v.corr.find h ≠ some .idle →
        Elsewhere h v (settleSelect (clearEngine (sweepOver (findingDecision v c out w) c))) := fun v hv =>
      ((Elsewhere.findingDecision v hv c out w).trans (ended_elsewhere _ c).1).trans (.settleSelect _)
    refine ⟨_, hexec, fun hpassed => ?_, fun hfind => ?_⟩
    · have hsame : Elsewhere h u (decideSpan u c.span (some tb) (some h) (w.map fun x => faultsOf r c.span x.events)) :=
        .decideSpan_passed u _ fun x tb' _ ht hx => by
          cases ht
          cases hu.symm.trans hx
          exact hpassed
      have hkept := hsame.record.trans hu
      exact (hafter _ (by rw [hkept]; nofun)).record.trans hkept
    · obtain ⟨hnot, _⟩ := decideSpan_record hu hfind (w.map fun x => faultsOf r c.span x.events)
      have hmade := decideSpan_made (found := w.map fun x => faultsOf r c.span x.events) (.of_elsewhere hsu)
        (fun hwf => by obtain ⟨hwf', hle⟩ := htally hwf; exact ⟨hwf', by omega⟩)
        (fun hon => ⟨hsu.live hon.1, hsu.station ▸ hon.2⟩) hwf hu hfind (hafter _ hnot)
      rw [hdecided] at hmade
      exact hmade
  · have hexec := exec_spanOff s (spanRefusal_none s hconf h1 h48 hen)
    rw [if_neg hoff] at hexec
    have htold : slotTold s n = decideSpan (emptySlotOf (offMarked s n) n) n (some tb) (some h) none := by
      rw [slotTold, hslot]
      dsimp only
      rw [tellRemoved, hk, hround, htarget]
    have hu : (emptySlotOf (offMarked s n) n).corr.find h = some (.opened o) := ho
    have hdecided : decided o n none = { o with outstanding := o.outstanding.erase n } := by simp [decided]
    obtain ⟨_, hpassed⟩ := decideSpan_record hu hfind none
    have hrest : Elsewhere h (slotTold s n) (answer (settleSelect (spanOff s n)) .accepted []) :=
      ((spanOff_passed s fun x hx => hpassed x (htold ▸ hx)).trans (.settleSelect _)).trans (.answer _ _ _)
    rw [htold] at hrest
    have hmade := decideSpan_made (s := s) (u := emptySlotOf (offMarked s n) n) ⟨rfl, rfl, rfl, rfl⟩ (fun hwf => ⟨hwf, Nat.le_add_right ..⟩) id hwf hu hfind hrest
    rw [hdecided] at hmade
    exact ⟨_, hexec, hmade⟩
  · have hworking : isWorking s = true := (isWorking_iff s).2 (by rcases hst with h | h <;> rw [h] <;> exact ⟨nofun, nofun⟩)
    have hnot : s.port.station ≠ .halted := by rcases hst with h | h <;> rw [h] <;> nofun
    have hexec : exec .halt s = .next (haltStation s) := by
      show Host.Outcome.next _ = _
      rw [if_neg (by simp [hworking]), if_neg hnot]
    exact ⟨_, hexec, haltStation_made s hwf ho⟩
  · have hexec : exec (.laserFaultReport code) s = .next (settleSelect (takeFault s code)) :=
      congrArg Host.Outcome.next (if_pos hawake)
    exact ⟨_, hexec, laserFault_made s code hno hwf ho⟩
  · rcases hi with ⟨f, rfl, hline, hf, hown, rfl⟩ | ⟨rfl, hline, rfl⟩
    · have hexec : exec (.frameReceived bits) s = .next (detectDup (setLine s .gap) .received) := by
        rw [exec_frameReceived_frame hline hf, takeFrame_own (show f.sender = (setLine s .gap).line.id from hown),
          if_pos ((detectsDup_iff (setLine s .gap)).2 hst)]
      exact ⟨_, hexec, detectDup_made s .received rfl rfl hwf ho⟩
    · have hexec : exec .readbackError s = .next (detectDup s .readback) := by
        rw [exec_readbackError, if_pos ⟨hline, (detectsDup_iff s).2 hst⟩]
      exact ⟨_, hexec, detectDup_made s .readback rfl rfl hwf ho⟩

end Sys2Proof

/-! ## A fault opens the round of its group (R129, R130, R177) -/

namespace Sys2Proof.Machine

-- The kernel checks the lemmas one after another: many at once take a thread each.
set_option Elab.async false

variable (s : State)

/-! ### A CONFIRM in a slot (R47 to R49) -/

/-- Between s and t span n's slot, the off marks, the configuration and the clock stayed. -/
structure Beside (n : Nat) (s t : State) : Prop where
  slot : t.sched.slots.find n = s.sched.slots.find n
  off : t.sched.off = s.sched.off
  cfg : t.cfg = s.cfg
  clock : t.clock = s.clock

namespace Beside

variable {n : Nat}

theorem of_sched {s t : State} (sched : t.sched = s.sched := by simp) (cfg : t.cfg = s.cfg := by simp)
    (clock : t.clock = s.clock := by simp) : Beside n s t := ⟨by rw [sched], by rw [sched], cfg, clock⟩

theorem refl (s : State) : Beside n s s := of_sched rfl rfl rfl

theorem trans {s t u : State} (a : Beside n s t) (b : Beside n t u) : Beside n s u :=
  ⟨b.slot.trans a.slot, b.off.trans a.off, b.cfg.trans a.cfg, b.clock.trans a.clock⟩

theorem ite {p : Prop} [Decidable p] {s t u : State} (ht : p → Beside n s t) (hu : ¬ p → Beside n s u) :
    Beside n s (if p then t else u) := by
  split
  · exact ht ‹_›
  · exact hu ‹_›

/-- A step for every entry of a list that leaves span n as it finds it. -/
theorem foldl {α : Type} {f : State → α → State} {s : State} : ∀ (l : List α) (t : State), Beside n s t →
    (∀ t, Beside n s t → ∀ a ∈ l, Beside n t (f t a)) → Beside n s (l.foldl f t)
  | [], _, h, _ => h
  | a :: l, t, h, hf => foldl l _ (h.trans (hf t h a (List.mem_cons_self ..))) fun u hu b hb =>
      hf u hu b (List.mem_cons_of_mem _ hb)

variable {s}

theorem putSlot {m : Nat} (hm : n ≠ m) (r : Request) : Beside n s (putSlot s m r) :=
  ⟨(Table.find_put s.sched.slots m n r).trans (if_neg hm), rfl, rfl, rfl⟩

theorem post (b : NoticeBody) : Beside n s (post s b) := of_sched

/-- A request of another span (R41). -/
theorem raise {m : Nat} (hm : n ≠ m) (r : Raised) : Beside n s (raise s m r) := by
  have hmeet : ∀ old, Beside n s (meet s m old r) := fun old => by
    unfold meet
    split
    · exact refl s
    · exact putSlot hm _
    · exact putSlot hm _
    · exact (putSlot hm _).trans (post _)
    · exact putSlot hm _
  unfold Machine.raise
  refine ite (fun _ => ite (fun _ => of_sched) fun _ => refl s) fun _ => ?_
  split
  · exact putSlot hm _
  · exact hmeet _

/-- A request of a span out of service is dropped (R41). -/
theorem raise_dropped (hno : n ∈ s.sched.off) (m : Nat) (hm : n = m) (r : Raised) : Beside n s (Machine.raise s m r) := by
  subst hm
  rw [Machine.raise, if_pos (by simp [isOff, hno])]
  exact ite (fun _ => of_sched) fun _ => refl s

end Beside

/-- A CONFIRM with target b for the round of group h came to a slot at time of day tod: it fills an empty slot, is merged with
a request, or replaces a BASELINE (R48, R49). -/
structure Confirmed (b h tod : Nat) (old new : Option Request) : Prop where
  fills : old = none → new = some ⟨.confirm, 3, true, some b, some h, tod, false⟩
  meets : ∀ q, old = some q → ∃ m : Request, new = some m ∧ m.kind = .confirm ∧ m.level = max q.level 3 ∧
    m.target = some b ∧ m.round = some h ∧ m.selected = q.selected ∧
    (m.windowed = true ↔ q.kind = .baseline ∨ (q.kind = .confirm ∧ q.windowed = true))

theorem mergeRequest_confirm {old : Request} (hold : old.kind ≠ .baseline) (b h : Nat) :
    (mergeRequest old ⟨.confirm, 3, some b, some h⟩).kind = .confirm ∧
    ((mergeRequest old ⟨.confirm, 3, some b, some h⟩).windowed = true ↔ old.kind = .confirm ∧ old.windowed = true) := by
  constructor
  · rw [mergeRequest_kind]
    cases hk : old.kind with
    | baseline => exact absurd hk hold
    | routine => rfl
    | host => rfl
    | alert => rfl
    | confirm => rfl
  · simp [mergeRequest]

theorem raiseConfirm_confirmed {n : Nat} (hin : s.inService n) (b h : Nat) :
    Confirmed b h s.clock.tod (s.sched.slots.find n) ((raiseConfirm s n b h).sched.slots.find n) := by
  have hput : ∀ (t : State) (r : Request), (putSlot t n r).sched.slots.find n = some r := fun t r => Table.find_put_same ..
  constructor
  · intro hnone
    rw [raiseConfirm, raise_empty s hin hnone, hput]
    rfl
  · intro q hq
    rw [raiseConfirm, raise_pending s hin hq]
    by_cases hk : q.kind = .baseline
    · have hpost : ∀ (t : State) (x : NoticeBody), (post t x).sched = t.sched := fun t x => by simp
      rw [meet_replaces s hk (.inl rfl), hpost, hput]
      exact ⟨_, rfl, rfl, rfl, rfl, rfl, rfl, fun _ => .inl hk, fun _ => rfl⟩
    · rw [meet_merges s (new := ⟨.confirm, 3, some b, some h⟩) hk nofun, hput]
      obtain ⟨hkind, hwin⟩ := mergeRequest_confirm hk b h
      refine ⟨_, rfl, hkind, rfl, rfl, rfl, rfl, hwin.trans ⟨.inr, fun hor => hor.resolve_left hk⟩⟩

/-! ### The CONFIRMs of a round, span by span -/

/-- A step for every entry of a table, from the side of one of them: what holds from state to state over the steps of the
others holds before its own step and after it. -/
theorem foldl_table_split {R : State → State → Prop} (hrefl : ∀ t, R t t) (htrans : ∀ {t u v}, R t u → R u v → R t v)
    {f : State → Nat × SpanRecord → State} {n : Nat} {q : SpanRecord} {l : Table SpanRecord} (hwf : Table.wf l)
    (hmem : (n, q) ∈ l) (t : State) (hf : ∀ u e, n ≠ e.1 → R u (f u e)) :
    ∃ u, R t u ∧ R (f u (n, q)) (l.foldl f t) := by
  have hfold : ∀ (l : Table SpanRecord) (t : State), (∀ e ∈ l, n ≠ e.1) → R t (l.foldl f t) := by
    intro l
    induction l with
    | nil => exact fun t _ => hrefl t
    | cons e l ih => exact fun t h => htrans (hf t e (h e (List.mem_cons_self ..))) (ih _ fun a ha => h a (List.mem_cons_of_mem _ ha))
  obtain ⟨pre, post, rfl⟩ := List.append_of_mem hmem
  have hpair : (pre ++ (n, q) :: post).Pairwise fun a b => a.1 < b.1 := by rwa [Table.wf, Table.keys, List.pairwise_map] at hwf
  obtain ⟨_, hpost, hcross⟩ := List.pairwise_append.1 hpair
  rw [List.foldl_append, List.foldl_cons]
  exact ⟨pre.foldl f t, hfold pre t fun e he => Nat.ne_of_gt (hcross e he _ (List.mem_cons_self ..)),
    hfold post _ fun e he => Nat.ne_of_lt ((List.pairwise_cons.1 hpost).1 e he)⟩

theorem mem_spansOfSheath (hwf : Table.wf s.cfg.spans) {h n : Nat} {q : SpanRecord} :
    (n, q) ∈ spansOfSheath s h ↔ enabledRec s n = some q ∧ q.sheathGroup = h := by
  rw [spansOfSheath, List.mem_filter, mem_enabledSpans hwf, decide_eq_true_iff]

theorem wf_spansOfSheath (hwf : Table.wf s.cfg.spans) (h : Nat) : Table.wf (spansOfSheath s h) :=
  Table.wf_filter _ (Table.wf_filter _ hwf)

theorem inService_of_beside {n : Nat} {t : State} {q : SpanRecord} (hb : Beside n s t) (hrec : enabledRec s n = some q)
    (hoff : n ∉ s.sched.off) : t.inService n := by
  refine ⟨?_, by rw [hb.off]; exact hoff⟩
  rw [isEnabled, enabledRec, hb.cfg, ← enabledRec, hrec]
  rfl

theorem ownConfirm_beside {g d own n : Nat} {e : Nat × SpanRecord} (hn : n ≠ e.1) : Beside n s (ownConfirm g d own s e) :=
  .ite (fun _ => .raise hn _) fun _ => .refl s

/-- The FINDING and the record of a round that opens with an own finding, before the other spans are asked (R177). -/
def ownRoundOpened (s : State) (g : Nat) (k : ReportKind) (d : Nat) : State :=
  offerFinding (putRound (stopDoze s) g (.opened
    { openKind := k, openDist := d, openedAt := s.clock.tod, joined := [(s.line.id, ⟨k, some d⟩)], outstanding := [],
      best := none, seen := false, reported := true,
      expiry := s.clock.now + s.cfg.block.roundTimeout * 1000, allOut := false })) g ⟨k, some d⟩

theorem openOwnRound_eq (g own : Nat) (k : ReportKind) (d : Nat) : openOwnRound s g own k d =
    completionCheck ((spansOfSheath (ownRoundOpened s g k d) g).foldl (ownConfirm g d own) (ownRoundOpened s g k d)) g := rfl

theorem ownRoundOpened_parts (g : Nat) (k : ReportKind) (d : Nat) : (ownRoundOpened s g k d).sched = s.sched ∧
    (ownRoundOpened s g k d).cfg = s.cfg ∧ (ownRoundOpened s g k d).clock = (stopDoze s).clock := by
  simp [ownRoundOpened]

/-- The slots after a round opens (R177 step 4). -/
theorem openOwnRound_slots (hwf : Table.wf s.cfg.spans) (g own : Nat) (k : ReportKind) (d n : Nat) :
    (∀ q, n ≠ own → enabledRec s n = some q → q.sheathGroup = g → n ∉ s.sched.off →
      inCompRange q (confirmTarget s.clock.spacing q d) = true → Confirmed (confirmTarget s.clock.spacing q d) g s.clock.tod
        (s.sched.slots.find n) ((openOwnRound s g own k d).sched.slots.find n)) ∧
    ((n = own ∨ n ∈ s.sched.off ∨ ∀ q, enabledRec s n = some q → q.sheathGroup ≠ g ∨
        inCompRange q (confirmTarget s.clock.spacing q d) = false) →
      (openOwnRound s g own k d).sched.slots.find n = s.sched.slots.find n) := by
  obtain ⟨hsched, hcfg, hclock⟩ := ownRoundOpened_parts s g k d
  have hcheck : (openOwnRound s g own k d).sched =
      ((spansOfSheath (ownRoundOpened s g k d) g).foldl (ownConfirm g d own) (ownRoundOpened s g k d)).sched := by
    rw [openOwnRound_eq]
    simp
  rw [hcheck]
  generalize ownRoundOpened s g k d = v at hsched hcfg hclock
  have hwfv : Table.wf v.cfg.spans := by rwa [hcfg]
  have hrec : ∀ n, enabledRec v n = enabledRec s n := fun n => by rw [enabledRec, hcfg, ← enabledRec]
  have hspacing : v.clock.spacing = s.clock.spacing := by rw [hclock]; rfl
  have htod : v.clock.tod = s.clock.tod := by rw [hclock]; rfl
  refine ⟨fun q hown hq hg hoff hin => ?_, fun hno => ?_⟩
  · obtain ⟨u, hbefore, hafter⟩ := foldl_table_split (R := Beside n) .refl .trans (f := ownConfirm g d own) (wf_spansOfSheath v hwfv g)
      ((mem_spansOfSheath v hwfv).2 ⟨(hrec n).trans hq, hg⟩) v fun u e he => ownConfirm_beside u he
    have hus : u.clock.spacing = s.clock.spacing := by rw [hbefore.clock, hspacing]
    have hut : u.clock.tod = s.clock.tod := by rw [hbefore.clock, htod]
    have hstep : ownConfirm g d own u (n, q) = raiseConfirm u n (confirmTarget s.clock.spacing q d) g := by
      rw [ownConfirm, if_pos (by rw [hus]; exact ⟨hown, hin⟩), hus]
    have hservice := inService_of_beside v hbefore ((hrec n).trans hq) (by rwa [hsched])
    have hconfirmed := raiseConfirm_confirmed u hservice (confirmTarget s.clock.spacing q d) g
    rwa [hafter.slot, hstep, ← hut, ← hsched, ← hbefore.slot]
  · refine (Beside.foldl (n := n) (s := v) _ v (.refl v) fun t ht e he => ?_).slot.trans (by rw [hsched])
    by_cases hne : n = e.1
    · obtain ⟨m, q⟩ := e
      dsimp only at hne
      subst hne
      obtain ⟨hq, hg⟩ := (mem_spansOfSheath v hwfv).1 he
      refine .ite (fun hin => ?_) fun _ => .refl t
      obtain ⟨hown, hin⟩ := hin
      rcases hno with h | h | h
      · exact absurd h hown
      · exact .raise_dropped (by rw [ht.off, hsched]; exact h) n rfl _
      · rcases h q ((hrec n).symm.trans hq) with h | h
        · exact absurd hg h
        · rw [ht.clock, hspacing] at hin
          rw [h] at hin
          cases hin
    · exact ownConfirm_beside t hne

/-! ### The record (R177) -/

/-- A CONFIRM that is withdrawn at once finds no outstanding span in a round that has none (R47). -/
theorem find_raiseConfirm_corr {g : Nat} {o : OpenRound} (ho : s.corr.find g = some (.opened o)) (hout : o.outstanding = [])
    (n b : Nat) : (raiseConfirm s n b g).corr.find g = some (.opened o) := by
  have hmeet : ∀ old, (meet s n old ⟨.confirm, 3, some b, some g⟩).corr = s.corr := fun old => by
    unfold meet
    split
    · rfl
    · rfl
    · rfl
    · simp [putSlot]
    · rfl
  unfold raiseConfirm raise
  split
  · rw [if_pos rfl]
    unfold dropOutstanding
    dsimp only
    rw [Table.find_adjust, if_pos rfl, ho, Option.map_some]
    dsimp only
    rw [hout]
    rfl
  · split
    · exact ho
    · rw [hmeet]
      exact ho

/-- The opening finding of a round, in the record as the row leaves it (R177). -/
theorem openOwnRound_record (g own : Nat) (k : ReportKind) (d : Nat) :
    (∃ o, (openOwnRound s g own k d).corr.find g = some (.opened o) ∧ o.openKind = k ∧ o.openDist = d ∧
      o.openedAt = s.clock.tod ∧ o.reported = true ∧ o.outstanding = [] ∧ o.joined = [(s.line.id, ⟨k, some d⟩)] ∧
      o.expiry = s.clock.now + s.cfg.block.roundTimeout * 1000) ∨
    (∃ o, (openOwnRound s g own k d).corr.find g = some (.settled o) ∧ o.openKind = k ∧ o.openDist = d ∧
      o.openedAt = s.clock.tod ∧ o.joined = [(s.line.id, ⟨k, some d⟩)] ∧
      o.expiry = s.clock.now + s.cfg.block.holdDown * 1000) := by
  obtain ⟨_, hcfg, hclock⟩ := ownRoundOpened_parts s g k d
  have hopened : (ownRoundOpened s g k d).corr.find g = some (.opened
      { openKind := k, openDist := d, openedAt := s.clock.tod, joined := [(s.line.id, ⟨k, some d⟩)], outstanding := [],
        best := none, seen := false, reported := true,
        expiry := s.clock.now + s.cfg.block.roundTimeout * 1000, allOut := false }) := by
    simp [ownRoundOpened, putRound]
  rw [openOwnRound_eq]
  generalize ownRoundOpened s g k d = v at hcfg hclock hopened
  have hfold : ∀ (l : Table SpanRecord) (t : State), t.corr.find g = v.corr.find g → t.cfg = s.cfg → t.clock.now = s.clock.now →
      (l.foldl (ownConfirm g d own) t).corr.find g = v.corr.find g ∧ (l.foldl (ownConfirm g d own) t).cfg = s.cfg ∧
      (l.foldl (ownConfirm g d own) t).clock.now = s.clock.now := by
    intro l
    induction l with
    | nil => exact fun t hr hc hn => ⟨hr, hc, hn⟩
    | cons e l ih =>
      intro t hr hc hn
      refine ih _ ?_ (by simpa using hc) (by simpa using hn)
      unfold ownConfirm
      split
      · rw [find_raiseConfirm_corr t (hr.trans hopened) rfl, hopened]
      · exact hr
  obtain ⟨hrecord, hcfg', hnow'⟩ := hfold (spansOfSheath v g) v rfl hcfg (by rw [hclock]; rfl)
  generalize (spansOfSheath v g).foldl (ownConfirm g d own) v = w at *
  have hfind := hrecord.trans hopened
  rw [completionCheck, hfind]
  dsimp only
  split
  · rw [issueVerdict_eq]
    refine .inr ⟨_, Table.find_put_same .., rfl, rfl, rfl, rfl, ?_⟩
    rw [hcfg', hnow']
  · exact .inl ⟨_, hfind, rfl, rfl, rfl, rfl, rfl, rfl, rfl⟩

/-- The FINDING of the opening waits (R177 step 3). -/
theorem openOwnRound_frame (hon : s.onLine) (g own : Nat) (k : ReportKind) (d : Nat) :
    (openOwnRound s g own k d).line.state ≠ .idle ∧
    (openOwnRound s g own k d).hasFrame (if k.isFault then 3 else 2) (.finding g k.code d) := by
  have hline : (openOwnRound s g own k d).line = (ownRoundOpened s g k d).line := by
    rw [openOwnRound_eq]
    simp only [completionCheck_keeps]
    exact foldl_keeps (·.line) (ownConfirm g d own) (by simp) _ _
  have honPut : (putRound (stopDoze s) g (.opened
    { openKind := k, openDist := d, openedAt := s.clock.tod, joined := [(s.line.id, ⟨k, some d⟩)], outstanding := [],
      best := none, seen := false, reported := true,
      expiry := s.clock.now + s.cfg.block.roundTimeout * 1000, allOut := false })).onLine := hon
  unfold State.hasFrame
  rw [hline]
  exact ⟨offer_busy _ _ _ honPut, offer_hasFrame _ _ _ honPut (.inr rfl)⟩

/-! ### The event a finding names (R129, R130) -/

theorem namedEvent_break {pre post : List Event} {e : Event} (he : e.kind = .brk) (hpre : ∀ x ∈ pre, x.kind ≠ .brk) :
    namedEvent (pre ++ e :: post) = some e := by
  have hfind : (pre ++ e :: post).find? Event.isBreak = some e :=
    List.find?_eq_some_iff_append.2 ⟨(isBreak_iff e).2 he, pre, post, rfl, fun x hx => by
      rw [Bool.not_eq_true', ← Bool.not_eq_true, isBreak_iff]
      exact hpre x hx⟩
  rw [namedEvent, hfind]

theorem namedEvent_bend {pre post : List Event} {e : Event} (hno : ∀ x ∈ pre ++ e :: post, x.kind ≠ .brk) (he : e.kind = .bend)
    (hpre : ∀ x ∈ pre, x.kind ≠ .bend) : namedEvent (pre ++ e :: post) = some e := by
  have hbreak : (pre ++ e :: post).find? Event.isBreak = none := List.find?_eq_none.2 fun x hx => by
    rw [isBreak_iff]
    exact hno x hx
  rw [namedEvent, hbreak]
  exact List.find?_eq_some_iff_append.2 ⟨decide_eq_true he, pre, post, rfl, fun x hx => by
    rw [Bool.not_eq_true', ← Bool.not_eq_true, decide_eq_true_iff]
    exact hpre x hx⟩

theorem outcomeOf_finds {es : List Event} (h : es ≠ []) : outcomeOf es = .broken ∨ outcomeOf es = .changed := by
  unfold outcomeOf
  split
  · exact .inl rfl
  · rw [if_neg (by simpa using h)]
    exact .inr rfl

/-- A fault on a span of an IDLE group opens its round (R129, R177). -/
theorem findingDecision_opens {c : Ctx} {r : SpanRecord} {o : SweepOutcome} {w : Comparison} {e : Event}
    (hr : enabledRec s c.span = some r) (hk : c.kind ≠ .baseline) (ho : o = .broken ∨ o = .changed) (hg : r.sheathGroup ≠ 0)
    (hidle : s.corr.find r.sheathGroup = some .idle) (he : namedEvent w.events = some e) :
    findingDecision s c o (some w) =
      openOwnRound s r.sheathGroup c.span (if e.kind = .brk then .brk else .bend) (e.distance - r.offset) := by
  unfold findingDecision
  rw [hr]
  dsimp only
  rw [if_pos ⟨hk, ho, hg, decide_eq_true hidle⟩, he]
  dsimp only
  rw [sheathDistance]
  by_cases hb : e.kind = .brk
  · rw [if_pos hb, if_pos ((isBreak_iff e).2 hb)]
  · rw [if_neg hb, if_neg (by rw [isBreak_iff]; exact hb)]

/-- A CONFIRM whose round is not OPEN decides nothing (R181). -/
theorem decideSpan_notOpen {n : Nat} {t g : Option Nat} (h : ∀ k o, g = some k → s.corr.find k ≠ some (.opened o))
    (found : Option (List Best)) : decideSpan s n t g found = s := by
  unfold decideSpan
  split
  · next k _ =>
    split
    · next o ho => exact absurd ho (h k o rfl)
    all_goals rfl
  · rfl

end Sys2Proof.Machine

namespace Sys2Proof

open Machine

/-- Settles O48: the end of the sweep with its comparison, the finding that it names, and the round that it opens. -/
theorem faultsOpenARound : Obligations.FaultsOpenARound := by
  intro s c r e hc hst hr hvalid href hq hkind hg hidle hevent
  have hk : c.kind ≠ .baseline := by
    rcases hkind with hk | ⟨hk, _⟩
    · intro h
      rw [h] at hk
      simp at hk
    · rw [hk]; nofun
  have hnamed : namedEvent (compared s c r).events = some e ∧ (compared s c r).events ≠ [] := by
    rcases hevent with ⟨pre, post, hes, he, hpre⟩ | ⟨hno, pre, post, hes, he, hpre⟩
    · rw [hes]
      exact ⟨namedEvent_break he hpre, by simp⟩
    · rw [hes] at hno ⊢
      exact ⟨namedEvent_bend hno he hpre, by simp⟩
  obtain ⟨hnamed, hsome⟩ := hnamed
  have hout : (compared s c r).outcome = .broken ∨ (compared s c r).outcome = .changed := outcomeOf_finds hsome
  have hend := endSweep_compared (w := some (compared s c r)) (withWorking s (some (compared s c r))) hc (writtenPart_working rfl (compared_writes s c r))
  have hended := (BeforeEnd.of_working s hc (some (compared s c r))).ended (compared s c r).outcome []
  have hexec : exec .comparisonComplete s =
      .next (settleSelect (endSweep (withWorking s (some (compared s c r))) (compared s c r).outcome [])) := by
    rw [exec_comparisonComplete s hc hst hr hvalid, finishComparison_full s r href hq, afterComparison_ends s _ hk]
    rfl
  generalize hw : compared s c r = w at *
  have hx : Elsewhere r.sheathGroup s (postAll (writeResult (withWorking s (some w)) c w.outcome
      (withWorking s (some w)).acc.current.lit) [.sweepDone c.span w.outcome]) := by
    refine Elsewhere.trans ?_ (.postAll _ _)
    exact .of_eq rfl rfl rfl rfl rfl rfl rfl rfl
  have hsame : (postAll (writeResult (withWorking s (some w)) c w.outcome (withWorking s (some w)).acc.current.lit)
      [.sweepDone c.span w.outcome]).sched = s.sched ∧ (postAll (writeResult (withWorking s (some w)) c w.outcome
      (withWorking s (some w)).acc.current.lit) [.sweepDone c.span w.outcome]).clock = s.clock ∧
      (postAll (writeResult (withWorking s (some w)) c w.outcome (withWorking s (some w)).acc.current.lit)
      [.sweepDone c.span w.outcome]).corr = s.corr := by simp [withWorking]
  generalize postAll (writeResult (withWorking s (some w)) c w.outcome (withWorking s (some w)).acc.current.lit)
    [.sweepDone c.span w.outcome] = x at *
  obtain ⟨hsched, hclock, hcorr⟩ := hsame
  have hrec : ∀ n, enabledRec x n = enabledRec s n := fun n => by rw [enabledRec, hx.cfg, ← enabledRec]
  have hreport : confirmReport x c (some w) = x := by
    rcases confirmReport_decides x c (some w) with h | ⟨q, hconfirm, _, h⟩
    · exact h
    · rw [h]
      refine decideSpan_notOpen x (fun k o hround => ?_) _
      rcases hkind with hkind | ⟨_, hnot⟩
      · rw [hconfirm] at hkind
        simp at hkind
      · rw [hcorr]
        exact hnot k o hround
  rw [hreport, findingDecision_opens x (by rw [hrec, hr]) hk hout hg (by rw [hcorr, hidle]) hnamed] at hend
  have hrecord := openOwnRound_record x r.sheathGroup c.span (if e.kind = .brk then .brk else .bend) (e.distance - r.offset)
  have hframe := fun hon => openOwnRound_frame x hon r.sheathGroup c.span (if e.kind = .brk then .brk else .bend) (e.distance - r.offset)
  have hslots := fun hwf => openOwnRound_slots x hwf r.sheathGroup c.span (if e.kind = .brk then .brk else .bend) (e.distance - r.offset)
  generalize openOwnRound x r.sheathGroup c.span (if e.kind = .brk then .brk else .bend) (e.distance - r.offset) = v at *
  have hu : (endSweep (withWorking s (some w)) w.outcome []).corr = v.corr ∧
      (endSweep (withWorking s (some w)) w.outcome []).sched.slots = v.sched.slots := by
    rw [hend]
    show (sweepOver v c).corr = _ ∧ (sweepOver v c).sched.slots = _
    simp
  have hvu : Elsewhere r.sheathGroup v (settleSelect (endSweep (withWorking s (some w)) w.outcome [])) := by
    rw [hend]
    exact (ended_elsewhere v c).1.trans (.settleSelect _)
  generalize endSweep (withWorking s (some w)) w.outcome [] = u at *
  refine ⟨_, hexec, fun hon => ?_, fun hwf => ⟨u, rfl, hended, fun n => ?_⟩, ?_⟩
  · obtain ⟨hbusy, hwaits⟩ := hframe ⟨hx.live hon.1, hx.station ▸ hon.2⟩
    have hsent := hvu.frames hbusy _ _ _ hwaits
    by_cases hb : e.kind = .brk
    · rw [if_pos hb] at hsent ⊢
      exact hsent
    · rw [if_neg hb] at hsent ⊢
      exact hsent
  · obtain ⟨hasked, hleft⟩ := hslots (by rw [hx.cfg]; exact hwf) n
    rw [hsched, hclock, hu.2.symm] at hasked hleft
    refine ⟨fun q b hne hq hqg hoff hb hlow hhigh => ?_, fun hno => hleft ?_⟩
    · have hasked' := hasked q hne ((hrec n).trans hq) hqg hoff
      rw [show confirmTarget s.clock.spacing q (e.distance - r.offset) = b from hb] at hasked'
      obtain ⟨hfills, hmeets⟩ := hasked' (decide_eq_true ⟨hlow, hhigh⟩)
      refine ⟨hfills, fun old hold => ?_⟩
      obtain ⟨m, hm, hmk, hml, hmt, hmr, hms, _⟩ := hmeets old hold
      exact ⟨m, hm, hmk, hml, hmt, hmr, hms⟩
    · refine hno.imp_right (Or.imp_right fun hall q hq => (hall q ((hrec n).symm.trans hq)).imp_right fun hout => ?_)
      refine decide_eq_false fun hin => ?_
      obtain ⟨h1, h2⟩ := hin
      unfold confirmTarget at h1 h2
      omega
  · rw [hvu.record, ← hx.tod, ← hx.now, ← hx.id, ← hx.cfg]
    refine hrecord.imp ?_ ?_
    · rintro ⟨o, ho, hkind', hdist, hat, hrep, hnone, hjoined, hexp⟩
      exact ⟨o, ho, hkind', hdist, hat, hrep, hnone, by rw [hjoined, hkind', hdist], hexp⟩
    · rintro ⟨o, ho, hkind', hdist, hat, hjoined, hexp⟩
      exact ⟨o, ho, hkind', hdist, hat, by rw [hjoined, hkind', hdist], hexp⟩

end Sys2Proof

/-! ## FINDINGs heard (R178, R179) -/

namespace Sys2Proof.Machine

-- The kernel checks the lemmas one after another: many at once take a thread each.
set_option Elab.async false

variable (s : State)

/-! ### What a FINDING reports (R175, R203) -/

theorem reportOf_ignored {k d : Nat} (h : k = 0 ∨ 5 < k ∨ ((k = 1 ∨ k = 2) ∧ 350821 < d)) : reportOf k d = none := by
  have hfar : 350821 < d → ¬ d ≤ Config.maxDistance := fun h => Nat.not_le.2 h
  rcases h with rfl | h | ⟨rfl | rfl, hd⟩
  · rfl
  · obtain ⟨j, rfl⟩ : ∃ j, k = j + 6 := ⟨k - 6, by omega⟩
    rfl
  · exact if_neg (hfar hd)
  · exact if_neg (hfar hd)

theorem reportOf_taken {k d : Nat} (h1 : 1 ≤ k) (h5 : k ≤ 5) (hd : (k = 1 ∨ k = 2) → d ≤ 350821) :
    ∃ rep, reportOf k d = some rep ∧ (k ∈ [3, 4, 5] → rep.kind.isFault = false) := by
  have hnear : ∀ x : Report, (if d ≤ Config.maxDistance then some x else none) = some x ∨ ¬ d ≤ 350821 := fun x => by
    by_cases hle : d ≤ 350821
    · exact .inl (if_pos hle)
    · exact .inr hle
  obtain rfl | rfl | rfl | rfl | rfl : k = 1 ∨ k = 2 ∨ k = 3 ∨ k = 4 ∨ k = 5 := by omega
  · exact ⟨_, (hnear _).resolve_right (not_not.2 (hd (.inl rfl))), by simp⟩
  · exact ⟨_, (hnear _).resolve_right (not_not.2 (hd (.inr rfl))), by simp⟩
  · exact ⟨_, rfl, fun _ => rfl⟩
  · exact ⟨_, rfl, fun _ => rfl⟩
  · exact ⟨_, rfl, fun _ => rfl⟩

theorem reportOf_fault {k d : Nat} {kind : ReportKind} (h : (k = 1 ∧ kind = .brk) ∨ (k = 2 ∧ kind = .bend)) (hd : d ≤ 350821) :
    reportOf k d = some ⟨kind, some d⟩ ∧ kind.isFault = true := by
  rcases h with ⟨rfl, rfl⟩ | ⟨rfl, rfl⟩
  · exact ⟨if_pos hd, rfl⟩
  · exact ⟨if_pos hd, rfl⟩

/-! ### The row -/

theorem exec_findingDelivered {f : RxFrame} {rest : List RxFrame} {h k d : Nat} (hin : s.line.inbox = f :: rest)
    (hb : f.body = .finding h k d) : exec .findingDelivered s = .next (takeFindingFrame (deliver s f) f.sender h k d) := by
  show Host.Outcome.next _ = _
  rw [hin]
  dsimp only
  rw [hb]

theorem takeFindingFrame_ignored {x h k d : Nat} (hr : reportOf k d = none) : takeFindingFrame s x h k d = s := by
  rw [takeFindingFrame, hr]

theorem takeFindingFrame_taken {x h k d : Nat} {rep : Report} (hr : reportOf k d = some rep) :
    takeFindingFrame s x h k d = settleSelect (takeFinding s x h rep) := by
  rw [takeFindingFrame, hr]

/-- A FINDING that no record takes (R178). -/
theorem takeFinding_passed {x h : Nat} {rep : Report} (hno : s.corr.find h = none ∨ (∃ o, s.corr.find h = some (.settled o)) ∨
    (s.corr.find h = some .idle ∧ rep.kind.isFault = false)) : takeFinding s x h rep = s := by
  unfold takeFinding
  rcases hno with h | ⟨o, h⟩ | ⟨h, hf⟩
  · rw [h]
  · rw [h]
  · rw [h]
    dsimp only
    rw [hf]

theorem takeFinding_opened {x h : Nat} {o : OpenRound} (ho : s.corr.find h = some (.opened o)) (rep : Report) :
    takeFinding s x h rep = completionCheck (putRound s h (.opened { o with joined := o.joined.put x rep })) h := by
  rw [takeFinding, ho]

theorem takeFinding_idle {x h d : Nat} {kind : ReportKind} (hidle : s.corr.find h = some .idle) (hf : kind.isFault = true) :
    takeFinding s x h ⟨kind, some d⟩ = openHeardRound s h x kind d := by
  rw [takeFinding, hidle]
  dsimp only
  rw [hf]

/-- A frame refreshes its sender's entry, and no exists set changes (R150, R176). -/
theorem existsSet_deliver (f : RxFrame) (h : Nat) : existsSet (deliver s f) h = existsSet s h := by
  show insertAsc s.line.id (((s.peers.table.adjust f.sender (refreshed f)).filter fun e => decide (h ∈ e.2.groups)).map (·.1)) = _
  unfold existsSet Table.adjust
  rw [List.filter_map, List.map_map]
  congr 1
  have hgroups : ((fun e : Nat × Peer => decide (h ∈ e.2.groups)) ∘
      fun e => if e.1 = f.sender then (e.1, refreshed f e.2) else e) = fun e => decide (h ∈ e.2.groups) := by
    funext e
    simp only [Function.comp_apply]
    split <;> rfl
  rw [hgroups]
  refine List.map_congr_left fun e _ => ?_
  simp only [Function.comp_apply]
  split <;> rfl

theorem own_mem_existsSet (h : Nat) : s.line.id ∈ existsSet s h := (mem_insertAsc _ _ _).2 (.inl rfl)

/-- While an id of the exists set has not joined, the round goes on (R184). -/
theorem completionCheck_waits {h : Nat} {o : OpenRound} (ho : s.corr.find h = some (.opened o))
    (hi : ∃ i ∈ existsSet s h, o.joined.find i = none) : completionCheck s h = s := by
  obtain ⟨i, hmem, hnone⟩ := hi
  rw [completionCheck, ho]
  exact if_neg fun hall => (all_joined_iff _ _).1 hall i hmem hnone

/-- The record after an own report that is not the last one (R181, R184). -/
theorem makeReport_waits {h : Nat} {r : OpenRound} (hi : ∃ i ∈ existsSet s h, i ≠ s.line.id ∧ r.joined.find i = none) :
    (makeReport s h r).corr.find h =
      some (.opened { r with reported := true, joined := r.joined.put s.line.id (ownReportOf r) }) := by
  have hput : (putRound (offerFinding s h (ownReportOf r)) h
      (.opened { r with reported := true, joined := r.joined.put s.line.id (ownReportOf r) })).corr.find h =
      some (.opened { r with reported := true, joined := r.joined.put s.line.id (ownReportOf r) }) := Table.find_put_same ..
  have hset : existsSet (putRound (offerFinding s h (ownReportOf r)) h
      (.opened { r with reported := true, joined := r.joined.put s.line.id (ownReportOf r) })) h = existsSet s h := by
    unfold existsSet
    show insertAsc (offerFinding s h (ownReportOf r)).line.id _ = _
    rw [offerFinding, offer_id]
    simp [putRound]
  obtain ⟨i, hmem, hne, hnone⟩ := hi
  rw [makeReport, completionCheck_waits _ hput ⟨i, by rw [hset]; exact hmem, ?_⟩, hput]
  show (r.joined.put s.line.id (ownReportOf r)).find i = none
  rw [Table.find_put, if_neg hne, hnone]

/-! ### The opening of a heard round (R179) -/

/-- The round that a fault heard from station x opens. -/
def heardRound (s : State) (x : Nat) (k : ReportKind) (d : Nat) : OpenRound :=
  { openKind := k, openDist := d, openedAt := s.clock.tod, joined := [(x, ⟨k, some d⟩)], outstanding := [],
    best := none, seen := false, reported := false,
    expiry := s.clock.now + s.cfg.block.roundTimeout * 1000, allOut := !unableToSweep s }

/-- The record is OPEN, and the clock unit awake. -/
def heardOpened (s : State) (h x : Nat) (k : ReportKind) (d : Nat) : State :=
  wake (putRound (stopDoze s) h (.opened (heardRound s x k d)))

theorem openHeardRound_eq (h x : Nat) (k : ReportKind) (d : Nat) : openHeardRound s h x k d =
    if unableToSweep (heardOpened s h x k d) then reportIfDecided (heardOpened s h x k d) h
    else reportIfDecided ((spansOfSheath (heardOpened s h x k d) h).foldl (heardConfirm h d) (heardOpened s h x k d)) h := rfl

/-- What the opening leaves as it is. -/
structure HeardFrom (s v : State) (h x : Nat) (k : ReportKind) (d : Nat) : Prop where
  record : v.corr.find h = some (.opened (heardRound s x k d))
  sched : v.sched = s.sched
  engine : v.engine = s.engine
  port : v.port = s.port
  cfg : v.cfg = s.cfg
  id : v.line.id = s.line.id
  set : existsSet v h = existsSet s h
  spacing : v.clock.spacing = s.clock.spacing
  tod : v.clock.tod = s.clock.tod
  state : v.clock.state = if s.clock.state = .dozing then .locking else s.clock.state

theorem heardOpened_heardFrom (h x : Nat) (k : ReportKind) (d : Nat) : HeardFrom s (heardOpened s h x k d) h x k d := by
  have hput : (putRound (stopDoze s) h (.opened (heardRound s x k d))).corr.find h = some (.opened (heardRound s x k d)) :=
    Table.find_put_same ..
  have hwake := Elsewhere.wake (h := h) (putRound (stopDoze s) h (.opened (heardRound s x k d)))
  have hclock : (heardOpened s h x k d).clock.spacing = s.clock.spacing ∧
      (heardOpened s h x k d).clock.state = if s.clock.state = .dozing then .locking else s.clock.state := by
    by_cases hd : s.clock.state = .dozing
    · rw [heardOpened, wake_dozing (putRound (stopDoze s) h (.opened (heardRound s x k d))) hd, if_pos hd]
      simp [woken, putRound]
    · rw [heardOpened, wake_awake (putRound (stopDoze s) h (.opened (heardRound s x k d))) hd, if_neg hd]
      exact ⟨rfl, rfl⟩
  exact {
    record := hwake.record.trans hput
    sched := by simp [heardOpened, putRound]
    engine := by simp [heardOpened, putRound]
    port := by simp [heardOpened, putRound]
    cfg := hwake.cfg
    id := hwake.id
    set := (existsSet_of_elsewhere hwake h).trans rfl
    spacing := hclock.1
    tod := hwake.tod
    state := hclock.2 }

theorem unableToSweep_heard {v : State} {h x : Nat} {k : ReportKind} {d : Nat} (hv : HeardFrom s v h x k d) :
    unableToSweep v = unableToSweep s := by rw [unableToSweep, hv.port, hv.engine, ← unableToSweep]

theorem reportIfDecided_reports {v : State} {h : Nat} {o : OpenRound} (ho : v.corr.find h = some (.opened o))
    (hout : o.outstanding = []) : reportIfDecided v h = makeReport v h o := by
  rw [reportIfDecided, ho]
  exact if_pos (by rw [hout]; rfl)

theorem reportIfDecided_waits {v : State} {h : Nat} {o : OpenRound} (ho : v.corr.find h = some (.opened o))
    (hout : o.outstanding ≠ []) : reportIfDecided v h = completionCheck v h := by
  rw [reportIfDecided, ho]
  exact if_neg (by simpa using hout)

/-- The own report of a round that has no outstanding span at its opening (R179 step 5). -/
theorem heardRound_reported {v : State} {h x : Nat} {k : ReportKind} {d : Nat} (hv : HeardFrom s v h x k d)
    (hi : ∃ i, i ∈ existsSet s h ∧ i ≠ x ∧ i ≠ s.line.id) : (reportIfDecided v h).corr.find h = some (.opened
      { heardRound s x k d with
        reported := true
        joined := Table.put [(x, ⟨k, some d⟩)] s.line.id (ownReportOf (heardRound s x k d)) }) := by
  obtain ⟨i, hmem, hx, hown⟩ := hi
  have hnone : (heardRound s x k d).joined.find i = none := by
    show (if i = x then some _ else none) = none
    exact if_neg hx
  rw [reportIfDecided_reports hv.record rfl, makeReport_waits v ⟨i, by rw [hv.set]; exact hmem, by rw [hv.id]; exact hown, hnone⟩, hv.id]
  rfl

/-! ### The CONFIRMs of a heard round (R179 step 4) -/

/-- Span n's side of the CONFIRMs of other spans: its slot, and whether it is outstanding in the OPEN record of group h. -/
structure Heard (n h : Nat) (s t : State) : Prop where
  beside : Beside n s t
  record : ∀ o, s.corr.find h = some (.opened o) → ∃ out all, t.corr.find h =
    some (.opened { o with outstanding := out, allOut := all }) ∧ out.find n = o.outstanding.find n ∧ (o.allOut = false → all = false)

namespace Heard

variable {n h : Nat}

theorem refl (s : State) : Heard n h s s := ⟨.refl s, fun o ho => ⟨o.outstanding, o.allOut, ho, rfl, id⟩⟩

theorem trans {s t u : State} (a : Heard n h s t) (b : Heard n h t u) : Heard n h s u := by
  refine ⟨a.beside.trans b.beside, fun o ho => ?_⟩
  obtain ⟨out, all, ht, hfind, hall⟩ := a.record o ho
  obtain ⟨out', all', hu, hfind', hall'⟩ := b.record _ ht
  exact ⟨out', all', hu, hfind'.trans hfind, hall' ∘ hall⟩

theorem of_corr {s t : State} (hb : Beside n s t) (hc : t.corr = s.corr) : Heard n h s t :=
  ⟨hb, fun o ho => ⟨o.outstanding, o.allOut, by rw [hc]; exact ho, rfl, id⟩⟩

end Heard

/-- A request enters a slot without a change of any record, or is dropped with its span (R41, R47). -/
theorem raise_corr {n : Nat} (r : Raised) : (raise s n r).corr = s.corr ∨
    (¬ s.inService n ∧ (raise s n r).corr = (dropOutstanding s n r.target r.round).corr) := by
  have hmeet : ∀ old, (meet s n old r).corr = s.corr := fun old => by
    unfold meet
    split
    · rfl
    · rfl
    · rfl
    · simp [putSlot]
    · rfl
  by_cases hin : s.inService n
  · refine .inl ?_
    cases hslot : s.sched.slots.find n with
    | none => rw [raise_empty s hin hslot]; rfl
    | some old => rw [raise_pending s hin hslot, hmeet]
  · unfold raise
    split
    · split
      · exact .inr ⟨hin, rfl⟩
      · exact .inl rfl
    · next h =>
      refine absurd ?_ hin
      simpa [isOff] using h

theorem dropOutstanding_record {h m b : Nat} {o : OpenRound} (ho : s.corr.find h = some (.opened o)) :
    ∃ out, (dropOutstanding s m (some b) (some h)).corr.find h = some (.opened { o with outstanding := out }) ∧
      ∀ n, n ≠ m → out.find n = o.outstanding.find n := by
  unfold dropOutstanding
  dsimp only
  rw [Table.find_adjust, if_pos rfl, ho, Option.map_some]
  dsimp only
  split
  · exact ⟨_, rfl, fun n hn => (Table.find_erase ..).trans (if_neg hn)⟩
  · exact ⟨_, rfl, fun _ _ => rfl⟩

theorem enterSpan_record {h m b : Nat} {o : OpenRound} (ho : s.corr.find h = some (.opened o)) :
    (enterSpan s h m b).corr.find h = some (.opened { o with outstanding := o.outstanding.put m b, allOut := false }) := by
  unfold enterSpan
  dsimp only
  rw [Table.find_adjust, if_pos rfl, ho]
  rfl

/-- The CONFIRM of another span. -/
theorem heardConfirm_heard {n h d : Nat} {e : Nat × SpanRecord} (hn : n ≠ e.1) : Heard n h s (heardConfirm h d s e) := by
  unfold heardConfirm
  split
  · generalize confirmTarget s.clock.spacing e.2 d = b
    have hentered : Heard n h s (enterSpan s h e.1 b) := ⟨.of_sched rfl rfl rfl, fun o ho =>
      ⟨_, _, enterSpan_record s ho, (Table.find_put ..).trans (if_neg hn), fun _ => rfl⟩⟩
    refine hentered.trans ?_
    have hbeside : Beside n (enterSpan s h e.1 b) (raiseConfirm (enterSpan s h e.1 b) e.1 b h) := .raise hn _
    rcases raise_corr (enterSpan s h e.1 b) (n := e.1) ⟨.confirm, 3, some b, some h⟩ with hc | ⟨_, hc⟩
    · exact .of_corr hbeside hc
    · refine ⟨hbeside, fun o ho => ?_⟩
      obtain ⟨out, hrec, hfind⟩ := dropOutstanding_record (enterSpan s h e.1 b) (m := e.1) (b := b) ho
      exact ⟨out, o.allOut, (congrArg (fun t => Table.find t h) hc).trans hrec, hfind n hn, id⟩
  · exact .refl s

/-- The CONFIRMs of a heard round, from the side of a span in service whose target is in range (R179 step 4). -/
theorem foldl_heardConfirm {v : State} {h x d n b : Nat} {k : ReportKind} {r : SpanRecord} (hv : HeardFrom s v h x k d)
    (hwf : Table.wf s.cfg.spans) (hr : enabledRec s n = some r) (hh : r.sheathGroup = h) (hoff : n ∉ s.sched.off)
    (hb : confirmTarget s.clock.spacing r d = b) (hin : inCompRange r b = true) :
    ∃ out, ((spansOfSheath v h).foldl (heardConfirm h d) v).corr.find h =
        some (.opened { heardRound s x k d with outstanding := out, allOut := false }) ∧
      out.find n = some b ∧ Confirmed b h s.clock.tod (s.sched.slots.find n)
        (((spansOfSheath v h).foldl (heardConfirm h d) v).sched.slots.find n) := by
  have hwfv : Table.wf v.cfg.spans := by rwa [hv.cfg]
  have hrv : enabledRec v n = some r := by rwa [enabledRec, hv.cfg, ← enabledRec]
  obtain ⟨u, hbefore, hafter⟩ := foldl_table_split (R := Heard n h) .refl .trans (f := heardConfirm h d)
    (wf_spansOfSheath v hwfv h) ((mem_spansOfSheath v hwfv).2 ⟨hrv, hh⟩) v fun u e he => heardConfirm_heard u he
  obtain ⟨out, all, hu, _, _⟩ := hbefore.record _ hv.record
  have hclock := hbefore.beside.clock
  have hstep : heardConfirm h d u (n, r) = raiseConfirm (enterSpan u h n b) n b h := by
    have htarget : confirmTarget u.clock.spacing r d = b := by rw [hclock, hv.spacing, hb]
    rw [heardConfirm, htarget, if_pos hin]
  have hservice : (enterSpan u h n b).inService n := inService_of_beside v (t := enterSpan u h n b)
    (hbefore.beside.trans (.of_sched rfl rfl rfl)) hrv (by rw [hv.sched]; exact hoff)
  have hcorr := (raise_corr (enterSpan u h n b) (n := n) ⟨.confirm, 3, some b, some h⟩).resolve_right fun hno => hno.1 hservice
  have hconfirmed := raiseConfirm_confirmed (enterSpan u h n b) hservice b h
  rw [hstep] at hafter
  obtain ⟨out', all', hw, hfind, hall⟩ := hafter.record _ ((congrArg (fun t => Table.find t h) hcorr).trans (enterSpan_record u hu))
  refine ⟨out', ?_, ?_, ?_⟩
  · rw [hw, hall rfl]
  · rw [hfind]
    exact Table.find_put_same ..
  · have htod : (enterSpan u h n b).clock.tod = s.clock.tod := by
      rw [← hv.tod, ← hclock]
      rfl
    have hslot : (enterSpan u h n b).sched.slots.find n = s.sched.slots.find n := by
      rw [← hv.sched]
      exact hbefore.beside.slot
    rw [htod, hslot] at hconfirmed
    rw [hafter.beside.slot]
    exact hconfirmed

/-- A heard round with a span to confirm goes on, once the station can sweep (R179). -/
theorem openHeardRound_confirms {h x d n b : Nat} {k : ReportKind} {r : SpanRecord} (hable : unableToSweep s = false)
    (hwf : Table.wf s.cfg.spans) (hr : enabledRec s n = some r) (hh : r.sheathGroup = h) (hoff : n ∉ s.sched.off)
    (hb : confirmTarget s.clock.spacing r d = b) (hin : inCompRange r b = true) (hx : x ≠ s.line.id) :
    ∃ out, (openHeardRound s h x k d).corr.find h =
        some (.opened { heardRound s x k d with outstanding := out, allOut := false }) ∧
      out.find n = some b ∧
      Confirmed b h s.clock.tod (s.sched.slots.find n) ((openHeardRound s h x k d).sched.slots.find n) ∧
      (openHeardRound s h x k d).engine = s.engine ∧
      (openHeardRound s h x k d).clock.state = if s.clock.state = .dozing then .locking else s.clock.state := by
  have hv := heardOpened_heardFrom s h x k d
  rw [openHeardRound_eq, if_neg (by rw [unableToSweep_heard s hv, hable]; nofun)]
  generalize heardOpened s h x k d = v at hv
  obtain ⟨out, hw, hfind, hconfirmed⟩ := foldl_heardConfirm s hv hwf hr hh hoff hb hin
  have hengine := foldl_keeps (·.engine) (heardConfirm h d) (by simp) (spansOfSheath v h) v
  have hclock := foldl_keeps (·.clock) (heardConfirm h d) (by simp) (spansOfSheath v h) v
  have hline := foldl_keeps (·.line) (heardConfirm h d) (by simp) (spansOfSheath v h) v
  generalize (spansOfSheath v h).foldl (heardConfirm h d) v = w at *
  have hid : w.line.id = s.line.id := by rw [hline, hv.id]
  have hnone : (heardRound s x k d).joined.find w.line.id = none := by
    show (if w.line.id = x then some _ else none) = none
    exact if_neg (by rw [hid]; exact Ne.symm hx)
  rw [reportIfDecided_waits hw (by rintro rfl; cases hfind), completionCheck_waits w hw ⟨_, own_mem_existsSet w h, hnone⟩]
  exact ⟨out, hw, hfind, hconfirmed, by rw [hengine, hv.engine], by rw [hclock, hv.state]⟩

/-- With every target out of range the own report follows at once (R179 steps 4 and 5). -/
theorem openHeardRound_outOfRange {h x d : Nat} {k : ReportKind} (hable : unableToSweep s = false)
    (hwf : Table.wf s.cfg.spans) (hout : ∀ n r, enabledRec s n = some r → r.sheathGroup = h →
      inCompRange r (confirmTarget s.clock.spacing r d) = false) (hi : ∃ i, i ∈ existsSet s h ∧ i ≠ x ∧ i ≠ s.line.id) :
    (openHeardRound s h x k d).corr.find h = some (.opened { heardRound s x k d with
      reported := true, joined := Table.put [(x, ⟨k, some d⟩)] s.line.id ⟨.outOfRange, none⟩ }) := by
  have hv := heardOpened_heardFrom s h x k d
  rw [openHeardRound_eq, if_neg (by rw [unableToSweep_heard s hv, hable]; nofun)]
  generalize heardOpened s h x k d = v at hv
  have hwfv : Table.wf v.cfg.spans := by rwa [hv.cfg]
  have hstep : ∀ e ∈ spansOfSheath v h, heardConfirm h d v e = v := fun e he => by
    obtain ⟨hr, hh⟩ := (mem_spansOfSheath v hwfv).1 he
    refine if_neg ?_
    rw [hv.spacing, hout e.1 e.2 (by rwa [enabledRec, hv.cfg, ← enabledRec] at hr) hh]
    nofun
  have hfold : ∀ l : Table SpanRecord, (∀ e ∈ l, heardConfirm h d v e = v) → l.foldl (heardConfirm h d) v = v := by
    intro l
    induction l with
    | nil => exact fun _ => rfl
    | cons e l ih =>
      intro hl
      rw [List.foldl_cons, hl e (List.mem_cons_self ..), ih fun a ha => hl a (List.mem_cons_of_mem _ ha)]
  rw [hfold _ hstep, heardRound_reported s hv hi]
  simp [ownReportOf, heardRound, hable]

/-- A station that cannot sweep reports OUT_OF_SERVICE at once (R179 steps 3 and 5). -/
theorem openHeardRound_unable {h x d : Nat} {k : ReportKind} (hunable : unableToSweep s = true)
    (hi : ∃ i, i ∈ existsSet s h ∧ i ≠ x ∧ i ≠ s.line.id) :
    (openHeardRound s h x k d).corr.find h = some (.opened { heardRound s x k d with
      reported := true, joined := Table.put [(x, ⟨k, some d⟩)] s.line.id ⟨.outOfService, none⟩ }) ∧
    (openHeardRound s h x k d).sched = s.sched := by
  have hv := heardOpened_heardFrom s h x k d
  rw [openHeardRound_eq, if_pos (by rw [unableToSweep_heard s hv, hunable])]
  generalize heardOpened s h x k d = v at hv
  refine ⟨?_, by simpa using hv.sched⟩
  rw [heardRound_reported s hv hi]
  simp [ownReportOf, heardRound, hunable]

theorem unableToSweep_iff : unableToSweep s = true ↔
    s.engine.laserFault ≠ none ∨ s.port.station = .halted ∨ s.port.station = .isolated := by
  simp [unableToSweep, Option.isSome_iff_ne_none, or_comm, or_assoc]

end Sys2Proof.Machine

namespace Sys2Proof

open Machine

/-- Settles O58: what the FINDING reports, then the state of its group's record. -/
theorem heardFindingsJoinAndOpenRounds : Obligations.HeardFindingsJoinAndOpenRounds := by
  intro s f rest h k d hin hb
  have hexec := exec_findingDelivered s hin hb
  have hdeliver := deliver_eq s hin
  have hpassed : (s.corr.find h = none ∨ (∃ o, s.corr.find h = some (.settled o)) ∨ (s.corr.find h = some .idle ∧ k ∈ [3, 4, 5])) →
      ∀ rep, reportOf k d = some rep → (k ∈ [3, 4, 5] → rep.kind.isFault = false) →
      exec .findingDelivered s = .next (settleSelect (deliver s f)) := fun hno rep hrep hfault => by
    rw [hexec, takeFindingFrame_taken (deliver s f) hrep, takeFinding_passed (deliver s f)
      (hno.imp_right (Or.imp_right fun ⟨hidle, hk⟩ => ⟨hidle, hfault hk⟩))]
  have hset := existsSet_deliver s f h
  have hable : s.engine.laserFault = none → s.port.station = .running ∨ s.port.station = .learning →
      unableToSweep (deliver s f) = false := fun hno hst => by
    rw [← Bool.not_eq_true, unableToSweep_iff]
    rintro (hf | hs | hs)
    · exact hf hno
    · rcases hst with h | h <;> cases h.symm.trans hs
    · rcases hst with h | h <;> cases h.symm.trans hs
  have hopens : ∀ kind, s.corr.find h = some .idle → ((k = 1 ∧ kind = .brk) ∨ (k = 2 ∧ kind = .bend)) → d ≤ 350821 →
      exec .findingDelivered s = .next (settleSelect (openHeardRound (deliver s f) h f.sender kind d)) :=
    fun kind hidle hk hd => by
      obtain ⟨hrep, hfault⟩ := reportOf_fault hk hd
      rw [hexec, takeFindingFrame_taken (deliver s f) hrep, takeFinding_idle (deliver s f) hidle hfault]
  refine ⟨fun hbad => ?_, fun hno hocc => ?_, fun hno h1 h5 hd => ?_, fun o rep ho hrep hwait => ?_, fun o rep ho hrep => ?_,
    fun kind hidle hk hd hunable hx hi => ?_, fun kind n r hidle hk hd hno hst hocc hx hwf hr hh hoff hlow hhigh hslot => ?_,
    fun kind hidle hk hd hno hst hx hwf => ⟨fun hout hi => ?_, fun n r b hr hh hoff hbin hlow hhigh => ?_⟩⟩
  · rw [hexec, takeFindingFrame_ignored (deliver s f) (reportOf_ignored hbad), hdeliver]
  · by_cases hbad : k = 0 ∨ 5 < k ∨ ((k = 1 ∨ k = 2) ∧ 350821 < d)
    · rw [if_pos hbad, hexec, takeFindingFrame_ignored (deliver s f) (reportOf_ignored hbad), hdeliver]
    · obtain ⟨rep, hrep, hfault⟩ := reportOf_taken (k := k) (d := d) (by omega) (by omega) (by omega)
      rw [if_neg hbad, hpassed hno rep hrep hfault, settleSelect_occupied (deliver s f) hocc, hdeliver]
      rfl
  · obtain ⟨rep, hrep, hfault⟩ := reportOf_taken h1 h5 hd
    rw [hpassed hno rep hrep hfault, hdeliver]
  · rw [takeFindingFrame_taken (deliver s f) hrep, takeFinding_opened (deliver s f) (o := o) ho] at hexec
    obtain ⟨i, hmem, hne, hnone⟩ := hwait
    have hput : (putRound (deliver s f) h (.opened { o with joined := o.joined.put f.sender rep })).corr.find h =
        some (.opened { o with joined := o.joined.put f.sender rep }) := Table.find_put_same ..
    rw [completionCheck_waits _ hput ⟨i, hset ▸ hmem, (Table.find_put ..).trans ((if_neg hne).trans hnone)⟩] at hexec
    refine ⟨_, hexec, ?_, ?_⟩
    · simpa using hput
    · simp only [settleSelect_keeps]
      rfl
  · rw [takeFindingFrame_taken (deliver s f) hrep, takeFinding_opened (deliver s f) (o := o) ho] at hexec
    exact ⟨_, hexec, completionCheck_checked (u := putRound (deliver s f) h (.opened { o with joined := o.joined.put f.sender rep }))
      (Table.find_put_same ..) rfl rfl rfl (fun hroom => show s.notices.fifo.length < 32 from by
        have hroom' : s.notices.fifo.length + s.corr.length + 2 ≤ 32 := hroom
        omega) (.settleSelect _)⟩
  · obtain ⟨hrecord, hsched⟩ := openHeardRound_unable (deliver s f) (h := h) (x := f.sender) (d := d) (k := kind)
      ((unableToSweep_iff (deliver s f)).2 hunable) (by rw [hset]; exact hi.imp fun i hi => hi)
    have hstays : (settleSelect (openHeardRound (deliver s f) h f.sender kind d)).sched =
        (openHeardRound (deliver s f) h f.sender kind d).sched := by
      rcases hunable with hf | hs
      · rw [settleSelect_faulted _ (by simpa using hf)]
        simp
      · rw [settleSelect_not_running _ (by simp; rcases hs with h | h <;> exact fun he => by cases h.symm.trans he)]
        rfl
    refine ⟨_, hopens kind hidle hk hd, ?_, by rw [hstays, hsched]; rfl⟩
    have hunable' : unableToSweep (deliver s f) = true := (unableToSweep_iff (deliver s f)).2 hunable
    simp only [settleSelect_keeps]
    rw [hrecord, heardRound, hunable']
    rfl
  · have hrec := (mem_enabledSpans hwf).1 hr
    obtain ⟨out, hrecord, hfind, hconfirmed, hengine, hclock⟩ := openHeardRound_confirms (deliver s f) (x := f.sender) (k := kind)
      (d := d) (b := binOf s.clock.spacing (d + r.offset)) (hable hno hst) hwf hrec hh hoff rfl (decide_eq_true ⟨hlow, hhigh⟩) hx
    have hclock' : (openHeardRound (deliver s f) h f.sender kind d).clock.state = .awake :=
      hclock.trans ((if_neg (by show s.clock.state ≠ _; rw [hocc.2]; nofun)).trans hocc.2)
    refine ⟨_, { heardRound (deliver s f) f.sender kind d with outstanding := out, allOut := false }, hopens kind hidle hk hd, ?_,
      rfl, rfl, rfl, rfl, hfind, ?_⟩
    · simp only [settleSelect_keeps]
      exact hrecord
    · rw [settleSelect_occupied _ ⟨by rw [hengine]; exact hocc.1, hclock'⟩]
      exact hconfirmed.fills hslot
  · have hrecord := openHeardRound_outOfRange (deliver s f) (x := f.sender) (k := kind) (d := d) (h := h) (hable hno hst) hwf
      (fun n r hr hh => decide_eq_false fun ⟨h1, h2⟩ => by
        have := hout n r ((mem_enabledSpans hwf).2 hr) hh
        have hsame : confirmTarget (deliver s f).clock.spacing r d = binOf s.clock.spacing (d + r.offset) := rfl
        omega)
      (by rw [hset]; exact hi)
    refine ⟨_, hopens kind hidle hk hd, ?_⟩
    simp only [settleSelect_keeps]
    rw [hrecord, heardRound, hable hno hst]
    rfl
  · have hrec := (mem_enabledSpans hwf).1 hr
    obtain ⟨out, hrecord, hfind, hconfirmed, hengine, hclock⟩ := openHeardRound_confirms (deliver s f) (x := f.sender) (k := kind)
      (d := d) (hable hno hst) hwf hrec hh hoff hbin (decide_eq_true ⟨hlow, hhigh⟩) hx
    exact ⟨_, _, hopens kind hidle hk hd, hrecord, rfl, rfl, rfl, rfl, rfl, rfl, rfl, hfind, hengine, hclock, hconfirmed.fills,
      hconfirmed.meets⟩

end Sys2Proof
